-- ==== Sys2Proof/Word.lean ====
section
/-! DEFINITION. The block's plainest data types: bytes, tags, fixed strings, station numbers, time values and keyed tables. -/

namespace Sys2Proof

/-- One byte of a frame (Table 10-2). -/
abbrev Byte := BitVec 8

/-- The tag of a record, 0 to 255, chosen by the requester and echoed in the reply (Table 10-2). -/
abbrev Tag := BitVec 8

/-- A string of exactly `n` characters, as the records carry names, labels, references and addresses. -/
abbrev Chars (n : Nat) := Vector Byte n

/-- A station number, 0 to 7 (Table 0-4).  It also numbers the station's terminal and printer lines. -/
abbrev Station := Fin 8

/-- A value of the millisecond time base, which continues at 0 after 4,294,967,295 (R189). -/
abbrev Time := BitVec 32

/-- A table of records by number, in ascending number, no number twice.  An absent number is a free record. -/
abbrev Tbl (α : Type) := List (Nat × α)

end Sys2Proof
end

