-- ==== Sys2Proof/Syntax.lean ====
section
/-! DEFINITION. The commands of the block: one constructor of Instr per row of spec/opcode_table.json, with the fields the
record or event carries.  A numeric field that a rule range-checks is a Nat, so that a value out of range can be sent. -/

namespace Sys2Proof

/-- The kind of a seat (Table 1-4). -/
inductive SeatKind
  | ordinary | wheelchair | companion | house
  deriving DecidableEq, Repr

/-- The role of a station (R185). -/
inductive Role
  | off | kiosk | collect | till
  deriving DecidableEq, Repr

/-- One of the twenty-five lines (R179). -/
inductive Line
  | site
  | station (st : Station)
  | terminal (st : Station)
  | printer (st : Station)
  deriving DecidableEq, Repr

/-- A link: the site link or a station link, on which requests arrive (R182). -/
inductive Link
  | site
  | station (st : Station)
  deriving DecidableEq, Repr

/-- A row and a seat number within a screening named beside it. -/
structure SeatPos where
  row : Nat
  num : Nat
  deriving DecidableEq, Repr

/-- A seat reference: screening slot, row and seat number (Table 0-4). -/
structure SeatRef where
  slot : Nat
  row : Nat
  num : Nat
  deriving DecidableEq, Repr

/-- The fields of BEGIN-SCREENING in the order R3 lists them. -/
structure BeginFields where
  slot : Nat
  code : BitVec 32
  auditorium : Nat
  start : Nat
  band : Nat
  gapRule : Bool
  fares : Vector Nat 8
  declared : Nat
  deriving DecidableEq, Repr

/-- One run of a SEAT-ROW record (R4).  A kind of `none` is a value that is none of the four kinds. -/
structure RunSpec where
  first : Nat
  count : Nat
  cls : Nat
  kinds : List (Option SeatKind)
  deriving DecidableEq, Repr

/-- One fare category of a tariff (Table 4-1). -/
structure Category where
  num : Nat
  label : Chars 12
  factor : Nat
  feeExempt : Bool
  companionOnly : Bool
  deriving DecidableEq, Repr

/-- The contents of a tariff, as LOAD-TARIFF carries them and as the calculator holds them (Table 4-1). -/
structure Tariff where
  cats : List Category
  bookingFee : Nat
  step : Nat
  combo : Nat
  ticketTax : Nat
  snackTax : Nat
  deriving DecidableEq, Repr

/-- One entry of LOAD-SNACKS (R164). -/
structure SnackEntry where
  item : Nat
  name : Chars 16
  price : Nat
  deriving DecidableEq, Repr

/-- A snack line: an item code and a quantity (Table 3-1, R113). -/
structure SnackLine where
  item : Nat
  qty : Nat
  deriving DecidableEq, Repr

/-- The item a REPRINT names (R159). -/
inductive ReprintItem
  | seat (ref : SeatRef)
  | voucher (serial : Nat)
  deriving DecidableEq, Repr

/-- Who sends RESUME-PRINT: a station for its own lane, or the site server naming a station (R145). -/
inductive ResumeSender
  | station (st : Station)
  | site (station : Nat)
  deriving DecidableEq, Repr

/-- The status of a SELECTED record (Table 5-2). -/
inductive SelectStatus
  | ready | busy | outOfService
  deriving DecidableEq, Repr

/-- The stage of a PROGRESS record (Table 5-2). -/
inductive PayStage
  | presentCard | reading | pin | online
  deriving DecidableEq, Repr

/-- The content of an OUTCOME record (Table 5-2). -/
inductive TermOutcome
  | approved (code : Chars 6) (tail : Fin 10000)
  | declined (reason : Byte)
  | cancelled
  | error
  deriving DecidableEq, Repr

/-- The kind of a FAULT record (Table 7-2). -/
inductive PrinterFault
  | paperOut | headOpen | jam | markMissed
  deriving DecidableEq, Repr

/-- Why a frame is in error (R180): its length byte, its check over the bytes from the length on, or a break. -/
inductive FrameFault
  | badLength (len : Byte)
  | badCheck (covered : List Byte) (received : BitVec 16)
  | breakBegan
  deriving DecidableEq, Repr

/-- The result of a REJECT record (R182, checks 1 and 2). -/
inductive RejectReason
  | unknownKind | badLength
  deriving DecidableEq, Repr

/-- The commands, in the order of spec/opcode_table.json.  Station requests carry the station of the link they arrive on;
requests carry their tag; terminal and printer records carry the station of their line. -/
inductive Instr
  | powerOn
  | reset (tag : Tag)
  | beginScreening (tag : Tag) (f : BeginFields)
  | seatRow (tag : Tag) (slot row : Nat) (runs : List RunSpec)
  | endLoad (tag : Tag) (slot : Nat)
  | stopSales (tag : Tag) (slot : Nat)
  | retireScreening (tag : Tag) (slot : Nat)
  | blockSeats (tag : Tag) (slot : Nat) (seats : List SeatPos)
  | unblockSeats (tag : Tag) (slot : Nat) (seats : List SeatPos)
  | querySeats (tag : Tag) (slot row first last : Nat)
  | queryMap (st : Station) (tag : Tag) (slot first last : Nat)
  | holdSeat (st : Station) (tag : Tag) (ref : SeatRef)
  | holdClose (st : Station) (tag : Tag)
  | gatheringWindowExpiry (hold : Nat)
  | dropHold (st : Station) (tag : Tag) (hold : Nat)
  | siteHold (tag : Tag) (slot : Nat) (seats : List SeatPos) (seconds : Nat) (ref : Chars 8)
  | ownDeadlineExpiry (hold : Nat)
  | siteRelease (tag : Tag) (hold : Nat) (ref : Chars 8)
  | siteSell (tag : Tag) (hold : Nat) (ref : Chars 8) (cats : List Nat) (snacks : List SnackLine)
  | setCategory (st : Station) (tag : Tag) (ref : SeatRef) (cat : Nat)
  | addSnack (st : Station) (tag : Tag) (item qty : Nat)
  | removeSnack (st : Station) (tag : Tag) (item qty : Nat)
  | price (st : Station) (tag : Tag)
  | abandon (st : Station) (tag : Tag)
  | lapseDeadlineReached (st : Station)
  | pay (st : Station) (tag : Tag)
  | cancelPay (st : Station) (tag : Tag)
  | selected (st : Station) (echo : Chars 4) (status : SelectStatus)
  | selectStepDeadline (st : Station)
  | progress (st : Station) (stage : PayStage)
  | outcome (st : Station) (o : TermOutcome)
  | timeLimit (st : Station)
  | abortOutcome (st : Station) (o : TermOutcome)
  | abortStepDeadline (st : Station)
  | reversed (st : Station)
  | reverseStepDeadline (st : Station)
  | captured (st : Station)
  | captureStepDeadline (st : Station)
  | refund (tag : Tag) (sale : Nat)
  | querySale (tag : Tag) (sale : Nat)
  | journalRead (tag : Tag)
  | journalRelease (tag : Tag) (seq : Nat)
  | loadTariff (tag : Tag) (f : Tariff)
  | loadSnacks (tag : Tag) (entries : List SnackEntry)
  | setAllowance (tag : Tag) (item allowance lowMark : Nat) (restart : Bool)
  | querySnacks (tag : Tag) (first last : Nat)
  | loadSeed (tag : Tag) (seed : Nat)
  | redeem (st : Station) (tag : Tag) (serial code : Nat)
  | unlockVoucher (tag : Tag) (serial : Nat)
  | queryVoucher (st : Station) (tag : Tag) (serial : Nat)
  | reprint (tag : Tag) (sale : Nat) (item : ReprintItem) (station : Nat)
  | collect (st : Station) (tag : Tag) (ref : Chars 8)
  | resumePrint (sender : ResumeSender) (tag : Tag)
  | accept (st : Station) (k lvl : Nat)
  | level (st : Station) (lvl : Nat)
  | cutDone (st : Station)
  | fault (st : Station) (kind : PrinterFault) (k : Nat)
  | clear (st : Station)
  | burstDeadline
  | cutDeadline (st : Station)
  | settlingDeadline (st : Station)
  | configStation (tag : Tag) (station : Nat) (role : Option Role) (addr : Chars 4) (printer : Bool)
  | setLimits (tag : Tag) (window hold payment : Nat)
  | siteStatus (tag : Tag)
  | status (st : Station) (tag : Tag)
  | reject (link : Link) (tag : Tag) (reason : RejectReason) (kind : Byte)
  | lineLost (line : Line)
  | lineRegained (line : Line)
  | frameError (line : Line) (cause : FrameFault)
  | frameTimeout (line : Line)
  | trainTimeout (line : Line)
  | trainInterrupted (line : Line) (kind : Byte) (tag : Tag) (body : List Byte)
  | recordSent (line : Line)
  | breakBegins (line : Line)
  | breakEnds (line : Line)
  deriving DecidableEq, Repr

end Sys2Proof
end

