-- ==== Sys2Proof/Decode.lean ====
section
/-! DEFINITION. decodeTableWord over the rows of spec/opcode_table.json that give bits.  No row of the table does: the spec
numbers no record kind, so no word spells a command. -/

namespace Sys2Proof

/-- The command that a word spells by the table's bits: none, since every row's "fields" is empty and no row has "fixed". -/
def decodeTableWord (_nbits _w : Nat) : Option Instr := none

end Sys2Proof
end

