-- ==== Sys2Proof/Machine/Records.lean ====
section
/-! DEFINITION. The records each block of the controller keeps, and the records the controller sends, as plain data. -/

namespace Sys2Proof.Machine

/-- A deadline: the time base value at which it was set and its duration in milliseconds (R189). -/
structure Deadline where
  setAt : Time
  dur : Nat
  deriving DecidableEq, Repr

/-- The owner of a hold (Table 2-2). -/
inductive Owner
  | station (st : Station)
  | site
  deriving DecidableEq, Repr

/-- A seat's state together with its owner, which R11 holds together: the hold number when PENDING or HELD, the sale
number when SOLD or ISSUED. -/
inductive SeatState
  | free
  | pending (hold : Nat)
  | held (hold : Nat)
  | sold (sale : Nat)
  | issued (sale : Nat)
  | blocked
  deriving DecidableEq, Repr

/-- The seat record (Table 1-4). -/
structure Seat where
  row : Nat
  num : Nat
  runId : Nat
  runPos : Nat
  cls : Fin 8
  kind : SeatKind
  state : SeatState
  gen : Nat
  mark : Bool
  deriving DecidableEq, Repr

/-- The state of a screening slot that is not EMPTY (Table 1-1).  An EMPTY slot has no record. -/
inductive ScreeningPhase
  | loading | opened | stopped
  deriving DecidableEq, Repr

/-- The screening record (Table 1-1) with the seats loaded so far, in ascending row and, within a row, seat number. -/
structure Screening where
  phase : ScreeningPhase
  code : BitVec 32
  auditorium : Nat
  start : Nat
  band : Nat
  gapRule : Bool
  fares : Vector Nat 8
  declared : Nat
  loaded : Nat
  runCount : Nat
  seats : List Seat
  deriving DecidableEq, Repr

/-- The phase of a hold (Table 2-1). -/
inductive HoldPhase
  | gathering | standing | paying
  deriving DecidableEq, Repr

/-- The hold record (Table 2-2).  A free record is absent from the table. -/
structure Hold where
  owner : Owner
  slot : Nat
  seats : List SeatPos
  phase : HoldPhase
  window : Option Deadline
  own : Option Deadline
  ref : Option (Chars 8)
  deriving DecidableEq, Repr

/-- A seat line of a basket: the seat and its fare category (Table 3-1). -/
structure SeatLine where
  ref : SeatRef
  cat : Nat
  deriving DecidableEq, Repr

/-- A priced seat line of a summary (Table 4-6). -/
structure PricedSeat where
  ref : SeatRef
  cat : Nat
  fare : Nat
  fee : Nat
  total : Nat
  clamped : Bool
  deriving DecidableEq, Repr

/-- A priced snack line of a summary (Table 4-6). -/
structure PricedSnack where
  item : Nat
  qty : Nat
  price : Nat
  amount : Nat
  deriving DecidableEq, Repr

/-- The price summary (Table 4-6). -/
structure Summary where
  seats : List PricedSeat
  snacks : List PricedSnack
  subtotal : Nat
  discount : Nat
  effD : Nat
  snackNet : Nat
  seatPart : Nat
  total : Nat
  ticketTax : Nat
  snackTax : Nat
  tariffId : Nat
  deriving DecidableEq, Repr

/-- The kind of a load that outdates prices (R61). -/
inductive LoadKind
  | tariff | snacks
  deriving DecidableEq, Repr

/-- The basket record (Table 3-1).  Its state follows from its contents and the payment context (R47) and is computed. -/
structure Basket where
  holds : List Nat
  seatLines : List SeatLine
  snacks : List SnackLine
  summary : Option Summary
  stale : Bool
  payLoad : Option LoadKind
  lapse : Option Deadline
  start : Time
  openHold : Nat
  overdue : Bool
  attempts : Nat
  deriving DecidableEq, Repr

/-- The state of a basket (R47). -/
inductive BasketState
  | empty | opened | paying
  deriving DecidableEq, Repr

/-- The states of a payment context other than IDLE (Table 5-4). -/
inductive PayPhase
  | selecting | authorising | aborting | capturing | reversing
  deriving DecidableEq, Repr

/-- The abort cause of a payment (Table 5-4). -/
inductive AbortCause
  | cancel | timeLimit
  deriving DecidableEq, Repr

/-- The authorisation code and card tail of an OUTCOME APPROVED (Table 5-4). -/
structure Auth where
  code : Chars 6
  tail : Fin 10000
  deriving DecidableEq, Repr

/-- The sale reference: the station number and the payment count (R85). -/
structure SaleRef where
  station : Station
  count : Nat
  deriving DecidableEq, Repr

/-- The fields of a payment context that are present outside IDLE (Table 5-4). -/
structure Payment where
  phase : PayPhase
  amount : Nat
  limit : Option Deadline
  step : Option Deadline
  asked : Bool
  cause : Option AbortCause
  auth : Option Auth
  sale : Option Nat
  resSale : Bool
  resJournal : Bool
  resLane : Nat
  reported : Bool
  deriving DecidableEq, Repr

/-- The payment context of a station (Table 5-4): its payment count, and the payment in flight, absent in IDLE. -/
structure PayContext where
  count : Nat
  current : Option Payment
  deriving DecidableEq, Repr

/-- The origin of a sale (Table 6-1). -/
inductive Origin
  | station (st : Station)
  | remote
  deriving DecidableEq, Repr

/-- A seat line of a sale record (Table 6-1). -/
structure SaleSeat where
  ref : SeatRef
  cat : Nat
  label : Chars 12
  fare : Nat
  fee : Nat
  total : Nat
  clamped : Bool
  deriving DecidableEq, Repr

/-- The capture state of a sale (Table 6-1). -/
inductive CaptureState
  | pending | confirmed | unconfirmed | notApplicable
  deriving DecidableEq, Repr

/-- The state of a sale, with the refund amount once it is REFUNDED (Table 6-1). -/
inductive SaleState
  | active
  | refunded (amount : Nat)
  deriving DecidableEq, Repr

/-- The state of a sale alone, without the refund amount, which is a field of its own (Table 6-1), as PRINT-DONE carries it
(R157). -/
inductive SaleStateName
  | active | refunded
  deriving DecidableEq, Repr

/-- The sale record (Table 6-1), kept under its sale number. -/
structure Sale where
  origin : Origin
  slot : Option Nat
  seats : List SaleSeat
  snacks : List PricedSnack
  serials : List Nat
  seatPart : Nat
  subtotal : Nat
  discount : Nat
  effD : Nat
  snackNet : Nat
  total : Nat
  ticketTax : Nat
  snackTax : Nat
  tariffId : Nat
  ref : Option SaleRef
  auth : Option Auth
  capture : CaptureState
  booking : Option (Chars 8)
  state : SaleState
  outstanding : Nat
  deriving DecidableEq, Repr

/-- The reason of a REVERSAL record (Table 5-9). -/
inductive ReversalReason
  | cancelled | timedOut | noAnswer | lineLost
  deriving DecidableEq, Repr

/-- The kind fields of a SALE journal record (Table 6-5). -/
structure SaleEntry where
  origin : Origin
  ref : Option SaleRef
  booking : Option (Chars 8)
  slot : Option Nat
  seatCount : Nat
  unitCount : Nat
  seatPart : Nat
  snackNet : Nat
  ticketTax : Nat
  snackTax : Nat
  capture : CaptureState
  auth : Option Auth
  tariffId : Nat
  clampedCount : Nat
  deriving DecidableEq, Repr

/-- The kind of a journal record with its kind fields (Tables 6-5 and 5-9). -/
inductive JournalBody
  | sale (e : SaleEntry)
  | reversal (station : Station) (ref : SaleRef) (confirmed : Bool) (reason : ReversalReason) (auth : Option Auth)
  | refund (origin : Origin) (voided leftRedeemed : Nat)
  | redemption (serial item : Nat) (till : Station)
  deriving DecidableEq, Repr

/-- A journal record (Table 6-4). -/
structure JournalRec where
  seq : Nat
  time : Time
  sale : Option Nat
  amount : Nat
  body : JournalBody
  deriving DecidableEq, Repr

/-- The kind and source of a print order (Table 8-1). -/
inductive OrderItem
  | ticket (ref : SeatRef)
  | stub (serial : Nat)
  | receipt
  deriving DecidableEq, Repr

/-- The print status of an order (Table 7-4). -/
inductive PrintStatus
  | queued | started | awaitingCut | uncertain
  deriving DecidableEq, Repr

/-- A print order (Table 8-1) with its print status. -/
structure Order where
  item : OrderItem
  sale : Nat
  reprint : Bool
  status : PrintStatus
  deriving DecidableEq, Repr

/-- A seat line as a receipt prints it: row, seat number, category label, fare and booking fee (Table 8-2). -/
structure ReceiptSeat where
  pos : SeatPos
  label : Chars 12
  fare : Nat
  fee : Nat
  deriving DecidableEq, Repr

/-- A snack line as a receipt prints it (Table 8-2). -/
structure ReceiptSnack where
  name : Chars 16
  qty : Nat
  amount : Nat
  deriving DecidableEq, Repr

/-- The printed content of an item, fixed at its render start (Table 8-2).  A field taken from a record is absent where the
record has none of it. -/
inductive Content
  | ticket (auditorium start : Option Nat) (ref : SeatRef) (label : Option (Chars 12)) (fare : Option Nat)
      (sale gen : Nat) (reprint : Bool)
  | stub (name : Option (Chars 16)) (serial code gen : Nat) (start : Option Nat) (sale : Nat) (reprint : Bool)
  | receipt (seats : List ReceiptSeat) (snacks : List ReceiptSnack) (subtotal discount total ticketTax snackTax : Nat)
      (auth : Option Auth) (sale : Nat) (ref : Option SaleRef) (reprint : Bool)
  deriving DecidableEq, Repr

/-- One dot line of an item: the item's content and the line's number within it, 1 upward (R131).  Its 576 dots are
`Config.dots`. -/
structure DotLine where
  content : Option Content
  number : Nat
  deriving DecidableEq, Repr

/-- The fault kind a SUSPENDED lane holds (Table 7-4). -/
inductive FaultKind
  | paperOut | headOpen | jam | markMissed | lineLost | noAnswer
  deriving DecidableEq, Repr

/-- The lane state (R130). -/
inductive LaneState
  | idle | waiting | running | suspended
  deriving DecidableEq, Repr

/-- The lane control word (Table 7-4).  `suspended` holds the fault kind and is present exactly while the lane is SUSPENDED.
The lane state, current order, awaiting-cut list, uncertain count and urgency are views of these fields. -/
structure Lane where
  suspended : Option FaultKind
  queue : List Order
  reservedRoom : Nat
  linesSent : Nat
  residual : Nat
  content : Option Content
  lastLevel : Nat
  clearFlag : Bool
  cut : Option Deadline
  settling : Option Deadline
  deriving DecidableEq, Repr

/-- The burst in flight (R134).  Its deadline runs from the leaving of its last frame. -/
structure Burst where
  lane : Station
  size : Nat
  deadline : Option Deadline
  deriving DecidableEq, Repr

/-- The render mover (R134): IDLE when no burst is in flight. -/
structure Mover where
  burst : Option Burst
  last : Station
  deriving DecidableEq, Repr

/-- The snack item record (Table 9-1), kept under its code. -/
structure Item where
  name : Chars 16
  price : Nat
  allowance : Nat
  issued : Nat
  reserved : Nat
  lowMark : Nat
  armed : Bool
  deriving DecidableEq, Repr

/-- The state of a voucher, with the redeeming till and time while it is REDEEMED (Table 9-4). -/
inductive VoucherState
  | printPending
  | issued
  | redeemed (till : Station) (time : Time)
  | void
  | locked
  deriving DecidableEq, Repr

/-- The state of a voucher alone (Table 9-4), as a reply that names only the state carries it (R119, R176). -/
inductive VoucherStateName
  | printPending | issued | redeemed | void | locked
  deriving DecidableEq, Repr

/-- The voucher record (Table 9-4), kept under its serial. -/
structure Voucher where
  item : Nat
  slot : Option Nat
  sale : Nat
  value : Nat
  gen : Nat
  code : Nat
  state : VoucherState
  counted : Bool
  wrong : Nat
  deriving DecidableEq, Repr

/-- The configuration of a station (R185). -/
structure StationConfig where
  role : Role
  addr : Chars 4
  printer : Bool
  deriving DecidableEq, Repr

/-- The three limits (Table 10-6): milliseconds, seconds, seconds. -/
structure Limits where
  window : Nat
  holdTime : Nat
  payTime : Nat
  deriving DecidableEq, Repr

/-- The state of a line (R179). -/
inductive LineState
  | up | lost
  deriving DecidableEq, Repr

/-- A frame without its marker, length and check (Table 10-2). -/
structure Frame where
  kind : Byte
  tag : Tag
  body : List Byte
  deriving DecidableEq, Repr

/-- A line's receiver (R180): hunting, or receiving a frame with its bytes so far, from the length on, and the milliseconds
since the last. -/
inductive Receiver
  | hunting
  | receiving (bytes : List Byte) (quiet : Nat)
  deriving DecidableEq, Repr

/-- A train in progress (R181): its kind and tag, the body joined so far, and the milliseconds since its last byte. -/
structure Train where
  kind : Byte
  tag : Tag
  body : List Byte
  quiet : Nat
  deriving DecidableEq, Repr

/-- A byte to come on a receive input: the milliseconds until it arrives after the byte before it, and the byte (log 28). -/
structure WireByte where
  wait : Nat
  byte : Byte
  deriving DecidableEq, Repr

/-- The kinds of station request (Table 10-3). -/
inductive ReqKind
  | queryMap | holdSeat | holdClose | dropHold | setCategory | addSnack | removeSnack | price | pay | cancelPay | abandon
  | collect | resumePrint | redeem | queryVoucher | status
  deriving DecidableEq, Repr

/-- The kinds of site request (Table 10-3). -/
inductive SiteKind
  | beginScreening | seatRow | endLoad | stopSales | retireScreening | blockSeats | unblockSeats | querySeats | siteHold
  | siteRelease | siteSell | refund | querySale | journalRead | journalRelease | loadTariff | loadSnacks | setAllowance
  | querySnacks | loadSeed | unlockVoucher | reprint | resumePrint | configStation | setLimits | siteStatus | reset
  deriving DecidableEq, Repr

/-- The kinds of record received from a terminal (Table 5-2). -/
inductive TermKind
  | selected | progress | outcome | captured | reversed
  deriving DecidableEq, Repr

/-- The kinds of record received from a printer (Table 7-2). -/
inductive PrinterKind
  | accept | level | cutDone | fault | clear
  deriving DecidableEq, Repr

/-- The kinds of record the controller takes: the requests of the site link and of a station link, and the records of a
terminal and of a printer line (Tables 10-3, 5-2 and 7-2). -/
inductive RecKind
  | site (k : SiteKind)
  | station (k : ReqKind)
  | terminal (k : TermKind)
  | printer (k : PrinterKind)
  deriving DecidableEq, Repr

/-- The fields that a record's body spells: what its kind calls for is read, the rest stands idle.  `num` gives its numbers
in record order.  An enumeration whose value is none of those named is absent (log 15). -/
structure Fields where
  num : Nat → Nat
  flag : Bool
  screeningCode : BitVec 32
  chars : (n : Nat) → Chars n
  fares : Vector Nat 8
  seats : List SeatPos
  runs : List RunSpec
  numbers : List Nat
  snacks : List SnackLine
  cats : List Category
  entries : List SnackEntry
  seat : Option SeatRef
  role : Option Role
  status : Option SelectStatus
  stage : Option PayStage
  outcome : Option TermOutcome
  fault : Option PrinterFault
  deriving Inhabited

/-- The request in progress on a station link (R183). -/
structure Request where
  kind : ReqKind
  tag : Tag
  deriving DecidableEq, Repr

/-! ### What the controller sends -/

/-- A field a BAD_FIELD refusal names. -/
inductive FieldName
  | slot | auditorium | startTime | bandFactor | classFare (cls : Nat) | declaredCount
  | seatList | row | seatNumber | duration
  | repeatedSeat | holdNumber | category | itemCode | quantity | repeatedItem
  | categoryCount | categoryNumber | factor | bookingFee | step | comboDiscount | ticketTax | snackTax
  | unitPrice
  | saleNumber | stationNumber | serial
  | role | terminalAddress | printerPresence
  deriving DecidableEq, Repr

/-- The condition a CONFIG-STATION refused BUSY names (R185). -/
inductive BusyCondition
  | basket | gathering | payment | laneQueue
  deriving DecidableEq, Repr

/-- The state of a slot as a reply reports it. -/
inductive SlotState
  | empty | loading | opened | stopped
  deriving DecidableEq, Repr

/-- The state of a payment context as a reply reports it. -/
inductive PayState
  | idle | selecting | authorising | aborting | capturing | reversing
  deriving DecidableEq, Repr

/-- The result of one reference of BLOCK-SEATS or UNBLOCK-SEATS (R15, R16). -/
inductive SeatResult
  | noSeat | blocked | marked | sold | already | freed | unmarked | notBlocked
  deriving DecidableEq, Repr

/-- A seat's owner as QUERY-SEATS reports it (R20). -/
inductive SeatOwner
  | absent
  | hold (number : Nat) (owner : Option Owner)
  | sale (number : Nat)
  deriving DecidableEq, Repr

/-- A seat's true state without its owner (Table 1-4). -/
inductive SeatStateName
  | free | pending | held | sold | issued | blocked
  deriving DecidableEq, Repr

/-- A seat entry of a QUERY-SEATS reply (R20). -/
structure SeatEntry where
  num : Nat
  runId : Nat
  runPos : Nat
  cls : Nat
  kind : SeatKind
  state : SeatStateName
  owner : SeatOwner
  gen : Nat
  mark : Bool
  deriving DecidableEq, Repr

/-- A seat as the requesting station sees it (R18). -/
inductive SeatView
  | free | mine | taken | blocked
  deriving DecidableEq, Repr

/-- A run of a QUERY-MAP reply (R18). -/
structure MapRun where
  row : Nat
  first : Nat
  count : Nat
  runId : Nat
  cls : Nat
  seats : List (SeatKind × SeatView)
  deriving DecidableEq, Repr

/-- A voucher as QUERY-SALE reports it (R119). -/
structure VoucherView where
  serial : Nat
  value : Nat
  state : VoucherStateName
  gen : Nat
  deriving DecidableEq, Repr

/-- An item as QUERY-SNACKS reports it (R168). -/
structure ItemView where
  code : Nat
  item : Item
  available : Nat
  deriving DecidableEq, Repr

/-- Whether a basket's summary is present, stale or absent (R46). -/
inductive SummaryMark
  | present | stale | absent
  deriving DecidableEq, Repr

/-- The content of a STATUS reply (R187). -/
structure StatusReport where
  role : Role
  basket : BasketState
  holdCount : Nat
  seatLineCount : Nat
  snackUnits : Nat
  summary : SummaryMark
  total : Nat
  remaining : Nat
  overdue : Bool
  pay : PayState
  inProgress : Option ReqKind
  lane : LaneState
  orders : Nat
  uncertain : Nat
  checkErrors : Nat
  deriving DecidableEq, Repr

/-- The content of a SITE-STATUS reply (R188). -/
structure SiteReport where
  poolFree : Nat
  holdsFree : Nat
  salesFree : Nat
  journalFree : Nat
  vouchersFree : Nat
  salesReserved : Nat
  journalReserved : Nat
  lines : Vector (LineState × Nat) 25
  roles : Vector Role 8
  timeBase : Time
  deriving DecidableEq, Repr

/-- The result codes of replies. -/
inductive Code
  | ok | already | badField | notInRole | busy | slotInUse | storeFull | notLoading | duplicateRow | runLimit
  | countMismatch | notFound | notOpen | closed | paying | noSeat | otherScreening | limit | blocked | mine | taken
  | holdFull | added | closing | noHold | companion | gap | notMine | noCategory | wrongKind | soldOut | tableFull | empty
  | gathering | noTariff | notPriced | zeroTotal | attempts | lineDown | salesFull | journalFull | laneFull | started
  | cancelled | wrongTerminal | terminalBusy | noPayment | aborting | tooLate | reset | notIssued | void | locked | badCode
  | notLocked | refunded | redeemed | alreadyCollected | notSuspended | notClear
  deriving DecidableEq, Repr

/-- A result field of a reply, under its name. -/
inductive Val
  | field (f : FieldName)
  | place (n : Nat)
  | slotState (p : SlotState)
  | screeningCode (c : BitVec 32)
  | poolFree (n : Nat)
  | runIds (ids : List Nat)
  | declaredCount (n : Nat)
  | loadedCount (n : Nat)
  | runCount (n : Nat)
  | holdsFound (n : Nat)
  | capturesFound (n : Nat)
  | ordersFound (n : Nat)
  | salesFreed (n : Nat)
  | vouchersFreed (n : Nat)
  | seatResults (rs : List SeatResult)
  | seatEntries (es : List SeatEntry)
  | nextSeat (n : Nat)
  | auditorium (n : Nat)
  | startTime (t : Option Nat)
  | gapRule (on : Bool)
  | mapRuns (rs : List MapRun)
  | nextRow (n : Nat)
  | role (r : Role)
  | inProgress (k : ReqKind)
  | holdNumber (n : Nat)
  | position (n : Nat)
  | windowRemaining (ms : Nat)
  | slotNumber (n : Nat)
  | seat (ref : SeatRef)
  | seatsReleased (n : Nat)
  | unitsReturned (n : Nat)
  | label (l : Chars 12)
  | snackUnits (n : Nat)
  | available (n : Nat)
  | quantity (n : Nat)
  | summary (m : Summary)
  | payState (p : PayState)
  | madeStale (b : Bool)
  | chainLength (n : Nat)
  | saleRef (r : SaleRef)
  | amount (n : Nat)
  | timeLimit (seconds : Nat)
  | echo (a : Chars 4)
  | selectStatus (x : SelectStatus)
  | saleNumber (n : Nat)
  | serials (l : List Nat)
  | seatCount (n : Nat)
  | saleRecord (x : Sale)
  | saleVouchers (l : List VoucherView)
  | saleSeats (l : List (Option (SeatStateName × Nat)))
  | refundAmount (n : Nat)
  | voided (n : Nat)
  | leftRedeemed (n : Nat)
  | recordsHeld (n : Nat)
  | reserved (n : Nat)
  | records (l : List JournalRec)
  | removed (n : Nat)
  | tariffId (n : Nat)
  | itemsChanged (n : Nat)
  | allowance (n : Nat)
  | issued (n : Nat)
  | clamped (b : Bool)
  | items (l : List ItemView)
  | tableFree (n : Nat)
  | serial (n : Nat)
  | itemCode (n : Nat)
  | itemName (n : Option (Chars 16))
  | till (st : Station)
  | time (t : Time)
  | wrongCount (n : Nat)
  | nowLocked
  | voucherState (v : VoucherState)
  | voucherStateName (v : VoucherStateName)
  | generation (n : Nat)
  | stationNumber (st : Station)
  | tickets (n : Nat)
  | stubs (n : Nat)
  | requeued (n : Nat)
  | dropped (n : Nat)
  | busyCondition (c : BusyCondition)
  | limits (l : Limits)
  | windowClamped (b : Bool)
  | holdTimeClamped (b : Bool)
  | payTimeClamped (b : Bool)
  | status (r : StatusReport)
  | siteStatus (r : SiteReport)
  deriving DecidableEq, Repr

/-- The result of a close (R28, R32, R33): passed with the seat list, or failed with the seat reported. -/
inductive CloseResult
  | ok (seats : List SeatPos)
  | companion (seat : SeatPos)
  | gap (seat : SeatPos)
  deriving DecidableEq, Repr

/-- The cause of a BASKET-LAPSED notice (Table 3-4). -/
inductive LapseCause
  | lapsed | lapsedInPayment
  deriving DecidableEq, Repr

/-- The outcome a PAY-OUTCOME notice carries (R93 to R106). -/
inductive PayOutcome
  | approved (sale : Nat) (tail : Fin 10000)
  | declined (reason : Byte)
  | cancelled
  | error
  | timedOut
  | lineLost
  deriving DecidableEq, Repr

/-- The reason of a PRINT-LIMIT notice (R158). -/
inductive LimitReason
  | suppressed | generation | redeemed
  deriving DecidableEq, Repr

/-- A record that waits for transmission on a line.  Replies and notices go out on links (R184), the terminal records of
Table 5-1 on terminal lines and the printer records of Table 7-1 on printer lines. -/
inductive OutRec
  | reply (tag : Tag) (code : Code) (vals : List Val)
  | reject (tag : Tag) (reason : RejectReason) (kind : Byte)
  | holdClosed (hold slot : Nat) (result : CloseResult)
  | basketLapsed (cause : LapseCause) (seats units : Nat)
  | priceStale (kind : LoadKind)
  | payProgress (ref : SaleRef) (stage : PayStage)
  | payOutcome (ref : SaleRef) (outcome : PayOutcome)
  | printDone (sale : Nat) (state : SaleStateName) (left : Option (Nat × Nat))
  | printFault (kind : FaultKind) (uncertain queued : Nat)
  | holdExpired (hold : Nat) (ref : Option (Chars 8)) (slot seats : Nat)
  | lowStock (item : Nat) (name : Chars 16) (allowance issued reserved available : Nat)
  | journalHigh (held reserved : Nat)
  | printLimit (sale : Nat) (station : Station) (reason : LimitReason) (items : List OrderItem)
  | voucherLocked (serial item sale : Nat) (till : Station)
  | lineState (line : Line) (state : LineState) (errors : Nat)
  | select (addr : Chars 4)
  | authorise (amount : Nat) (ref : SaleRef)
  | abort
  | capture (code : Option (Chars 6))
  | reverse (code : Option (Chars 6))
  | lines (burst index : Nat) (dots : List DotLine)
  | cut
  deriving DecidableEq, Repr

/-- The record of one line at the link unit (R179 to R184): its state, the running 100 ms watch in milliseconds, the
check-error count, the receiver, the train in progress, and the records waiting for transmission, first to leave first. -/
structure LineRec where
  state : LineState
  watch : Option Nat
  errors : Nat
  receiver : Receiver
  train : Option Train
  out : List OutRec
  deriving DecidableEq, Repr

end Sys2Proof.Machine
end

