-- ==== Sys2Proof/Config.lean ====
section
/-! DEFINITION. The sizes, durations and bounds the spec fixes, and the free values: constants without a body, for what the
spec leaves open. -/

namespace Sys2Proof.Config

open Sys2Proof.Machine

/-- Seat records in the pool (R2). -/
def poolSize : Nat := 8192
/-- Hold records (2.1). -/
def holdRecords : Nat := 64
/-- Holds of one station, counting every phase (R23). -/
def stationHolds : Nat := 4
/-- Seats in all the holds of one station (R23). -/
def stationSeats : Nat := 10
/-- Holds of the site server (R23). -/
def siteHolds : Nat := 32
/-- Runs of a screening (Table 1-1). -/
def runLimit : Nat := 160
/-- Seats of a QUERY-MAP reply (R19). -/
def mapSeats : Nat := 240
/-- Seats of a QUERY-SEATS reply (R20). -/
def querySeats : Nat := 16
/-- Sale records (R109). -/
def saleRecords : Nat := 2048
/-- Journal records (R121). -/
def journalRecords : Nat := 512
/-- The figure at which JOURNAL-HIGH is sent (R125). -/
def journalHigh : Nat := 448
/-- Records of a JOURNAL-READ reply (R123). -/
def journalRead : Nat := 8
/-- Voucher records (R169). -/
def voucherRecords : Nat := 2048
/-- Orders of a lane (R129). -/
def laneOrders : Nat := 32
/-- Lines of a printer's buffer (R128). -/
def bufferLines : Nat := 96
/-- The level at or below which a lane is urgent (R133). -/
def urgentLevel : Nat := 24
/-- Lines of the largest burst (R134). -/
def burstLines : Nat := 32
/-- Dot lines of a LINES frame (R127). -/
def frameLines : Nat := 3
/-- Starts of one item (R12, R153). -/
def maxGeneration : Nat := 3
/-- Unsuccessful attempts of a basket (R105). -/
def maxAttempts : Nat := 3
/-- Wrong codes that lock a voucher (R175). -/
def maxWrongCodes : Nat := 3
/-- Snack units, snack lines and units per line of a basket (R51). -/
def basketUnits : Nat := 12
def basketLines : Nat := 6
def lineUnits : Nat := 9
/-- The highest seat fare in cents (R73). -/
def fareCeiling : Nat := 20000
/-- The highest sale number, payment count, voucher serial, and sequence number and tariff identity. -/
def maxSaleNumber : Nat := 65535
def maxPayCount : Nat := 65535
def maxSerial : Nat := 999999
def maxSequence : Nat := 4294967295
/-- The highest check-error count (R180). -/
def maxErrors : Nat := 65535

/-- Milliseconds of the step deadline in SELECTING and in the other states (R86). -/
def selectStep : Nat := 2000
def payStep : Nat := 10000
/-- Milliseconds of the burst, cut and settling deadlines (Table 10-7). -/
def burstDeadline : Nat := 500
def cutDeadline : Nat := 5000
def settlingDeadline : Nat := 5000
/-- Milliseconds of break that lose a line (R179), and of silence that discard a frame or a train (R180, R181). -/
def breakLoss : Nat := 100
def frameGap : Nat := 10
/-- Body bytes of a full frame of a train (R181). -/
def fullBody : Nat := 250
/-- The marker that starts a frame (Table 10-2). -/
def marker : Byte := 0xA5#8
/-- The least and the greatest length of a frame (Table 10-2). -/
def minLength : Nat := 2
def maxLength : Nat := 252

/-- FREE VALUE: the 576 dots of a dot line.  The spec says what an item carries, not how it is drawn (log 5). -/
opaque dots : DotLine → BitVec 576

/-- FREE VALUE: the rank by which deadlines reached in the same millisecond are taken, at each tick anew (log 3).  The spec
gives them no order. -/
opaque dueRank : Nat → Instr → Nat

/-- FREE VALUE: the rank by which bytes that arrive in the same millisecond on different lines are taken, at each byte anew
(log 28).  The spec gives records of different links no order (R182). -/
opaque wireRank : Nat → Line → Nat

/-- FREE VALUES: the kind of record that a kind byte names on a line, if it names one the controller takes; the body length
that the fields of a kind require, which may hang on counts that the body holds; and the fields that a body of that length
spells (log 29).  The spec numbers no kind and lays out no field.  What it does say of lengths and fields stands in front of these:
`requiredLength` and `fieldsRead`. -/
opaque kindNamed : Line → Byte → Option RecKind
opaque fieldsLength : RecKind → List Byte → Nat
opaque fieldsOf : RecKind → List Byte → Fields

/-- FREE VALUES: the kind of a record the controller sends, and its body bytes where the spec does not fix them (`sentBody`,
log 29). -/
opaque recordKind : OutRec → Byte
opaque recordBody : OutRec → List Byte

/-- FREE VALUE: the category label of a sale's seat line when the tariff the line was priced under is no longer in force at
the commit (log 6).  The spec does not say which label the sale record takes. -/
opaque saleLabel : Nat → Chars 12

end Sys2Proof.Config
end

