-- ==== Sys2Proof/Machine/State.lean ====
section
/-! DEFINITION. The state of the controller, block by block, the queue of commands that wait, the reset state, and the two
types of reasons a step could stop with. -/

namespace Sys2Proof.Machine

/-- Faults.  The spec gives the block none: every record is answered, taken or discarded, and every event has its effect or
none.  The type is closed and has no constructor, so no step faults (safe). -/
inductive Fault
  deriving DecidableEq, Repr

/-- Refusals. -/
inductive Refusal
  /-- Raised by an arm of exec for a command that has no meaning yet; no arm does so (safe: a run stops). -/
  | notModelled (mnemonic : String)
  deriving DecidableEq, Repr

/-- The state of the controller.  Each field is a record of the block named beside it. -/
structure State where
  /-- seat store: the slots that are not EMPTY, by slot number 1 to 32 (R1) -/
  screenings : Tbl Screening
  /-- hold table: the records that are not free, by hold number 0 to 63 (R22) -/
  holds : Tbl Hold
  /-- basket unit (R46) -/
  baskets : Vector Basket 8
  /-- tariff calculator: the tariff in force and the tariff identity (R65) -/
  tariff : Option Tariff
  tariffId : Nat
  /-- payment sequencer (R84) -/
  pays : Vector PayContext 8
  /-- sale table: the records by sale number, the reservation count, the next-sale-number value (R109, R110) -/
  sales : Tbl Sale
  salesReserved : Nat
  nextSale : Nat
  /-- journal: the records oldest first, the reservation count, the next-sequence-number value, JOURNAL-HIGH armed (R121) -/
  journal : List JournalRec
  journalReserved : Nat
  nextSeq : Nat
  journalArmed : Bool
  /-- print channel: the lane control words and the render mover (R129, R134) -/
  lanes : Vector Lane 8
  mover : Mover
  /-- voucher table: the items of codes 1 to 24, the voucher records by serial, the next-serial value, the day seed
  (R163, R169, R170, R172) -/
  items : Vector Item 24
  vouchers : Tbl Voucher
  nextSerial : Nat
  seed : Nat
  /-- link unit: station configuration, limits, requests in progress, lines, time base (R185, R186, R183, R179, R189) -/
  stations : Vector StationConfig 8
  limits : Limits
  requests : Vector (Option Request) 8
  lines : Vector LineRec 25
  timeBase : Time
  /-- the pins of the lines: the bytes to come on each receive input (the model's own, log 28), and the frames in which the
  last record left on each transmit output (R184) -/
  wires : Vector (List WireByte) 25
  sent : Vector (List (List Byte)) 25
  /-- the model's own: how many free values have been drawn so far -/
  draws : Nat
  /-- the commands that wait, first in, first out -/
  pending : List Instr
  deriving DecidableEq, Repr

/-- An EMPTY basket (R46).  Its start time and opening hold time have no meaning; they stand at 0 (log 2). -/
def Basket.vacant : Basket :=
  { holds := [], seatLines := [], snacks := [], summary := .none, stale := false, payLoad := .none, lapse := .none,
    start := 0, openHold := 0, overdue := false, attempts := 0 }

/-- A lane after power-on (R149). -/
def Lane.fresh : Lane :=
  { suspended := .none, queue := [], reservedRoom := 0, linesSent := 0, residual := 0, content := .none, lastLevel := 0,
    clearFlag := false, cut := .none, settling := .none }

/-- A snack item after power-on (R163). -/
def Item.unnamed : Item :=
  { name := Vector.replicate 16 0x20#8, price := 0, allowance := 0, issued := 0, reserved := 0, lowMark := 0, armed := true }

/-- A station after power-on (R185). -/
def StationConfig.initial : StationConfig :=
  { role := .off, addr := Vector.replicate 4 0x20#8, printer := false }

/-- The limits after power-on and after RESET (Table 10-6). -/
def Limits.initial : Limits := { window := 600, holdTime := 300, payTime := 120 }

/-- A line after power-on: UP with its 100 ms watch started, its receiver hunting (R191). -/
def LineRec.initial : LineRec :=
  { state := .up, watch := some 0, errors := 0, receiver := .hunting, train := .none, out := [] }

/-- The machine after power-on (R21, R45, R64, R65, R84, R126, R149, R163, R178, R191). -/
def State.reset : State :=
  { screenings := [], holds := [], baskets := Vector.replicate 8 Basket.vacant,
    tariff := none, tariffId := 0,
    pays := Vector.replicate 8 { count := 0, current := none },
    sales := [], salesReserved := 0, nextSale := 1,
    journal := [], journalReserved := 0, nextSeq := 1, journalArmed := true,
    lanes := Vector.replicate 8 Lane.fresh, mover := { burst := none, last := 7 },
    items := Vector.replicate 24 Item.unnamed, vouchers := [], nextSerial := 1, seed := 0,
    stations := Vector.replicate 8 StationConfig.initial, limits := Limits.initial,
    requests := Vector.replicate 8 none, lines := Vector.replicate 25 LineRec.initial,
    timeBase := 0, wires := Vector.replicate 25 [], sent := Vector.replicate 25 [], draws := 0, pending := [] }

end Sys2Proof.Machine
end

