-- ==== Sys2Proof/Machine/Ops.lean ====
section
/-! DEFINITION. The named operations over the state that every family uses: keyed tables, one accessor and one update per
register group, deadlines on the time base, records put out on the lines, and the frame check. -/

namespace Sys2Proof

/-! ### Keyed tables -/

/-- The record of number `n`, if the table holds one. -/
def Tbl.find {α : Type} : Tbl α → Nat → Option α
  | [], _ => none
  | (k, v) :: t, n => if k = n then some v else Tbl.find t n

/-- The table with the record of number `n` set to `v`. -/
def Tbl.put {α : Type} : Tbl α → Nat → α → Tbl α
  | [], n, v => [(n, v)]
  | (k, w) :: t, n, v =>
    if n < k then (n, v) :: (k, w) :: t
    else if n = k then (n, v) :: t
    else (k, w) :: Tbl.put t n v

/-- The table without the record of number `n`. -/
def Tbl.del {α : Type} (t : Tbl α) (n : Nat) : Tbl α := t.filter (fun e => e.1 ≠ n)

/-- The canonical form: numbers strictly rising. -/
def Tbl.wf {α : Type} (t : Tbl α) : Bool := decide (t.Pairwise (fun a b => a.1 < b.1))

/-- The lowest number below `bound` that no record carries (R22). -/
def Tbl.lowestFree {α : Type} (t : Tbl α) (bound : Nat) : Option Nat :=
  (List.range bound).find? (fun n => (t.find n).isNone)

/-- The number after `n`, going on at 1 after `hi` (R85, R110, R122, R170). -/
def succWrap (hi n : Nat) : Nat := if n < hi then n + 1 else 1

/-- The first number from `n` upward, going on at 1 after `hi`, that is not used (R110, R170).  `fuel` bounds the numbers
examined. -/
def firstUnused (used : Nat → Bool) (hi : Nat) : Nat → Nat → Nat
  | 0, n => n
  | fuel + 1, n => if used n then firstUnused used hi fuel (succWrap hi n) else n

/-- A station number as a request carries it (Table 0-4). -/
def stationOf (n : Nat) : Option Station := if h : n < 8 then some ⟨n, h⟩ else none

/-- The place of a line among the twenty-five. -/
def Line.idx : Line → Fin 25
  | .site => 0
  | .station st => ⟨1 + st.val, by omega⟩
  | .terminal st => ⟨9 + st.val, by omega⟩
  | .printer st => ⟨17 + st.val, by omega⟩

/-- The twenty-five lines in their places. -/
def Line.all : List Line :=
  Line.site :: ((List.finRange 8).map Line.station ++ (List.finRange 8).map Line.terminal ++ (List.finRange 8).map Line.printer)

/-- The line of a link. -/
def Link.line : Link → Line
  | .site => .site
  | .station st => .station st

namespace Machine

/-! ### Registers -/

/-- The basket of a station. -/
def State.basket (s : State) (st : Station) : Basket := s.baskets[st]
/-- The payment context of a station. -/
def State.pay (s : State) (st : Station) : PayContext := s.pays[st]
/-- The payment in flight at a station, if its context is not IDLE. -/
def State.payment (s : State) (st : Station) : Option Payment := (s.pay st).current
/-- The lane of a station. -/
def State.lane (s : State) (st : Station) : Lane := s.lanes[st]
/-- The configuration of a station. -/
def State.station (s : State) (st : Station) : StationConfig := s.stations[st]
/-- The request in progress on a station link. -/
def State.request (s : State) (st : Station) : Option Request := s.requests[st]
/-- The record of a line. -/
def State.line (s : State) (l : Line) : LineRec := s.lines[l.idx]
/-- The bytes to come on the receive input of a line. -/
def State.wire (s : State) (l : Line) : List WireByte := s.wires[l.idx]
/-- The frames in which the last record left on the transmit output of a line. -/
def State.sentOn (s : State) (l : Line) : List (List Byte) := s.sent[l.idx]
/-- The screening in a slot, none while the slot is EMPTY. -/
def State.screening (s : State) (slot : Nat) : Option Screening := s.screenings.find slot
/-- The hold of a number, none while the record is free. -/
def State.hold (s : State) (n : Nat) : Option Hold := s.holds.find n
/-- The sale record of a number. -/
def State.sale (s : State) (n : Nat) : Option Sale := s.sales.find n
/-- The voucher record of a serial. -/
def State.voucher (s : State) (n : Nat) : Option Voucher := s.vouchers.find n
/-- The item record of a code, 1 to 24. -/
def State.item (s : State) (code : Nat) : Option Item :=
  if h : 1 ≤ code ∧ code ≤ 24 then some (s.items[code - 1]'(by omega)) else none

def setBasket (st : Station) (b : Basket) (s : State) : State := { s with baskets := s.baskets.set st b }
def setPay (st : Station) (p : PayContext) (s : State) : State := { s with pays := s.pays.set st p }
/-- The payment in flight of a station replaced; its payment count stays. -/
def setPayment (st : Station) (p : Option Payment) (s : State) : State :=
  setPay st { s.pay st with current := p } s
def setLane (st : Station) (l : Lane) (s : State) : State := { s with lanes := s.lanes.set st l }
def setStation (st : Station) (c : StationConfig) (s : State) : State := { s with stations := s.stations.set st c }
def setRequest (st : Station) (r : Option Request) (s : State) : State := { s with requests := s.requests.set st r }
def setLine (l : Line) (r : LineRec) (s : State) : State := { s with lines := s.lines.set l.idx r }
def setWire (l : Line) (w : List WireByte) (s : State) : State := { s with wires := s.wires.set l.idx w }
def setSent (l : Line) (fs : List (List Byte)) (s : State) : State := { s with sent := s.sent.set l.idx fs }
def setMover (m : Mover) (s : State) : State := { s with mover := m }
def setLimits (l : Limits) (s : State) : State := { s with limits := l }
def putScreening (slot : Nat) (x : Screening) (s : State) : State := { s with screenings := s.screenings.put slot x }
def delScreening (slot : Nat) (s : State) : State := { s with screenings := s.screenings.del slot }
def putHold (n : Nat) (x : Hold) (s : State) : State := { s with holds := s.holds.put n x }
def delHold (n : Nat) (s : State) : State := { s with holds := s.holds.del n }
def putSale (n : Nat) (x : Sale) (s : State) : State := { s with sales := s.sales.put n x }
def putVoucher (n : Nat) (x : Voucher) (s : State) : State := { s with vouchers := s.vouchers.put n x }
def setItem (code : Nat) (x : Item) (s : State) : State :=
  if h : 1 ≤ code ∧ code ≤ 24 then { s with items := s.items.set (code - 1) x (by omega) } else s

/-! ### Updates of one record -/

def modifyBasket (st : Station) (f : Basket → Basket) (s : State) : State := setBasket st (f (s.basket st)) s
def modifyLane (st : Station) (f : Lane → Lane) (s : State) : State := setLane st (f (s.lane st)) s
def modifyLine (l : Line) (f : LineRec → LineRec) (s : State) : State := setLine l (f (s.line l)) s
def modifyPayment (st : Station) (f : Payment → Payment) (s : State) : State :=
  setPayment st ((s.payment st).map f) s
def modifySale (n : Nat) (f : Sale → Sale) (s : State) : State :=
  match s.sale n with
  | some x => putSale n (f x) s
  | none => s
def modifyVoucher (n : Nat) (f : Voucher → Voucher) (s : State) : State :=
  match s.voucher n with
  | some x => putVoucher n (f x) s
  | none => s
def modifyItem (code : Nat) (f : Item → Item) (s : State) : State :=
  match s.item code with
  | some x => setItem code (f x) s
  | none => s

/-! ### Seats -/

/-- The row and seat number of a seat record. -/
def Seat.pos (x : Seat) : SeatPos := ⟨x.row, x.num⟩
/-- The row and seat number of a seat reference. -/
def refPos (r : SeatRef) : SeatPos := ⟨r.row, r.num⟩

/-- The seat at a row and number of a screening (R11). -/
def Screening.seat (sc : Screening) (p : SeatPos) : Option Seat := sc.seats.find? (fun x => x.pos = p)

/-- The seat a reference names, if it names one (R11). -/
def State.seat (s : State) (slot : Nat) (p : SeatPos) : Option Seat :=
  (s.screening slot).bind (fun sc => sc.seat p)

/-- The seats of a slot at the given places, changed in one step. -/
def mapSeats (slot : Nat) (ps : List SeatPos) (f : Seat → Seat) (s : State) : State :=
  match s.screening slot with
  | some sc => putScreening slot { sc with seats := sc.seats.map (fun x => if x.pos ∈ ps then f x else x) } s
  | none => s

/-- A hold lets a seat go: BLOCKED under the block-on-release mark, FREE without it (R13). -/
def Seat.release (x : Seat) : Seat :=
  match x.state with
  | .pending _ | .held _ => { x with state := if x.mark then .blocked else .free, mark := false }
  | .free | .sold _ | .issued _ | .blocked => x

/-- A HELD seat becomes SOLD at a commit (R14). -/
def Seat.sell (sale : Nat) (x : Seat) : Seat := { x with state := .sold sale, mark := false }

/-- A seat returned to FREE by a REFUND (R14, R117). -/
def Seat.refund (x : Seat) : Seat := { x with state := .free, mark := false, gen := 0 }

/-! ### Time -/

/-- A deadline set now (R189). -/
def deadlineIn (s : State) (ms : Nat) : Deadline := ⟨s.timeBase, ms⟩
/-- Milliseconds from a time base value to now, modulo 4,294,967,296 (R189). -/
def elapsedSince (s : State) (t : Time) : Nat := (s.timeBase - t).toNat
/-- The deadline is reached: the time elapsed equals its duration (R189). -/
def Deadline.reached (s : State) (d : Deadline) : Bool := decide (elapsedSince s d.setAt = d.dur)
/-- The time remaining to a deadline, 0 when none runs (R187). -/
def remaining (s : State) : Option Deadline → Nat
  | some d => d.dur - elapsedSince s d.setAt
  | none => 0
/-- A command that says a deadline is reached is taken when that deadline runs (log 4). -/
def expires (d : Option Deadline) : Bool := d.isSome

/-! ### Records put out -/

/-- Is the line LOST? -/
def State.isLost (s : State) (l : Line) : Bool := decide ((s.line l).state = .lost)

/-- A record produced for a line: it waits for transmission, or is dropped when the line is LOST (R184, R82, R127). -/
def emit (l : Line) (r : OutRec) (s : State) : State :=
  if s.isLost l then s else modifyLine l (fun x => { x with out := x.out ++ [r] }) s

/-- A reply on the site link. -/
def replySite (tag : Tag) (c : Code) (vs : List Val) (s : State) : State := emit .site (.reply tag c vs) s
/-- A reply on a station link. -/
def replyStation (st : Station) (tag : Tag) (c : Code) (vs : List Val) (s : State) : State :=
  emit (.station st) (.reply tag c vs) s

/-! ### Requests of a station link (R182) -/

/-- Table 10-4: the station requests a role accepts. -/
def roleAccepts : Role → ReqKind → Bool
  | _, .status => true
  | .off, _ => false
  | .kiosk, k => decide (k ≠ .redeem ∧ k ≠ .queryVoucher)
  | .collect, k => decide (k = .collect ∨ k = .resumePrint)
  | .till, k => decide (k = .redeem ∨ k = .queryVoucher)

/-- Checks 3 to 5 of R182: BUSY while a request is in progress, NOT_IN_ROLE outside the role, else the owning block's rule. -/
def stationRequest (st : Station) (tag : Tag) (k : ReqKind) (act : State → State) (s : State) : State :=
  match s.request st with
  | some r =>
    if k = .status ∨ k = .cancelPay then
      if roleAccepts (s.station st).role k then act s else replyStation st tag .notInRole [.role (s.station st).role] s
    else replyStation st tag .busy [.inProgress r.kind] s
  | none =>
    if roleAccepts (s.station st).role k then act s else replyStation st tag .notInRole [.role (s.station st).role] s

/-! ### The frame check (R180) -/

/-- One bit of the check: shift left, and add the polynomial 0x1021 when the top bit leaves. -/
def crcBit (c : BitVec 16) : BitVec 16 := if c.msb then (c <<< 1) ^^^ 0x1021#16 else c <<< 1
/-- One byte of the check, most significant bit first. -/
def crcByte (c : BitVec 16) (b : Byte) : BitVec 16 :=
  crcBit (crcBit (crcBit (crcBit (crcBit (crcBit (crcBit (crcBit (c ^^^ (b.zeroExtend 16 <<< 8)))))))))
/-- The CRC-16 of a run of bytes, initial value 0xFFFF, no final inversion. -/
def crc16 (bs : List Byte) : BitVec 16 := bs.foldl crcByte 0xFFFF#16

/-- Is a frame with this cause in error (R180)? -/
def frameInError : FrameFault → Bool
  | .badLength len => decide (len.toNat < 2) || decide (252 < len.toNat)
  | .badCheck covered received => decide (crc16 covered ≠ received)
  | .breakBegan => true

end Machine

end Sys2Proof
end

