-- ==== Sys2Proof/Machine/Operands.lean ====
section
/-! DEFINITION. Ranges of the fields a request carries (Table 0-4 and the rules that own the requests), and the first field at
fault in the order a record carries its fields. -/

namespace Sys2Proof.Machine

/-- Is `n` within `lo` to `hi`? -/
def within (lo hi n : Nat) : Bool := decide (lo ≤ n ∧ n ≤ hi)

def slotOk (n : Nat) : Bool := within 1 32 n
def rowOk (n : Nat) : Bool := within 1 40 n
def seatNumOk (n : Nat) : Bool := within 1 80 n
def holdOk (n : Nat) : Bool := decide (n < 64)
def categoryOk (n : Nat) : Bool := decide (n < 8)
def itemOk (n : Nat) : Bool := within 1 24 n
def quantityOk (n : Nat) : Bool := within 1 9 n
def serialOk (n : Nat) : Bool := within 1 999999 n
def codeOk (n : Nat) : Bool := decide (n ≤ 9972)

/-- A seat reference in range: slot 1 to 32, row 1 to 40, seat number 1 to 80 (R24, R50). -/
def seatRefOk (r : SeatRef) : Bool := slotOk r.slot && rowOk r.row && seatNumOk r.num

/-- The first field whose check fails, in record order. -/
def firstFault : List (Bool × FieldName) → Option FieldName
  | [] => none
  | (ok, f) :: t => if ok then firstFault t else some f

/-- The place (from 1) and field of the first entry at fault in a list, judging each entry with those before it. -/
def firstEntryFault {α : Type} (judge : List α → α → Option FieldName) : List α → List α → Option (Nat × FieldName)
  | _, [] => none
  | before, x :: rest =>
    match judge before x with
    | some f => some (before.length + 1, f)
    | none => firstEntryFault judge (before ++ [x]) rest

/-- Does a list hold two equal members? -/
def hasRepeat {α : Type} [DecidableEq α] : List α → Bool
  | [] => false
  | x :: t => decide (x ∈ t) || hasRepeat t

/-- The fields of BEGIN-SCREENING in record order (R3, Table 1-1).  Every screening code and gap rule is in range. -/
def beginFault (f : BeginFields) : Option FieldName :=
  firstFault ([(slotOk f.slot, .slot), (within 1 16 f.auditorium, .auditorium), (within 0 1439 f.start, .startTime),
      (within 500 1500 f.band, .bandFactor)] ++
    f.fares.toList.zipIdx.map (fun e => (within 0 20000 e.1, .classFare e.2)) ++
    [(within 1 800 f.declared, .declaredCount)])

/-- A run of SEAT-ROW in range (R4, first check).  A kind that is none of the four kinds fails that check too, before the slot's state
and the row are looked at; the table of R4 lists no check for it (DESIGN CHOICE, log 33). -/
def runOk (r : RunSpec) : Bool :=
  decide (1 ≤ r.count) && decide (1 ≤ r.first) && decide (r.first + r.count - 1 ≤ 80) && decide (r.cls < 8) &&
    decide (r.kinds.length = r.count) && r.kinds.all (fun k => k.isSome)

/-- The seat numbers of a run. -/
def runNumbers (r : RunSpec) : List Nat := (List.range r.count).map (fun i => r.first + i)

/-- A seat of SITE-HOLD at fault, given those before it: its row, its seat number, or its being given before (R40).  Of two
equal seats the later is at fault, and its repetition is judged after its row and its seat number (DESIGN CHOICE, log 23). -/
def siteSeatFault (before : List SeatPos) (p : SeatPos) : Option FieldName :=
  firstFault [(rowOk p.row, .row), (seatNumOk p.num, .seatNumber), (!decide (p ∈ before), .repeatedSeat)]

/-- The first field of SITE-HOLD at fault, in record order (Table 2-6, check 1), named by its kind alone (DESIGN CHOICE,
log 23). -/
def siteHoldFault (slot : Nat) (seats : List SeatPos) (seconds : Nat) : Option FieldName :=
  if slotOk slot then
    if within 1 10 seats.length then
      match firstEntryFault siteSeatFault [] seats with
      | some (_, f) => some f
      | none => if within 60 1800 seconds then none else some .duration
    else some .seatList
  else some .slot

/-- A snack line of SITE-SELL at fault, given those before it: its code, its quantity, or its item being given before (R113).
Of two lines of one item the later is at fault; its repetition is judged after its code and its quantity, so that a repeated
item with a quantity out of range is named quantity; the fault does not say which line it is in (DESIGN CHOICE, log 23). -/
def sellLineFault (before : List SnackLine) (l : SnackLine) : Option FieldName :=
  firstFault [(itemOk l.item, .itemCode), (quantityOk l.qty, .quantity), (!before.any (fun d => d.item = l.item), .repeatedItem)]

/-- The first field of SITE-SELL at fault, in record order (Table 6-2, check 1), named by its kind alone (DESIGN CHOICE,
log 23). -/
def siteSellFault (hold : Nat) (cats : List Nat) (snacks : List SnackLine) : Option FieldName :=
  if holdOk hold then
    if cats.all categoryOk then (firstEntryFault sellLineFault [] snacks).map (·.2)
    else some .category
  else some .holdNumber

/-- A category of LOAD-TARIFF at fault, given those before it (R66).  Of two equal category numbers the second is the field
at fault (DESIGN CHOICE, log 21). -/
def categoryFault (before : List Category) (c : Category) : Option FieldName :=
  firstFault [(categoryOk c.num && !before.any (fun d => d.num = c.num), .categoryNumber), (within 0 2000 c.factor, .factor)]

/-- The first field of LOAD-TARIFF at fault, with the place of a category (R66).  The count of categories is judged before
the fields of any category (DESIGN CHOICE, log 21). -/
def tariffFault (f : Tariff) : Option (Option Nat × FieldName) :=
  if within 1 8 f.cats.length then
    match firstEntryFault categoryFault [] f.cats with
    | some (place, g) => some (some place, g)
    | none =>
      (firstFault [(within 0 500 f.bookingFee, .bookingFee), (decide (f.step ∈ [1, 5, 10, 25, 50, 100]), .step),
        (within 0 500 f.combo, .comboDiscount), (within 0 3000 f.ticketTax, .ticketTax),
        (within 0 3000 f.snackTax, .snackTax)]).map (fun g => (none, g))
  else some (none, .categoryCount)

/-- An entry of LOAD-SNACKS at fault, given those before it (R164). -/
def snackFault (before : List SnackEntry) (e : SnackEntry) : Option FieldName :=
  firstFault [(itemOk e.item && !before.any (fun d => d.item = e.item), .itemCode), (within 0 5000 e.price, .unitPrice)]

/-- A terminal address of printable characters 0x20 to 0x7E (R185). -/
def printable (a : Chars 4) : Bool := a.toList.all (fun b => decide (0x20 ≤ b.toNat ∧ b.toNat ≤ 0x7E))

/-- A value clamped into a range (R186). -/
def clampTo (lo hi n : Nat) : Nat := if n < lo then lo else if hi < n then hi else n

end Sys2Proof.Machine
end

