-- ==== Sys2Proof/Machine/Flags.lean ====
section
/-! DEFINITION. States, marks and counts that the spec derives from other fields: slot, basket, payment and lane states, free
counts, the mover's request condition, and the two armed notices LOW-STOCK and JOURNAL-HIGH. -/

namespace Sys2Proof.Machine

/-! ### Seat store and hold table -/

/-- The state of a slot (R1). -/
def State.slotState (s : State) (slot : Nat) : SlotState :=
  match s.screening slot with
  | none => .empty
  | some sc => match sc.phase with
    | .loading => .loading
    | .opened => .opened
    | .stopped => .stopped

/-- The free count of the seat pool: 8192 less the declared counts of all slots that are not EMPTY (R2). -/
def State.poolFree (s : State) : Nat := Config.poolSize - (s.screenings.map (fun e => e.2.declared)).sum

/-- A seat's true state without its owner. -/
def SeatState.name : SeatState → SeatStateName
  | .free => .free
  | .pending _ => .pending
  | .held _ => .held
  | .sold _ => .sold
  | .issued _ => .issued
  | .blocked => .blocked

/-- The holds of an owner, by ascending hold number. -/
def State.holdsOf (s : State) (o : Owner) : Tbl Hold := s.holds.filter (fun e => e.2.owner = o)

/-- The GATHERING hold of a station, if it has one (R23). -/
def State.gathering (s : State) (st : Station) : Option (Nat × Hold) :=
  (s.holdsOf (.station st)).find? (fun e => e.2.phase = .gathering)

/-- The seats in a list of holds (R23). -/
def holdSeats (hs : Tbl Hold) : Nat := (hs.map (fun e => e.2.seats.length)).sum

/-- Free hold records (R188). -/
def State.holdsFree (s : State) : Nat := Config.holdRecords - s.holds.length

/-! ### Basket and payment -/

/-- The total of snack units of snack lines. -/
def unitsOf (l : List SnackLine) : Nat := (l.map (·.qty)).sum

/-- The state of a payment context (R84). -/
def State.payState (s : State) (st : Station) : PayState :=
  match s.payment st with
  | none => .idle
  | some p => match p.phase with
    | .selecting => .selecting
    | .authorising => .authorising
    | .aborting => .aborting
    | .capturing => .capturing
    | .reversing => .reversing

/-- Is the station's payment context IDLE? -/
def State.payIdle (s : State) (st : Station) : Bool := (s.payment st).isNone

/-- Does a basket hold neither a hold nor a snack line? -/
def Basket.hollow (b : Basket) : Bool := b.holds.isEmpty && b.snacks.isEmpty

/-- The state of a basket: PAYING from the acceptance of PAY to the commit or the return to IDLE, else by its contents
(R47). -/
def State.basketState (s : State) (st : Station) : BasketState :=
  match s.payState st with
  | .selecting | .authorising | .aborting | .reversing => .paying
  | .capturing => .empty
  | .idle => if (s.basket st).hollow then .empty else .opened

/-- The orders of a basket's print chain: seat lines, snack units and a receipt (R87). -/
def Basket.chainLength (b : Basket) : Nat := b.seatLines.length + unitsOf b.snacks + 1

/-- Whether the summary is present, stale or absent (R46). -/
def Basket.summaryMark (b : Basket) : SummaryMark :=
  match b.summary with
  | some _ => .present
  | none => if b.stale then .stale else .absent

/-! ### Sale table and journal -/

/-- Sale records free of records and reservations (R109). -/
def State.salesFree (s : State) : Nat := Config.saleRecords - s.sales.length - s.salesReserved

/-- Journal entries free of records and reservations (R121). -/
def State.journalFree (s : State) : Nat := Config.journalRecords - s.journal.length - s.journalReserved

/-- JOURNAL-HIGH judged on the records held plus the reservation count (R125): sent once on reaching 448 while armed, armed
again below 448. -/
def judgeJournal (s : State) : State :=
  if Config.journalHigh ≤ s.journal.length + s.journalReserved then
    if s.journalArmed then
      emit .site (.journalHigh s.journal.length s.journalReserved) { s with journalArmed := false }
    else s
  else { s with journalArmed := true }

/-! ### Voucher table -/

/-- The available figure of an item (9.1). -/
def Item.available (x : Item) : Nat := x.allowance - x.issued - x.reserved

/-- The reserved units of all items. -/
def State.reservedUnits (s : State) : Nat := (s.items.toList.map (·.reserved)).sum

/-- The free count of the voucher table (R166). -/
def State.vouchersFree (s : State) : Nat := Config.voucherRecords - s.vouchers.length - s.reservedUnits

/-- The low notice of an item (R167). -/
def judgeLow (code : Nat) (s : State) : State :=
  match s.item code with
  | none => s
  | some x =>
    if x.available ≤ x.lowMark then
      if x.armed then
        emit .site (.lowStock code x.name x.allowance x.issued x.reserved x.available) (setItem code { x with armed := false } s)
      else s
    else setItem code { x with armed := true } s

/-- A voucher's state without the redeeming till and time. -/
def VoucherState.name : VoucherState → VoucherStateName
  | .printPending => .printPending
  | .issued => .issued
  | .redeemed _ _ => .redeemed
  | .void => .void
  | .locked => .locked

/-! ### Print channel -/

def Order.isQueued (o : Order) : Bool := decide (o.status = .queued)
def Order.isStarted (o : Order) : Bool := decide (o.status = .started)
def Order.isAwaiting (o : Order) : Bool := decide (o.status = .awaitingCut)
def Order.isUncertain (o : Order) : Bool := decide (o.status = .uncertain)

/-- The current order of a lane: its STARTED order (R129). -/
def Lane.current (l : Lane) : Option Order := l.queue.find? Order.isStarted
/-- The awaiting-cut list, oldest first (R129). -/
def Lane.awaiting (l : Lane) : List Order := l.queue.filter Order.isAwaiting
/-- The uncertain count (R129). -/
def Lane.uncertain (l : Lane) : Nat := l.queue.countP Order.isUncertain
/-- The count of QUEUED orders. -/
def Lane.queued (l : Lane) : Nat := l.queue.countP Order.isQueued
/-- The room of a lane: 32 less its orders less its reserved room (R129). -/
def Lane.room (l : Lane) : Nat := Config.laneOrders - l.queue.length - l.reservedRoom
/-- The urgency of a lane (R133). -/
def Lane.urgent (l : Lane) : Bool := decide (l.lastLevel ≤ Config.urgentLevel)

/-- Is the render mover in BURST for the lane (R134)? -/
def State.bursting (s : State) (st : Station) : Bool :=
  match s.mover.burst with
  | some b => decide (b.lane = st)
  | none => false

/-- The lane state (R130). -/
def State.laneState (s : State) (st : Station) : LaneState :=
  if (s.lane st).suspended.isSome then .suspended
  else if s.bursting st then .running
  else if (s.lane st).queue.isEmpty then .idle
  else .waiting

/-- Does the lane request the render mover (R133)? -/
def State.requesting (s : State) (st : Station) : Bool :=
  let l := s.lane st
  decide (s.laneState st = .waiting ∨ s.laneState st = .running) &&
    ((l.current.isSome && decide (0 < l.residual)) || (decide (0 < l.queued) && decide (l.awaiting.length < 2))) &&
    decide (l.lastLevel < Config.bufferLines) && l.settling.isNone

/-- Does a role use the printer line (R185)? -/
def usesPrinter : Role → Bool
  | .kiosk => true
  | .collect => true
  | .off => false
  | .till => false

end Sys2Proof.Machine
end

