-- ==== Sys2Proof/Machine/Stock.lean ====
section
/-! DEFINITION. The voucher table's shared operations: stock counts, check codes, and the making of vouchers at a commit. -/

namespace Sys2Proof.Machine

/-- Units reserved by a basket: the reserved count rises and the low notice is judged (R52, R166). -/
def reserveUnits (code qty : Nat) (s : State) : State :=
  judgeLow code (modifyItem code (fun x => { x with reserved := x.reserved + qty }) s)

/-- Units leaving a basket: the reserved count falls and the low notice is judged (R53, R58, R166). -/
def returnUnits (code qty : Nat) (s : State) : State :=
  judgeLow code (modifyItem code (fun x => { x with reserved := x.reserved - qty }) s)

/-- The check code of a voucher (R171). -/
def checkCode (serial item gen seed : Nat) : Nat := (serial * 1009 + item * 101 + gen * 13 + seed) % 9973

/-- The serial the table gives next (R170). -/
def State.freshSerial (s : State) : Nat :=
  firstUnused (fun n => (s.voucher n).isSome) Config.maxSerial (s.vouchers.length + 1) s.nextSerial

/-- A voucher's unit enters its item's issued count: out of the reserved count at a station commit, judged for the low
notice at a SITE-SELL (R166, R167). -/
def issueUnit (code : Nat) (fromReserved : Bool) (s : State) : State :=
  if fromReserved then
    modifyItem code (fun x => { x with reserved := x.reserved - 1, issued := x.issued + 1 }) s
  else judgeLow code (modifyItem code (fun x => { x with issued := x.issued + 1 }) s)

/-- One voucher record made at a commit (R170). -/
def createVoucher (sale : Nat) (slot : Option Nat) (code value : Nat) (fromReserved : Bool) (s : State) : State :=
  let n := s.freshSerial
  let v : Voucher :=
    { item := code, slot := slot, sale := sale, value := value, gen := 0, code := checkCode n code 0 s.seed,
      state := .printPending, counted := true, wrong := 0 }
  issueUnit code fromReserved { putVoucher n v s with nextSerial := succWrap Config.maxSerial n }

/-- The vouchers of a sale, one per unit in unit order, and their serials (R170). -/
def createVouchers (sale : Nat) (slot : Option Nat) (fromReserved : Bool) : List (Nat × Nat) → State → State × List Nat
  | [], s => (s, [])
  | (code, value) :: rest, s =>
    let r := createVouchers sale slot fromReserved rest (createVoucher sale slot code value fromReserved s)
    (r.1, s.freshSerial :: r.2)

/-- A voucher of a refunded sale (R178): voided from PRINT_PENDING, ISSUED or LOCKED, lowering its item's issued count when it
carries the counted mark. -/
def voidVoucher (serial : Nat) (s : State) : State :=
  match s.voucher serial with
  | none => s
  | some v =>
    match v.state with
    | .redeemed _ _ | .void => s
    | .printPending | .issued | .locked =>
      let s' := putVoucher serial { v with state := .void, counted := false } s
      if v.counted then judgeLow v.item (modifyItem v.item (fun x => { x with issued := x.issued - 1 }) s') else s'

/-- Is a voucher of the serial one that a REFUND would void (R117)? -/
def State.voidable (s : State) (serial : Nat) : Bool :=
  match s.voucher serial with
  | some v => match v.state with
    | .printPending | .issued | .locked => true
    | .redeemed _ _ | .void => false
  | none => false

/-- Is the voucher of the serial REDEEMED? -/
def State.isRedeemed (s : State) (serial : Nat) : Bool :=
  match s.voucher serial with
  | some v => match v.state with
    | .redeemed _ _ => true
    | .printPending | .issued | .void | .locked => false
  | none => false

/-- The first lane, in ascending station number, in which an order of the given item and sale stands, in any print status
(R159, R176). -/
def State.laneWith (s : State) (p : Order → Bool) : Option Station :=
  (List.finRange 8).find? (fun st => (s.lane st).queue.any p)

/-- The start time of the screening in a slot, absent when there is none. -/
def State.startOf (s : State) (slot : Option Nat) : Option Nat :=
  (slot.bind s.screening).map (·.start)

/-! ### Requests of the voucher table -/

/-- QUERY-SNACKS (R168). -/
def querySnacks (tag : Tag) (first last : Nat) (s : State) : State :=
  if itemOk first && itemOk last && decide (first ≤ last) then
    let codes := (List.range (last + 1 - first)).map (fun i => first + i)
    let views := codes.filterMap (fun c => (s.item c).map (fun x => (⟨c, x, x.available⟩ : ItemView)))
    replySite tag .ok [.items views, .recordsHeld s.vouchers.length, .tableFree s.vouchersFree] s
  else replySite tag .badField [] s

def execQuerySnacks (tag : Tag) (first last : Nat) (s : State) : Host.Outcome State Fault Refusal :=
  .next (querySnacks tag first last s)

/-- SET-ALLOWANCE (R165): restart, clamp, low mark, low notice, reply. -/
def setAllowance (tag : Tag) (code allowance lowMark : Nat) (restart : Bool) (s : State) : State :=
  if itemOk code && decide (allowance ≤ 9999) && decide (lowMark ≤ 9999) then
    let s1 := if restart then
        { modifyItem code (fun x => { x with issued := 0 }) s with
          vouchers := s.vouchers.map (fun e => if e.2.item = code then (e.1, { e.2 with counted := false }) else e) }
      else s
    match s1.item code with
    | none => s
    | some x =>
      let applied := max allowance (x.issued + x.reserved)
      let x' := { x with allowance := applied, lowMark := lowMark }
      replySite tag .ok [.allowance applied, .issued x'.issued, .reserved x'.reserved, .available x'.available,
        .clamped (decide (allowance < x.issued + x.reserved))] (judgeLow code (setItem code x' s1))
  else replySite tag .badField [] s

def execSetAllowance (tag : Tag) (item allowance lowMark : Nat) (restart : Bool) (s : State) :
    Host.Outcome State Fault Refusal :=
  .next (setAllowance tag item allowance lowMark restart s)

/-- LOAD-SEED (R172). -/
def loadSeed (tag : Tag) (seed : Nat) (s : State) : State :=
  if 65535 < seed then replySite tag .badField [] s
  else if s.vouchers.length = 0 then replySite tag .ok [] { s with seed := seed }
  else replySite tag .busy [.recordsHeld s.vouchers.length] s

def execLoadSeed (tag : Tag) (seed : Nat) (s : State) : Host.Outcome State Fault Refusal := .next (loadSeed tag seed s)

/-- UNLOCK-VOUCHER (R176). -/
def unlockVoucher (tag : Tag) (serial : Nat) (s : State) : State :=
  if serialOk serial then
    match s.voucher serial with
    | none => replySite tag .notFound [] s
    | some v =>
      if v.state = .locked then
        match s.laneWith (fun o => o.item = .stub serial) with
        | some st => replySite tag .busy [.stationNumber st] s
        | none => replySite tag .ok [.generation v.gen] (putVoucher serial { v with state := .issued, wrong := 0 } s)
      else replySite tag .notLocked [.voucherStateName v.state.name] s
  else replySite tag .badField [] s

def execUnlockVoucher (tag : Tag) (serial : Nat) (s : State) : Host.Outcome State Fault Refusal :=
  .next (unlockVoucher tag serial s)

/-- QUERY-VOUCHER past the link unit's checks (R177). -/
def queryVoucher (st : Station) (tag : Tag) (serial : Nat) (s : State) : State :=
  if serialOk serial then
    match s.voucher serial with
    | none => replyStation st tag .notFound [] s
    | some v => replyStation st tag .ok [.voucherState v.state, .itemCode v.item, .itemName ((s.item v.item).map (·.name)),
        .generation v.gen, .wrongCount v.wrong, .startTime (s.startOf v.slot)] s
  else replyStation st tag .badField [] s

def execQueryVoucher (st : Station) (tag : Tag) (serial : Nat) (s : State) : Host.Outcome State Fault Refusal :=
  .next (stationRequest st tag .queryVoucher (queryVoucher st tag serial) s)

end Sys2Proof.Machine
end

