-- ==== Sys2Proof/Machine/Tariff.lean ====
section
/-! DEFINITION. The tariff calculator (chapter 4): the stages of a pricing, charged values, and the loads of tariff and snack
prices with what they do to baskets (R61). -/

namespace Sys2Proof.Machine

/-! ### Arithmetic -/

/-- Half-up rounding of a quotient (R78). -/
def halfUp (n d : Nat) : Nat := (n + d / 2) / d

/-- The exact product rounded half-up to the cent (R71). -/
def centFare (f m p : Nat) : Nat := (f * m * p + 500000) / 1000000

/-- A cent value rounded half-up to the rounding step (R72). -/
def stepRound (c r : Nat) : Nat := if r ≤ 2 * (c % r) then c - c % r + r else c - c % r

/-- The fare under the ceiling (R73). -/
def ceilingFare (c : Nat) : Nat := min c Config.fareCeiling

/-- A seat fare and its CLAMPED mark from class fare, band factor, category factor and rounding step (R71 to R73). -/
def seatFare (f m p r : Nat) : Nat × Bool :=
  let c := stepRound (centFare f m p) r
  (ceilingFare c, decide (Config.fareCeiling < c))

/-- The booking fee of a seat line: 0 for a fee-exempt category or a fare of 0 (R74). -/
def seatFee (bookingFee fare : Nat) (exempt : Bool) : Nat := if exempt ∨ fare = 0 then 0 else bookingFee

/-- The tariff's category of a number. -/
def tariffCategory (t : Tariff) (n : Nat) : Option Category := t.cats.find? (fun c => c.num = n)

/-- Does a category suit a seat's kind (Table 3-2, check 4)? -/
def suits (c : Category) (k : SeatKind) : Bool := c.companionOnly == decide (k = .companion)

/-- The kind of the seat a reference names. -/
def State.kindOf (s : State) (r : SeatRef) : SeatKind := ((s.seat r.slot (refPos r)).map (·.kind)).getD .ordinary

/-- The class fare of a seat, from the screening record of its slot and the class of its seat record (R68). -/
def State.classFare (s : State) (r : SeatRef) : Nat :=
  match s.screening r.slot, s.seat r.slot (refPos r) with
  | some sc, some x => sc.fares[x.cls]
  | _, _ => 0

/-- The band factor of a seat's screening (R68). -/
def State.bandFactor (s : State) (r : SeatRef) : Nat := ((s.screening r.slot).map (·.band)).getD 0

/-- One seat line priced (R71 to R74). -/
def priceSeat (t : Tariff) (s : State) (l : SeatLine) : PricedSeat :=
  let factor := ((tariffCategory t l.cat).map (·.factor)).getD 0
  let exempt := ((tariffCategory t l.cat).map (·.feeExempt)).getD false
  let fare := seatFare (s.classFare l.ref) (s.bandFactor l.ref) factor t.step
  let fee := seatFee t.bookingFee fare.1 exempt
  { ref := l.ref, cat := l.cat, fare := fare.1, fee := fee, total := fare.1 + fee, clamped := fare.2 }

/-- One snack line priced (R75). -/
def priceSnack (s : State) (l : SnackLine) : PricedSnack :=
  let price := ((s.item l.item).map (·.price)).getD 0
  { item := l.item, qty := l.qty, price := price, amount := price * l.qty }

/-- The price summary of seat lines and snack lines under a tariff (R68 to R79). -/
def pricing (t : Tariff) (lines : List SeatLine) (snacks : List SnackLine) (s : State) : Summary :=
  let seats := lines.map (priceSeat t s)
  let priced := snacks.map (priceSnack s)
  let subtotal := (priced.map (·.amount)).sum
  let effD := if seats.any (fun x => decide (0 < x.fare)) then t.combo else 0
  let discount := subtotal * effD / 1000
  let snackNet := subtotal - discount
  let seatPart := (seats.map (·.total)).sum
  { seats := seats, snacks := priced, subtotal := subtotal, discount := discount, effD := effD, snackNet := snackNet,
    seatPart := seatPart, total := seatPart + snackNet,
    ticketTax := halfUp (seatPart * t.ticketTax) (10000 + t.ticketTax),
    snackTax := halfUp (snackNet * t.snackTax) (10000 + t.snackTax), tariffId := s.tariffId }

/-- Each unit of a summary with its share of the price, in unit order (R80). -/
def unitShares (m : Summary) : List (Nat × Nat) :=
  m.snacks.flatMap (fun l => List.replicate l.qty (l.item, l.price * (1000 - m.effD) / 1000))

/-- The residue of the snack net given to the first unit (R80). -/
def giveResidue (residue : Nat) : List (Nat × Nat) → List (Nat × Nat)
  | [] => []
  | (c, v) :: t => (c, v + residue) :: t

/-- The items and charged values of a summary's units, in unit order (R80). -/
def chargedValues (m : Summary) : List (Nat × Nat) :=
  giveResidue (m.snackNet - ((unitShares m).map (·.2)).sum) (unitShares m)

/-- The first seat line whose category the tariff lacks (Table 3-5, check 5). -/
def missingCategory (t : Tariff) (lines : List SeatLine) : Option SeatLine :=
  lines.find? (fun l => (tariffCategory t l.cat).isNone)

/-- The first seat line whose category does not suit its seat's kind (Table 3-5, check 6). -/
def unsuitedCategory (t : Tariff) (s : State) (lines : List SeatLine) : Option SeatLine :=
  lines.find? (fun l => match tariffCategory t l.cat with
    | some c => !suits c (s.kindOf l.ref)
    | none => false)

/-- The refusal of a SITE-SELL's categories, seats examined in seat-list order (R70). -/
def sellCategoryFault (t : Tariff) (s : State) : List SeatLine → Option (Code × SeatRef)
  | [] => none
  | l :: rest =>
    match tariffCategory t l.cat with
    | none => some (.noCategory, l.ref)
    | some c => if suits c (s.kindOf l.ref) then sellCategoryFault t s rest else some (.wrongKind, l.ref)

/-! ### Loads -/

/-- One basket treated at a load (R61). -/
def treatBasket (k : LoadKind) (s : State) (st : Station) : State :=
  match s.basketState st, (s.basket st).summary with
  | .paying, _ => modifyBasket st (fun b => { b with payLoad := some k }) s
  | .opened, some _ | .empty, some _ =>
    if s.payIdle st then
      emit (.station st) (.priceStale k) (modifyBasket st (fun b => { b with summary := none, stale := true }) s)
    else s
  | .opened, none | .empty, none => s

/-- Every basket treated at a load, in the same step (R61). -/
def treatBaskets (k : LoadKind) (s : State) : State := (List.finRange 8).foldl (treatBasket k) s

/-- A category put into its place in ascending category number (R67). -/
def insertCategory (c : Category) : List Category → List Category
  | [] => [c]
  | d :: t => if c.num ≤ d.num then c :: d :: t else d :: insertCategory c t

/-- LOAD-TARIFF (R66, R67). -/
def loadTariff (tag : Tag) (f : Tariff) (s : State) : State :=
  match tariffFault f with
  | some (some place, g) => replySite tag .badField [.field g, .place place] s
  | some (none, g) => replySite tag .badField [.field g] s
  | none =>
    let n := succWrap Config.maxSequence s.tariffId
    replySite tag .ok [.tariffId n] (treatBaskets .tariff
      { s with tariff := some { f with cats := f.cats.foldr insertCategory [] }, tariffId := n })

def execLoadTariff (tag : Tag) (f : Tariff) (s : State) : Host.Outcome State Fault Refusal := .next (loadTariff tag f s)

/-- The names and prices of LOAD-SNACKS taken (R164). -/
def takeSnacks (entries : List SnackEntry) (s : State) : State :=
  entries.foldl (fun s e => modifyItem e.item (fun x => { x with name := e.name, price := e.price }) s) s

/-- LOAD-SNACKS (R164).  The length of the list is judged before its entries, and its refusal names nothing (DESIGN CHOICE,
log 22).  The refusal for an entry carries its place and then the field, as R164 words it; no rule orders the two in the reply
(DESIGN CHOICE, log 34). -/
def loadSnacks (tag : Tag) (entries : List SnackEntry) (s : State) : State :=
  if within 1 24 entries.length then
    match firstEntryFault snackFault [] entries with
    | some (place, g) => replySite tag .badField [.place place, .field g] s
    | none => replySite tag .ok [.itemsChanged entries.length] (treatBaskets .snacks (takeSnacks entries s))
  else replySite tag .badField [] s

def execLoadSnacks (tag : Tag) (entries : List SnackEntry) (s : State) : Host.Outcome State Fault Refusal :=
  .next (loadSnacks tag entries s)

end Sys2Proof.Machine
end

