-- ==== Sys2Proof/Machine/Baskets.lean ====
section
/-! DEFINITION. The basket unit (chapter 3): opening, changing and emptying a basket, and the station requests that shape it. -/

namespace Sys2Proof.Machine

/-! ### Shared operations -/

/-- The lapse deadline a change sets: one hold time ahead, capped at three opening hold times after the start (R55).  A change taken
first in the millisecond of a deadline that stands at the cap has nothing left of the cap: the deadline is then set 0 ms ahead and is
due at once, though R55 calls that duration always above 0 and R56 has the deadline not reached at that moment (DESIGN CHOICE,
log 32). -/
def lapseAfterChange (s : State) (b : Basket) : Deadline :=
  deadlineIn s (min (s.limits.holdTime * 1000) (3 * b.openHold * 1000 - elapsedSince s b.start))

/-- A change of the basket (R55): the summary goes, the stale mark is cleared, the lapse deadline is set again. -/
def basketChange (st : Station) (s : State) : State :=
  modifyBasket st (fun b => { b with summary := none, stale := false, lapse := some (lapseAfterChange s b) }) s

/-- A basket becomes OPEN (R54). -/
def basketOpens (st : Station) (s : State) : State :=
  modifyBasket st (fun b =>
    { b with
      start := s.timeBase, openHold := s.limits.holdTime, lapse := some (deadlineIn s (s.limits.holdTime * 1000)),
      attempts := 0, stale := false, payLoad := none, overdue := false, summary := none }) s

/-- Something enters a basket: it opens when it was EMPTY, else it is a change (R48, R52). -/
def basketGains (st : Station) (f : Basket → Basket) (s : State) : State :=
  if (s.basket st).hollow then basketOpens st (modifyBasket st f s) else basketChange st (modifyBasket st f s)

/-- A hold lets all its seats go in one step, and its record is freed (R13, R33, R34, R42, R43). -/
def releaseHold (n : Nat) (s : State) : State :=
  match s.hold n with
  | some h => delHold n (mapSeats h.slot h.seats Seat.release s)
  | none => s

/-- The holds an emptying releases: those of the hold list and the GATHERING hold (R35). -/
def State.holdsToRelease (s : State) (st : Station) : List Nat :=
  (s.basket st).holds ++ ((s.gathering st).map (·.1)).toList

/-- The seats listed by the holds an emptying releases. -/
def State.seatsToRelease (s : State) (st : Station) : Nat :=
  ((s.holdsToRelease st).map (fun n => ((s.hold n).map (fun h => h.seats.length)).getD 0)).sum

/-- Emptying a basket, one step for the whole basket (R58, R35). -/
def emptyBasket (st : Station) (s : State) : State :=
  let b := s.basket st
  let released := (s.holdsToRelease st).foldl (fun s n => releaseHold n s) s
  let returned := b.snacks.foldl (fun s l => returnUnits l.item l.qty s) released
  setBasket st Basket.vacant returned

/-- Something leaves a basket: it is emptied when nothing is left, else it is a change (R48, R53). -/
def basketLoses (st : Station) (s : State) : State :=
  if (s.basket st).hollow then emptyBasket st s else basketChange st s

/-- The default category of a new seat line (R49). -/
def State.defaultCategory (s : State) (k : SeatKind) : Nat :=
  match k, s.tariff with
  | .companion, some t => ((t.cats.find? (fun c => c.companionOnly)).map (·.num)).getD 0
  | _, _ => 0

/-- The seat lines a hold brings into a basket, in its add order (R48). -/
def State.linesOf (s : State) (h : Hold) : List SeatLine :=
  h.seats.map (fun p =>
    let ref : SeatRef := ⟨h.slot, p.row, p.num⟩
    ⟨ref, s.defaultCategory (s.kindOf ref)⟩)

/-- A hold joins its station's basket at a passing close (R48). -/
def joinBasket (st : Station) (n : Nat) (h : Hold) (s : State) : State :=
  basketGains st (fun b => { b with holds := b.holds ++ [n], seatLines := b.seatLines ++ s.linesOf h }) s

/-- The basket at the end of a payment without a sale, after the context's return to IDLE (R62, Table 3-6). -/
def settleBasket (st : Station) (s : State) : State :=
  let b := s.basket st
  if b.overdue then
    emit (.station st) (.basketLapsed .lapsedInPayment (s.seatsToRelease st) (unitsOf b.snacks)) (emptyBasket st s)
  else if s.isLost (.station st) then emptyBasket st s
  else match b.payLoad with
    | some k =>
      emit (.station st) (.priceStale k)
        (modifyBasket st (fun b => { b with summary := none, stale := true, payLoad := none }) s)
    | none => s

/-! ### SET-CATEGORY -/

/-- SET-CATEGORY past the link unit's checks (R50). -/
def setCategory (st : Station) (tag : Tag) (ref : SeatRef) (cat : Nat) (s : State) : State :=
  if seatRefOk ref && categoryOk cat then
    if !s.payIdle st then replyStation st tag .paying [] s
    else if (s.basket st).seatLines.all (fun l => decide (l.ref ≠ ref)) then replyStation st tag .notMine [] s
    else match s.tariff.bind (fun t => tariffCategory t cat) with
      | none => replyStation st tag .noCategory [] s
      | some c =>
        if suits c (s.kindOf ref) then
          replyStation st tag .ok [.seat ref, .label c.label]
            (basketChange st (modifyBasket st (fun b =>
              { b with seatLines := b.seatLines.map (fun l => if l.ref = ref then { l with cat := cat } else l) }) s))
        else replyStation st tag .wrongKind [] s
  else replyStation st tag .badField [] s

def execSetCategory (st : Station) (tag : Tag) (ref : SeatRef) (cat : Nat) (s : State) : Host.Outcome State Fault Refusal :=
  .next (stationRequest st tag .setCategory (setCategory st tag ref cat) s)

/-! ### Snack lines -/

/-- The quantity of an item's snack line, 0 without one. -/
def lineQty (l : List SnackLine) (item : Nat) : Nat := ((l.find? (fun x => x.item = item)).map (·.qty)).getD 0

/-- Snack lines with units of an item added: the line rises in its place, or a new line is appended (R52). -/
def addUnits (item qty : Nat) (l : List SnackLine) : List SnackLine :=
  if l.any (fun x => x.item = item) then l.map (fun x => if x.item = item then { x with qty := x.qty + qty } else x)
  else l ++ [⟨item, qty⟩]

/-- Snack lines with units of an item taken out: a line that reaches 0 is removed (R53). -/
def takeUnits (item qty : Nat) (l : List SnackLine) : List SnackLine :=
  (l.map (fun x => if x.item = item then { x with qty := x.qty - qty } else x)).filter (fun x => decide (0 < x.qty))

/-- Would the addition pass 9 in the item's line, 6 lines, or 12 units (Table 3-3, check 2)? -/
def addPassesLimit (l : List SnackLine) (item qty : Nat) : Bool :=
  (l.any (fun x => x.item = item) && decide (Config.lineUnits < lineQty l item + qty)) ||
    (!l.any (fun x => x.item = item) && decide (Config.basketLines ≤ l.length)) ||
    decide (Config.basketUnits < unitsOf l + qty)

/-- ADD-SNACK past the link unit's checks (R51, R52). -/
def addSnack (st : Station) (tag : Tag) (item qty : Nat) (s : State) : State :=
  match s.item item with
  | none => replyStation st tag .badField [] s
  | some x =>
    let l := (s.basket st).snacks
    if !quantityOk qty then replyStation st tag .badField [] s
    else if !s.payIdle st then replyStation st tag .paying [] s
    else if addPassesLimit l item qty then replyStation st tag .limit [.snackUnits (unitsOf l)] s
    else if x.allowance < x.issued + x.reserved + qty then replyStation st tag .soldOut [.available x.available] s
    else if Config.voucherRecords < s.vouchers.length + s.reservedUnits + qty then replyStation st tag .tableFull [] s
    else
      let l' := addUnits item qty l
      replyStation st tag .ok [.quantity (lineQty l' item), .snackUnits (unitsOf l')]
        (basketGains st (fun b => { b with snacks := l' }) (reserveUnits item qty s))

def execAddSnack (st : Station) (tag : Tag) (item qty : Nat) (s : State) : Host.Outcome State Fault Refusal :=
  .next (stationRequest st tag .addSnack (addSnack st tag item qty) s)

/-- REMOVE-SNACK past the link unit's checks (R53). -/
def removeSnack (st : Station) (tag : Tag) (item qty : Nat) (s : State) : State :=
  let l := (s.basket st).snacks
  if !(itemOk item && quantityOk qty) then replyStation st tag .badField [] s
  else if !s.payIdle st then replyStation st tag .paying [] s
  else if !l.any (fun x => x.item = item) then replyStation st tag .notFound [] s
  else if lineQty l item < qty then replyStation st tag .badField [.quantity (lineQty l item)] s
  else
    let l' := takeUnits item qty l
    replyStation st tag .ok [.quantity (lineQty l' item), .snackUnits (unitsOf l')]
      (basketLoses st (returnUnits item qty (modifyBasket st (fun b => { b with snacks := l' }) s)))

def execRemoveSnack (st : Station) (tag : Tag) (item qty : Nat) (s : State) : Host.Outcome State Fault Refusal :=
  .next (stationRequest st tag .removeSnack (removeSnack st tag item qty) s)

/-! ### PRICE -/

/-- PRICE past the link unit's checks (R60, R69). -/
def price (st : Station) (tag : Tag) (s : State) : State :=
  let b := s.basket st
  if !s.payIdle st then replyStation st tag .paying [] s
  else if s.basketState st = .empty then replyStation st tag .empty [] s
  else match s.gathering st with
    | some (n, _) => replyStation st tag .gathering [.holdNumber n] s
    | none => match s.tariff with
      | none => replyStation st tag .noTariff [] s
      | some t => match missingCategory t b.seatLines with
        | some l => replyStation st tag .noCategory [.seat l.ref] s
        | none => match unsuitedCategory t s b.seatLines with
          | some l => replyStation st tag .wrongKind [.seat l.ref] s
          | none =>
            let m := pricing t b.seatLines b.snacks s
            replyStation st tag .ok [.summary m]
              (modifyBasket st (fun b => { b with summary := some m, stale := false }) s)

def execPrice (st : Station) (tag : Tag) (s : State) : Host.Outcome State Fault Refusal :=
  .next (stationRequest st tag .price (price st tag) s)

/-! ### ABANDON and the lapse deadline -/

/-- ABANDON past the link unit's checks (R59). -/
def abandon (st : Station) (tag : Tag) (s : State) : State :=
  if s.payIdle st then
    replyStation st tag .ok [.seatsReleased (s.seatsToRelease st), .unitsReturned (unitsOf (s.basket st).snacks)]
      (emptyBasket st s)
  else replyStation st tag .paying [] s

def execAbandon (st : Station) (tag : Tag) (s : State) : Host.Outcome State Fault Refusal :=
  .next (stationRequest st tag .abandon (abandon st tag) s)

/-- The lapse deadline of a basket is reached (R56, R57). -/
def lapseReached (st : Station) (s : State) : State :=
  let b := s.basket st
  if expires b.lapse then
    if s.payIdle st then
      emit (.station st) (.basketLapsed .lapsed (s.seatsToRelease st) (unitsOf b.snacks)) (emptyBasket st s)
    else modifyBasket st (fun b => { b with overdue := true, lapse := none }) s
  else s

def execLapseDeadlineReached (st : Station) (s : State) : Host.Outcome State Fault Refusal := .next (lapseReached st s)

end Sys2Proof.Machine
end

