-- ==== Sys2Proof/Machine/Holds.lean ====
section
/-! DEFINITION. The hold table (chapter 2): gathering of seat taps, the close and its seat-placement rules, dropping of holds,
and site holds.  SITE-SELL stands with the sale table. -/

namespace Sys2Proof.Machine

/-! ### The seat-placement rules -/

/-- The companion rule over listed seats: the first COMPANION seat in ascending row and seat number when the list holds one
and no WHEELCHAIR seat (R29). -/
def companionFault (sc : Screening) (ps : List SeatPos) : Option SeatPos :=
  if sc.seats.any (fun x => decide (x.pos ∈ ps) && decide (x.kind = .wheelchair)) then none
  else (sc.seats.find? (fun x => decide (x.pos ∈ ps) && decide (x.kind = .companion))).map Seat.pos

/-- Is a seat open in the gap rule: FREE, and not among the listed seats (Table 2-4, R40)? -/
def isOpen (ps : List SeatPos) (x : Seat) : Bool := decide (x.state = .free) && !decide (x.pos ∈ ps)

/-- The seat at a position of a run, none beyond either end (R30). -/
def seatAt (sc : Screening) (runId pos : Nat) : Option Seat :=
  sc.seats.find? (fun x => decide (x.runId = runId) && decide (x.runPos = pos))

/-- Is a position occupied: beyond the run's ends, or not open (Table 2-4)? -/
def occupied (ps : List SeatPos) : Option Seat → Bool
  | none => true
  | some x => !isOpen ps x

/-- Is a position a seat of the hold being judged? -/
def ofHold (ps : List SeatPos) : Option Seat → Bool
  | none => false
  | some x => decide (x.pos ∈ ps)

/-- Is a seat stranded by the listed seats (R31)? -/
def stranded (sc : Screening) (ps : List SeatPos) (x : Seat) : Bool :=
  let before := if x.runPos = 0 then none else seatAt sc x.runId (x.runPos - 1)
  let after := seatAt sc x.runId (x.runPos + 1)
  isOpen ps x && (decide (x.kind = .ordinary) || decide (x.kind = .companion)) &&
    occupied ps before && occupied ps after && (ofHold ps before || ofHold ps after)

/-- The gap rule over listed seats: the first stranded seat in ascending row and seat number (R30, R31). -/
def gapFault (sc : Screening) (ps : List SeatPos) : Option SeatPos := (sc.seats.find? (stranded sc ps)).map Seat.pos

/-- The judgement of listed seats: the companion rule, then the gap rule where the screening has it on (R28). -/
def judge (sc : Screening) (ps : List SeatPos) : CloseResult :=
  match companionFault sc ps with
  | some p => .companion p
  | none =>
    if sc.gapRule then
      match gapFault sc ps with
      | some p => .gap p
      | none => .ok ps
    else .ok ps

/-! ### The close -/

/-- A close that passes: the seats become HELD, the hold STANDING, and it joins its basket (R32). -/
def closePasses (st : Station) (n : Nat) (h : Hold) (s : State) : State :=
  let held := mapSeats h.slot h.seats (fun x => { x with state := .held n }) s
  emit (.station st) (.holdClosed n h.slot (.ok h.seats))
    (joinBasket st n h (putHold n { h with phase := .standing, window := none } held))

/-- A close that fails: the hold lets its seats go (R33). -/
def closeFails (st : Station) (n : Nat) (h : Hold) (r : CloseResult) (s : State) : State :=
  emit (.station st) (.holdClosed n h.slot r) (releaseHold n s)

/-- The close of a station's GATHERING hold, one step over the whole hold (R28). -/
def closeHold (st : Station) (n : Nat) (h : Hold) (s : State) : State :=
  match s.screening h.slot with
  | none => closePasses st n h s
  | some sc => match judge sc h.seats with
    | .ok _ => closePasses st n h s
    | .companion p => closeFails st n h (.companion p) s
    | .gap p => closeFails st n h (.gap p) s

/-- HOLD-CLOSE past the link unit's checks: CLOSING leaves before the HOLD-CLOSED notice (R27, R184). -/
def holdClose (st : Station) (tag : Tag) (s : State) : State :=
  match s.gathering st with
  | some (n, h) => closeHold st n h (replyStation st tag .closing [.holdNumber n] s)
  | none => replyStation st tag .noHold [] s

def execHoldClose (st : Station) (tag : Tag) (s : State) : Host.Outcome State Fault Refusal :=
  .next (stationRequest st tag .holdClose (holdClose st tag) s)

/-- The window deadline of a GATHERING hold is reached (R26). -/
def windowReached (n : Nat) (s : State) : State :=
  match s.hold n with
  | none => s
  | some h => match h.owner with
    | .station st => if h.phase = .gathering ∧ expires h.window then closeHold st n h s else s
    | .site => s

def execGatheringWindowExpiry (hold : Nat) (s : State) : Host.Outcome State Fault Refusal := .next (windowReached hold s)

/-! ### HOLD-SEAT -/

/-- Is the seat PENDING or HELD in a hold of the owner, and in which (Table 2-3, check 7)? -/
def State.ownHold (s : State) (o : Owner) (x : Seat) : Option Nat :=
  match x.state with
  | .pending n | .held n => if (s.hold n).map (·.owner) = some o then some n else none
  | .free | .sold _ | .issued _ | .blocked => none

/-- The refusal of a HOLD-SEAT in range, if a check of Table 2-3 fails, else the screening's seat it may claim (R24). -/
def holdSeatRefusal (st : Station) (r : SeatRef) (s : State) : Option (Code × List Val) :=
  let mine := s.holdsOf (.station st)
  if !s.payIdle st then some (.paying, [])
  else if s.slotState r.slot ≠ .opened then some (.closed, [])
  else match s.seat r.slot (refPos r) with
    | none => some (.noSeat, [])
    | some x =>
      match mine.find? (fun e => decide (e.2.slot ≠ r.slot)) with
      | some e => some (.otherScreening, [.slotNumber e.2.slot])
      | none =>
        if Config.stationSeats ≤ holdSeats mine then some (.limit, [])
        else if x.state = .blocked then some (.blocked, [])
        else match s.ownHold (.station st) x with
          | some n => some (.mine, [.holdNumber n])
          | none =>
            if x.state ≠ .free then some (.taken, [])
            else if (s.gathering st).isNone ∧ Config.stationHolds ≤ mine.length then some (.holdFull, [])
            else none

/-- The seat claimed PENDING in a hold, whose window is set anew (R25, R26), and the reply. -/
def claimSeat (st : Station) (tag : Tag) (r : SeatRef) (n : Nat) (h : Hold) (s : State) : State :=
  let h' := { h with seats := h.seats ++ [refPos r], window := some (deadlineIn s s.limits.window) }
  replyStation st tag .added [.holdNumber n, .position h'.seats.length, .windowRemaining s.limits.window]
    (putHold n h' (mapSeats r.slot [refPos r] (fun x => { x with state := .pending n }) s))

/-- A GATHERING hold of a station before its first seat (R25). -/
def newHold (st : Station) (slot : Nat) : Hold :=
  { owner := .station st, slot := slot, seats := [], phase := .gathering, window := none, own := none, ref := none }

/-- HOLD-SEAT past the link unit's checks (R24, R25). -/
def holdSeat (st : Station) (tag : Tag) (r : SeatRef) (s : State) : State :=
  if seatRefOk r then
    match holdSeatRefusal st r s with
    | some (c, vs) => replyStation st tag c vs s
    | none => match s.gathering st with
      | some (n, h) => claimSeat st tag r n h s
      | none => match s.holds.lowestFree Config.holdRecords with
        | some n => claimSeat st tag r n (newHold st r.slot) s
        | none => replyStation st tag .holdFull [] s
  else replyStation st tag .badField [] s

def execHoldSeat (st : Station) (tag : Tag) (ref : SeatRef) (s : State) : Host.Outcome State Fault Refusal :=
  .next (stationRequest st tag .holdSeat (holdSeat st tag ref) s)

/-! ### DROP-HOLD -/

/-- A STANDING hold and its seat lines leave the basket (R34, R48). -/
def leaveBasket (st : Station) (n : Nat) (h : Hold) (s : State) : State :=
  basketLoses st (modifyBasket st (fun b =>
    { b with
      holds := b.holds.filter (fun m => m ≠ n),
      seatLines := b.seatLines.filter (fun l => !(decide (l.ref.slot = h.slot) && decide (refPos l.ref ∈ h.seats))) }) s)

/-- DROP-HOLD past the link unit's checks (R34). -/
def dropHold (st : Station) (tag : Tag) (n : Nat) (s : State) : State :=
  if !holdOk n then replyStation st tag .badField [] s
  else if !s.payIdle st then replyStation st tag .paying [] s
  else match s.hold n with
    | none => replyStation st tag .notFound [] s
    | some h =>
      if h.owner = .station st then
        let s1 := releaseHold n s
        let s2 := if h.phase = .gathering then s1 else leaveBasket st n h s1
        replyStation st tag .ok [.holdNumber n, .seatsReleased h.seats.length] s2
      else replyStation st tag .notFound [] s

def execDropHold (st : Station) (tag : Tag) (hold : Nat) (s : State) : Host.Outcome State Fault Refusal :=
  .next (stationRequest st tag .dropHold (dropHold st tag hold) s)

/-! ### Site holds -/

/-- The refusal of a SITE-HOLD by checks 2 to 7 of Table 2-6 (R40). -/
def siteHoldRefusal (slot : Nat) (ps : List SeatPos) (s : State) : Option (Code × List Val) :=
  match s.screening slot with
  | none => some (.closed, [])
  | some sc =>
    if sc.phase ≠ .opened then some (.closed, [])
    else match ps.find? (fun p => (sc.seat p).isNone) with
      | some p => some (.noSeat, [.seat ⟨slot, p.row, p.num⟩])
      | none => match (ps.filterMap sc.seat).find? (fun x => decide (x.state ≠ .free)) with
        | some x => some (if x.state = .blocked then .blocked else .taken, [.seat ⟨slot, x.row, x.num⟩])
        | none =>
          if Config.siteHolds ≤ (s.holdsOf .site).length then some (.holdFull, [])
          else match judge sc ps with
            | .companion p => some (.companion, [.seat ⟨slot, p.row, p.num⟩])
            | .gap p => some (.gap, [.seat ⟨slot, p.row, p.num⟩])
            | .ok _ => none

/-- A SITE-HOLD taken in a free record (R41). -/
def takeSiteHold (tag : Tag) (slot : Nat) (ps : List SeatPos) (seconds : Nat) (ref : Chars 8) (n : Nat) (s : State) : State :=
  replySite tag .ok [.holdNumber n]
    (putHold n
      { owner := .site, slot := slot, seats := ps, phase := .standing, window := none,
        own := some (deadlineIn s (seconds * 1000)), ref := some ref }
      (mapSeats slot ps (fun x => { x with state := .held n }) s))

/-- SITE-HOLD (R40, R41). -/
def siteHold (tag : Tag) (slot : Nat) (ps : List SeatPos) (seconds : Nat) (ref : Chars 8) (s : State) : State :=
  match siteHoldFault slot ps seconds with
  | some f => replySite tag .badField [.field f] s
  | none => match siteHoldRefusal slot ps s with
    | some (c, vs) => replySite tag c vs s
    | none => match s.holds.lowestFree Config.holdRecords with
      | some n => takeSiteHold tag slot ps seconds ref n s
      | none => replySite tag .holdFull [] s

def execSiteHold (tag : Tag) (slot : Nat) (seats : List SeatPos) (seconds : Nat) (ref : Chars 8) (s : State) :
    Host.Outcome State Fault Refusal :=
  .next (siteHold tag slot seats seconds ref s)

/-- A site hold's own deadline is reached (R42). -/
def ownReached (n : Nat) (s : State) : State :=
  match s.hold n with
  | none => s
  | some h =>
    if h.owner = .site ∧ expires h.own then
      emit .site (.holdExpired n h.ref h.slot h.seats.length) (releaseHold n s)
    else s

def execOwnDeadlineExpiry (hold : Nat) (s : State) : Host.Outcome State Fault Refusal := .next (ownReached hold s)

/-- SITE-RELEASE (R43). -/
def siteRelease (tag : Tag) (n : Nat) (ref : Chars 8) (s : State) : State :=
  if holdOk n then
    match s.hold n with
    | none => replySite tag .notFound [] s
    | some h =>
      if h.owner = .site ∧ h.ref = some ref then replySite tag .ok [.seatsReleased h.seats.length] (releaseHold n s)
      else replySite tag .notFound [] s
  else replySite tag .badField [] s

def execSiteRelease (tag : Tag) (hold : Nat) (ref : Chars 8) (s : State) : Host.Outcome State Fault Refusal :=
  .next (siteRelease tag hold ref s)

end Sys2Proof.Machine
end

