-- ==== Sys2Proof/Machine/Print.lean ====
section
/-! DEFINITION. The print channel and print orders (chapters 7 and 8): lanes, the render mover, cuts, faults, resumption,
reprint and collection. -/

namespace Sys2Proof.Machine

/-! ### Lane queues -/

/-- The first order that meets `p`, changed by `f`. -/
def updateFirst (p : Order → Bool) (f : Order → Order) : List Order → List Order
  | [] => []
  | o :: t => if p o then f o :: t else o :: updateFirst p f t

/-- The queue without its first order that meets `p`. -/
def removeFirst (p : Order → Bool) : List Order → List Order
  | [] => []
  | o :: t => if p o then t else o :: removeFirst p t

/-- Orders appended whole at the tail of a lane's queue (R132). -/
def appendOrders (st : Station) (os : List Order) (s : State) : State :=
  modifyLane st (fun l => { l with queue := l.queue ++ os }) s

/-- The chain of a sale: a TICKET per seat line, a STUB per voucher, and the RECEIPT of a station sale (R151, R162). -/
def chainOf (n : Nat) (x : Sale) (receipt : Bool) : List Order :=
  x.seats.map (fun l => (⟨.ticket l.ref, n, false, .queued⟩ : Order)) ++
    x.serials.map (fun v => (⟨.stub v, n, false, .queued⟩ : Order)) ++
    (if receipt then [⟨.receipt, n, false, .queued⟩] else [])

/-! ### The ends of orders -/

/-- The seat of a sale's seat line as the seat store holds it. -/
def State.seatOf (s : State) (r : SeatRef) : Option Seat := s.seat r.slot (refPos r)

/-- Is a seat ISSUED? -/
def Seat.isIssued (x : Seat) : Bool :=
  match x.state with
  | .issued _ => true
  | .free | .pending _ | .held _ | .sold _ | .blocked => false

/-- A sale's state without the refund amount. -/
def SaleState.name : SaleState → SaleStateName
  | .active => .active
  | .refunded _ => .refunded

/-- What PRINT-DONE carries of an ACTIVE sale: seats not ISSUED and vouchers PRINT_PENDING (R157). -/
def State.printLeft (s : State) (x : Sale) : Nat × Nat :=
  (x.seats.countP (fun l => ((s.seatOf l.ref).map (fun y => !y.isIssued)).getD true),
   x.serials.countP (fun v => ((s.voucher v).map (fun y => decide (y.state = .printPending))).getD false))

/-- PRINT-DONE for a sale whose outstanding count has reached 0, to the station of the lane (R157). -/
def printDone (st : Station) (n : Nat) (x : Sale) (s : State) : State :=
  emit (.station st) (.printDone n x.state.name (match x.state with
    | .active => some (s.printLeft x)
    | .refunded _ => none)) s

/-- `k` orders of a sale have ended in a lane: its outstanding count falls, and PRINT-DONE follows when it reaches 0 (R115,
R157). -/
def ordersEnded (st : Station) (n k : Nat) (s : State) : State :=
  match s.sale n with
  | none => s
  | some x =>
    let x' := { x with outstanding := x.outstanding - k }
    if 0 < x.outstanding ∧ x'.outstanding = 0 then printDone st n x' (putSale n x' s) else putSale n x' s

/-- Is the sale of an order ACTIVE? -/
def State.saleActive (s : State) (n : Nat) : Bool :=
  match s.sale n with
  | some x => decide (x.state = .active)
  | none => false

/-- A completed ticket: SOLD becomes ISSUED, ISSUED stays (R155). -/
def Seat.complete (x : Seat) : Seat :=
  match x.state with
  | .sold n => { x with state := .issued n }
  | .free | .pending _ | .held _ | .issued _ | .blocked => x

/-- An uncertain ticket: ISSUED becomes SOLD (R156). -/
def Seat.unsure (x : Seat) : Seat :=
  match x.state with
  | .issued n => { x with state := .sold n }
  | .free | .pending _ | .held _ | .sold _ | .blocked => x

/-- A completed stub: PRINT_PENDING or ISSUED becomes ISSUED, LOCKED and REDEEMED stay (R155). -/
def Voucher.complete (v : Voucher) : Voucher :=
  match v.state with
  | .printPending | .issued => { v with state := .issued }
  | .redeemed _ _ | .void | .locked => v

/-- An uncertain stub: ISSUED becomes PRINT_PENDING (R156). -/
def Voucher.unsure (v : Voucher) : Voucher :=
  match v.state with
  | .issued => { v with state := .printPending }
  | .printPending | .redeemed _ _ | .void | .locked => v

/-- What an order's completion does to its source, while its sale is ACTIVE (R155). -/
def completeSource (o : Order) (s : State) : State :=
  if s.saleActive o.sale then
    match o.item with
    | .ticket r => mapSeats r.slot [refPos r] Seat.complete s
    | .stub v => modifyVoucher v Voucher.complete s
    | .receipt => s
  else s

/-- What an order's uncertainty does to its source, while its sale is ACTIVE (R156). -/
def unsureSource (o : Order) (s : State) : State :=
  if s.saleActive o.sale then
    match o.item with
    | .ticket r => mapSeats r.slot [refPos r] Seat.unsure s
    | .stub v => modifyVoucher v Voucher.unsure s
    | .receipt => s
  else s

/-! ### Render start (8.3) -/

/-- The generation of an item's source, 0 for a receipt. -/
def State.generationOf (s : State) : OrderItem → Nat
  | .ticket r => ((s.seatOf r).map (·.gen)).getD 0
  | .stub v => ((s.voucher v).map (·.gen)).getD 0
  | .receipt => 0

/-- The checks of Table 8-3: the drop, with the reason of its PRINT-LIMIT if one is sent (R153). -/
def dropReason (s : State) (o : Order) : Option (Option LimitReason) :=
  if ((s.sale o.sale).map (fun x => decide (x.state ≠ .active))).getD false then some none
  else if (match o.item with | .stub v => s.isRedeemed v | .ticket _ | .receipt => false) then some (some .redeemed)
  else if Config.maxGeneration ≤ s.generationOf o.item then some (some .generation)
  else none

/-- The generation step of a started order (R154). -/
def raiseGeneration (o : Order) (s : State) : State :=
  match o.item with
  | .ticket r => mapSeats r.slot [refPos r] (fun x => { x with gen := x.gen + 1 }) s
  | .stub n => modifyVoucher n (fun v => { v with gen := v.gen + 1, code := checkCode n v.item (v.gen + 1) s.seed }) s
  | .receipt => s

/-- The line count of an order (R131). -/
def State.lineCount (s : State) (o : Order) : Nat :=
  match o.item with
  | .ticket _ => 320
  | .stub _ => 160
  | .receipt => 48 + 16 * (((s.sale o.sale).map (fun x => x.seats.length + x.snacks.length)).getD 0)

/-- The printed content of an order, from the records as they stand (R152). -/
def State.printed (s : State) (o : Order) : Option Content :=
  match o.item with
  | .ticket r =>
    let line := (s.sale o.sale).bind (fun x => x.seats.find? (fun l => l.ref = r))
    some (.ticket ((s.screening r.slot).map (·.auditorium)) ((s.screening r.slot).map (·.start)) r (line.map (·.label))
      (line.map (·.fare)) o.sale (s.generationOf o.item) o.reprint)
  | .stub n => (s.voucher n).map (fun v =>
      .stub ((s.item v.item).map (·.name)) n v.code v.gen (s.startOf v.slot) o.sale o.reprint)
  | .receipt => (s.sale o.sale).map (fun x =>
      .receipt (x.seats.map (fun l => ⟨refPos l.ref, l.label, l.fare, l.fee⟩)) (x.snacks.filterMap (fun l => (s.item l.item).map (fun i => ⟨i.name, l.qty, l.amount⟩)))
        x.subtotal x.discount x.total x.ticketTax x.snackTax x.auth o.sale x.ref o.reprint)

/-- An order dropped at render start (R153). -/
def dropAtStart (st : Station) (o : Order) (reason : Option LimitReason) (s : State) : State :=
  let s1 := modifyLane st (fun l => { l with queue := removeFirst Order.isQueued l.queue }) s
  let s2 := match reason with
    | some r => emit .site (.printLimit o.sale st r [o.item]) s1
    | none => s1
  ordersEnded st o.sale 1 s2

/-- An order started (R154, R134 step 1). -/
def startOrder (st : Station) (o : Order) (s : State) : State :=
  let s1 := raiseGeneration o s
  modifyLane st (fun l =>
    { l with
      queue := updateFirst Order.isQueued (fun o => { o with status := .started }) l.queue, linesSent := 0,
      residual := s1.lineCount o, content := s1.printed o }) s1

/-- The lane's QUEUED orders taken to their render start in queue order until one is started; says whether one was (R134
step 1).  `fuel` bounds the orders taken. -/
def startNext (st : Station) : Nat → State → State × Bool
  | 0, s => (s, false)
  | fuel + 1, s =>
    match (s.lane st).queue.find? Order.isQueued with
    | none => (s, false)
    | some o =>
      match dropReason s o with
      | some reason => startNext st fuel (dropAtStart st o reason s)
      | none => (startOrder st o s, true)

/-! ### The render mover (7.3) -/

/-- The burst size: the least of 32, the residual and 96 less the last level (R134). -/
def Lane.burstSize (l : Lane) : Nat := min Config.burstLines (min l.residual (Config.bufferLines - l.lastLevel))

/-- The LINES frames of a burst: three lines each, the last frame what remains (R127). -/
def burstFrames (l : Lane) (size : Nat) : List OutRec :=
  (List.range ((size + Config.frameLines - 1) / Config.frameLines)).map (fun i =>
    .lines size (Config.frameLines * i)
      ((List.range (min Config.frameLines (size - Config.frameLines * i))).map (fun j =>
        ⟨l.content, l.linesSent + Config.frameLines * i + j + 1⟩)))

/-- A burst sent for a lane's current order (R134 steps 2 to 4).  Its deadline is set when its last frame leaves (R184); on a
lost line no frame leaves and it is set at once (log 8). -/
def sendBurst (st : Station) (s : State) : State :=
  let l := s.lane st
  let deadline := if s.isLost (.printer st) then some (deadlineIn s Config.burstDeadline) else none
  setMover { burst := some ⟨st, l.burstSize, deadline⟩, last := st }
    ((burstFrames l l.burstSize).foldl (fun s r => emit (.printer st) r s) s)

/-- A grant to a lane; says whether a burst was sent (R134). -/
def grant (st : Station) (s : State) : State × Bool :=
  if (s.lane st).current.isSome then (sendBurst st s, true)
  else
    let r := startNext st ((s.lane st).queue.length + 1) s
    if r.2 then (sendBurst st r.1, true) else (r.1, false)

/-- The lanes in the order of arbitration: after the last lane granted, ascending, from 7 on to 0, the last one last (R137). -/
def arbitrationOrder (last : Station) : List Station := (List.finRange 8).map (fun i => last + i + 1)

/-- Is a lane a candidate of an arbitration that leaves out the lane `out`, if any (R137, R136; log 25)? -/
def State.candidate (s : State) (out : Option Station) (st : Station) : Bool := s.requesting st && decide (out ≠ some st)

/-- The lane the mover chooses among the candidates: urgent lanes first, then round-robin (R137). -/
def State.chosenLane (s : State) (out : Option Station) : Option Station :=
  let order := arbitrationOrder s.mover.last
  match order.find? (fun st => s.candidate out st && (s.lane st).urgent) with
  | some st => some st
  | none => order.find? (s.candidate out)

/-- Arbitration at the end of a burst or of a grant with no burst (R137), in which the lane `out` has no part.  Each grant that
sends no burst leaves its lane without a QUEUED order, so `fuel` of nine rounds is never used up. -/
def arbitrate (out : Option Station) : Nat → State → State
  | 0, s => s
  | fuel + 1, s =>
    match s.chosenLane out with
    | none => s
    | some st =>
      let r := grant st s
      if r.2 then r.1 else arbitrate out fuel r.1

/-- The burst in flight ends and the mover arbitrates among the lanes other than `out` (R137). -/
def endBurst (out : Option Station) (s : State) : State := arbitrate out 9 (setMover { s.mover with burst := none } s)

/-- A lane may have come to request the mover: an IDLE mover grants to it in the same step (R134). -/
def laneComes (st : Station) (s : State) : State :=
  if s.mover.burst.isNone && s.requesting st then
    let r := grant st s
    if r.2 then r.1 else arbitrate none 9 r.1
  else s

/-! ### Printer records -/

/-- Does the print channel listen to the station's printer line (R127)? -/
def State.listens (s : State) (st : Station) : Bool := usesPrinter (s.station st).role

/-- The last line of the current order is accepted: CUT, and the order awaits its cut (R136). -/
def orderDone (st : Station) (s : State) : State :=
  emit (.printer st) .cut (modifyLane st (fun l =>
    { l with
      queue := updateFirst Order.isStarted (fun o => { o with status := .awaitingCut }) l.queue, linesSent := 0,
      content := none, cut := if l.awaiting.isEmpty then some (deadlineIn s Config.cutDeadline) else l.cut }) s)

/-- ACCEPT taken for the burst in flight (R135).  A lane whose residual is then 0 starts no further order in this step (R136): the
arbitration that ends the burst leaves it out, though R137 names no such lane (DESIGN CHOICE, log 25). -/
def acceptBurst (st : Station) (k lvl : Nat) (s : State) : State :=
  let s1 := modifyLane st (fun l =>
    { l with residual := l.residual - k, linesSent := l.linesSent + k, lastLevel := lvl }) s
  if (s1.lane st).residual = 0 then endBurst (some st) (orderDone st s1) else endBurst none s1

/-- ACCEPT (R128, R135). -/
def acceptRecord (st : Station) (k lvl : Nat) (s : State) : State :=
  match s.mover.burst with
  | some b =>
    if s.listens st && decide (b.lane = st) && decide (k ≤ b.size) && decide (lvl ≤ Config.bufferLines) then
      acceptBurst st k lvl s
    else s
  | none => s

def execAccept (st : Station) (k lvl : Nat) (s : State) : Host.Outcome State Fault Refusal := .next (acceptRecord st k lvl s)

/-- LEVEL (R128). -/
def levelRecord (st : Station) (lvl : Nat) (s : State) : State :=
  if s.listens st && (s.lane st).suspended.isNone && decide (lvl ≤ Config.bufferLines) then
    laneComes st (modifyLane st (fun l => { l with lastLevel := lvl }) s)
  else s

def execLevel (st : Station) (lvl : Nat) (s : State) : Host.Outcome State Fault Refusal := .next (levelRecord st lvl s)

/-- The oldest awaited cut is reported: its order is completed and leaves the queue (R139). -/
def cutReported (st : Station) (o : Order) (s : State) : State :=
  let s1 := modifyLane st (fun l =>
    let q := removeFirst Order.isAwaiting l.queue
    { l with queue := q, cut := if q.any Order.isAwaiting then some (deadlineIn s Config.cutDeadline) else none }) s
  laneComes st (ordersEnded st o.sale 1 (completeSource o s1))

/-- CUT-DONE (R128, R139). -/
def cutDoneRecord (st : Station) (s : State) : State :=
  if s.listens st && (s.lane st).suspended.isNone && (s.lane st).settling.isNone then
    match (s.lane st).queue.find? Order.isAwaiting with
    | some o => cutReported st o s
    | none => s
  else s

def execCutDone (st : Station) (s : State) : Host.Outcome State Fault Refusal := .next (cutDoneRecord st s)

/-! ### Faults (7.5) -/

/-- Does a fault kind suppress, rather than requeue (R142)? -/
def FaultKind.suppresses : FaultKind → Bool
  | .jam | .markMissed | .lineLost | .noAnswer => true
  | .paperOut | .headOpen => false

/-- The clear flag a fault leaves: set for NO_ANSWER, clear for every other kind (R141, R142). -/
def FaultKind.leavesClear (k : FaultKind) : Bool := decide (k = .noAnswer)

/-- PRINT-FAULT to the station of a lane (R141, R142). -/
def printFault (st : Station) (k : FaultKind) (s : State) : State :=
  emit (.station st) (.printFault k (s.lane st).uncertain (s.lane st).queued) s

/-- A fault of a lane that is not SUSPENDED (R141).  The lines a FAULT record accepts change no more than the lines sent and
the residual, which step 3 sets to 0. -/
def suspendLane (st : Station) (k : FaultKind) (s : State) : State :=
  let inFlight := (s.lane st).queue.filter (fun o => o.isAwaiting || o.isStarted)
  let s1 := modifyLane st (fun l =>
    { l with
      queue := l.queue.map (fun o => if o.isAwaiting || o.isStarted then { o with status := .uncertain } else o),
      linesSent := 0, residual := 0, content := none, cut := none, suspended := some k, clearFlag := k.leavesClear }) s
  let s2 := printFault st k (inFlight.foldl (fun s o => unsureSource o s) s1)
  if s.bursting st then endBurst none s2 else s2

/-- A fault of a lane already SUSPENDED under `held` (R142). -/
def refault (st : Station) (held k : FaultKind) (s : State) : State :=
  let kept := if held.suppresses && !k.suppresses then held else k
  printFault st kept (modifyLane st (fun l => { l with suspended := some kept, clearFlag := k.leavesClear }) s)

/-- A fault taken for a lane (R141, R142). -/
def laneFault (st : Station) (k : FaultKind) (s : State) : State :=
  match (s.lane st).suspended with
  | none => suspendLane st k s
  | some held => refault st held k s

/-- The fault kind of a FAULT record. -/
def faultKindOf : PrinterFault → FaultKind
  | .paperOut => .paperOut
  | .headOpen => .headOpen
  | .jam => .jam
  | .markMissed => .markMissed

/-- FAULT (R128, R141, R142). -/
def faultRecord (st : Station) (kind : PrinterFault) (_k : Nat) (s : State) : State :=
  if s.listens st then laneFault st (faultKindOf kind) s else s

def execFault (st : Station) (kind : PrinterFault) (k : Nat) (s : State) : Host.Outcome State Fault Refusal :=
  .next (faultRecord st kind k s)

/-- CLEAR (R128, R144). -/
def clearRecord (st : Station) (s : State) : State :=
  if s.listens st && (s.lane st).suspended.isSome then modifyLane st (fun l => { l with clearFlag := true }) s else s

def execClear (st : Station) (s : State) : Host.Outcome State Fault Refusal := .next (clearRecord st s)

/-- The burst deadline is reached (R138). -/
def burstDeadlineReached (s : State) : State :=
  match s.mover.burst with
  | some b => if expires b.deadline then laneFault b.lane .noAnswer s else s
  | none => s

def execBurstDeadline (s : State) : Host.Outcome State Fault Refusal := .next (burstDeadlineReached s)

/-- The cut deadline of a lane is reached (R140). -/
def cutDeadlineReached (st : Station) (s : State) : State :=
  if expires (s.lane st).cut then laneFault st .noAnswer s else s

def execCutDeadline (st : Station) (s : State) : Host.Outcome State Fault Refusal := .next (cutDeadlineReached st s)

/-- The settling deadline of a lane is reached (R149). -/
def settlingReached (st : Station) (s : State) : State :=
  if expires (s.lane st).settling then laneComes st (modifyLane st (fun l => { l with settling := none }) s) else s

def execSettlingDeadline (st : Station) (s : State) : Host.Outcome State Fault Refusal := .next (settlingReached st s)

/-! ### RESUME-PRINT -/

/-- The fields of a lane that every accepted RESUME-PRINT sets (R145). -/
def Lane.resumed (l : Lane) (q : List Order) : Lane :=
  { l with suspended := none, clearFlag := false, lastLevel := 0, queue := q }

/-- The lane's uncertain orders requeued with their reprint flags set (R146). -/
def requeueUncertain (q : List Order) : List Order :=
  q.map (fun o => if o.isUncertain then { o with status := .queued, reprint := true } else o)

/-- Is an order dropped by chain suppression: UNCERTAIN, or QUEUED and of a sale with an UNCERTAIN order (R147)? -/
def suppressed (q : List Order) (o : Order) : Bool :=
  o.isUncertain || (o.isQueued && q.any (fun u => u.isUncertain && decide (u.sale = o.sale)))

/-- The sales of a list of orders, each once, in the order of their first orders; in this order a chain suppression sends
its notices (DESIGN CHOICE, log 26). -/
def salesOf : List Order → List Nat
  | [] => []
  | o :: t => o.sale :: (salesOf t).filter (fun n => n ≠ o.sale)

/-- PRINT-LIMIT and the fall of the outstanding count for one sale of a chain suppression (R147, R158). -/
def suppressSale (st : Station) (dropped : List Order) (s : State) (n : Nat) : State :=
  let mine := dropped.filter (fun o => o.sale = n)
  ordersEnded st n mine.length (emit .site (.printLimit n st .suppressed (mine.map (·.item))) s)

/-- An accepted RESUME-PRINT under a fault kind (R145 to R147), before the lane requests the mover. -/
def resumeLane (st : Station) (k : FaultKind) (s : State) : State :=
  let q := (s.lane st).queue
  if k.suppresses then
    let dropped := q.filter (suppressed q)
    (salesOf dropped).foldl (suppressSale st dropped)
      (modifyLane st (fun l => l.resumed (q.filter (fun o => !suppressed q o))) s)
  else modifyLane st (fun l => l.resumed (requeueUncertain q)) s

/-- The counts of orders requeued and dropped by an accepted RESUME-PRINT (R145). -/
def resumeCounts (k : FaultKind) (q : List Order) : Nat × Nat :=
  if k.suppresses then (0, (q.filter (suppressed q)).length) else (q.countP Order.isUncertain, 0)

/-- RESUME-PRINT for a lane, answered through `answer` (R145). -/
def resumeWith (answer : Code → List Val → State → State) (st : Station) (s : State) : State :=
  match (s.lane st).suspended with
  | none => answer .notSuspended [] s
  | some k =>
    if (s.lane st).clearFlag then
      let counts := resumeCounts k (s.lane st).queue
      answer .ok [.requeued counts.1, .dropped counts.2] (laneComes st (resumeLane st k s))
    else answer .notClear [] s

/-- RESUME-PRINT from a station, for its own lane, or from the site server, naming a station (R145). -/
def resumePrint (sender : ResumeSender) (tag : Tag) (s : State) : State :=
  match sender with
  | .station st => stationRequest st tag .resumePrint (resumeWith (replyStation st tag) st) s
  | .site n =>
    match stationOf n with
    | some st => resumeWith (replySite tag) st s
    | none => replySite tag .badField [] s

def execResumePrint (sender : ResumeSender) (tag : Tag) (s : State) : Host.Outcome State Fault Refusal :=
  .next (resumePrint sender tag s)

/-! ### REPRINT -/

/-- The order item a REPRINT names. -/
def orderItemOf : ReprintItem → OrderItem
  | .seat r => .ticket r
  | .voucher v => .stub v

/-- The first field of REPRINT at fault (Table 8-4, check 1).  A seat reference out of range is named by its part at fault, the
slot, the row or the seat number; R159 lists the item as one field and does not say which name the reply gives (DESIGN CHOICE,
log 23). -/
def reprintFault (sale : Nat) (item : ReprintItem) (station : Nat) : Option FieldName :=
  firstFault ([(decide (sale ≠ 0), .saleNumber), ((stationOf station).isSome, .stationNumber)] ++
    (match item with
     | .seat r => [(slotOk r.slot, .slot), (rowOk r.row, .row), (seatNumOk r.num, .seatNumber)]
     | .voucher v => [(serialOk v, .serial)]))

/-- Is the item a seat line or voucher serial of the sale (Table 8-4, check 2)? -/
def itemOfSale (x : Sale) : ReprintItem → Bool
  | .seat r => x.seats.any (fun l => l.ref = r)
  | .voucher v => decide (v ∈ x.serials)

/-- The redeeming till and time of an item that is a REDEEMED voucher (Table 8-4, check 6). -/
def State.redemption (s : State) : ReprintItem → Option (Station × Time)
  | .seat _ => none
  | .voucher v => (s.voucher v).bind (fun y => match y.state with
    | .redeemed till t => some (till, t)
    | .printPending | .issued | .void | .locked => none)

/-- A REPRINT taken (R160). -/
def takeReprint (tag : Tag) (n : Nat) (item : OrderItem) (st : Station) (s : State) : State :=
  let s1 := appendOrders st [⟨item, n, true, .queued⟩] (modifySale n (fun x => { x with outstanding := x.outstanding + 1 }) s)
  replySite tag .ok [.generation (s.generationOf item)] (laneComes st s1)

/-- Checks 3 to 8 of Table 8-4, for a sale that holds the item (R159). -/
def reprintOf (tag : Tag) (n : Nat) (x : Sale) (item : ReprintItem) (st : Station) (s : State) : State :=
  let o := orderItemOf item
  if x.state ≠ .active then replySite tag .refunded [] s
  else if !usesPrinter (s.station st).role then replySite tag .notInRole [.role (s.station st).role] s
  else match s.laneWith (fun w => decide (w.sale = n) && decide (w.item = o)) with
    | some b => replySite tag .busy [.stationNumber b] s
    | none => match s.redemption item with
      | some (till, t) => replySite tag .redeemed [.till till, .time t] s
      | none =>
        if Config.maxGeneration ≤ s.generationOf o then replySite tag .limit [] s
        else if (s.lane st).room = 0 then replySite tag .laneFull [] s
        else takeReprint tag n o st s

/-- REPRINT (R159, R160). -/
def reprint (tag : Tag) (n : Nat) (item : ReprintItem) (station : Nat) (s : State) : State :=
  match reprintFault n item station, stationOf station with
  | some f, _ => replySite tag .badField [.field f] s
  | none, none => replySite tag .badField [.field .stationNumber] s
  | none, some st =>
    match s.sale n with
    | none => replySite tag .notFound [] s
    | some x => if itemOfSale x item then reprintOf tag n x item st s else replySite tag .notFound [] s

def execReprint (tag : Tag) (sale : Nat) (item : ReprintItem) (station : Nat) (s : State) : Host.Outcome State Fault Refusal :=
  .next (reprint tag sale item station s)

/-! ### COLLECT -/

/-- The ACTIVE remote sales of a booking reference, by ascending sale number (R161). -/
def State.booked (s : State) (ref : Chars 8) : Tbl Sale :=
  s.sales.filter (fun e => decide (e.2.state = .active) && decide (e.2.origin = .remote) && decide (e.2.booking = some ref))

/-- Is a sale collectable: nothing outstanding, and every seat and voucher at generation 0 (R161)? -/
def State.collectable (s : State) (x : Sale) : Bool :=
  decide (x.outstanding = 0) && x.seats.all (fun l => decide (s.generationOf (.ticket l.ref) = 0)) &&
    x.serials.all (fun v => decide (s.generationOf (.stub v) = 0))

/-- A COLLECT taken for a sale (R162). -/
def takeCollect (st : Station) (tag : Tag) (n : Nat) (x : Sale) (s : State) : State :=
  let chain := chainOf n x false
  let s1 := appendOrders st chain (modifySale n (fun y => { y with outstanding := y.outstanding + chain.length }) s)
  replyStation st tag .ok [.saleNumber n, .tickets x.seats.length, .stubs x.serials.length] (laneComes st s1)

/-- COLLECT past the link unit's checks (R161). -/
def collect (st : Station) (tag : Tag) (ref : Chars 8) (s : State) : State :=
  match s.booked ref with
  | [] => replyStation st tag .notFound [] s
  | (low, y) :: rest =>
    match ((low, y) :: rest).find? (fun e => s.collectable e.2) with
    | none => replyStation st tag .alreadyCollected [.saleNumber low] s
    | some (n, x) =>
      if (s.lane st).room < (chainOf n x false).length then
        replyStation st tag .laneFull [.chainLength (chainOf n x false).length] s
      else takeCollect st tag n x s

def execCollect (st : Station) (tag : Tag) (ref : Chars 8) (s : State) : Host.Outcome State Fault Refusal :=
  .next (stationRequest st tag .collect (collect st tag ref) s)

end Sys2Proof.Machine
end

