-- ==== Sys2Proof/Machine/Sales.lean ====
section
/-! DEFINITION. The sale table and the journal (chapter 6), and the redemption of vouchers (9.4): the commit, remote sales,
refunds, queries and the collection of the journal. -/

namespace Sys2Proof.Machine

/-! ### The journal -/

/-- A record appended at the newest end with the next sequence number and the time (R122). -/
def appendJournal (sale : Option Nat) (amount : Nat) (body : JournalBody) (s : State) : State :=
  { s with
    journal := s.journal ++ [⟨s.nextSeq, s.timeBase, sale, amount, body⟩],
    nextSeq := succWrap Config.maxSequence s.nextSeq }

/-- A record written from a free entry: the figure of R125 rises and is judged (R122, R125). -/
def writeFree (sale : Option Nat) (amount : Nat) (body : JournalBody) (s : State) : State :=
  judgeJournal (appendJournal sale amount body s)

/-- A record written from a payment's reserved entry: the reservation count falls, the figure of R125 stays (R122). -/
def writeReserved (sale : Option Nat) (amount : Nat) (body : JournalBody) (s : State) : State :=
  { appendJournal sale amount body s with journalReserved := s.journalReserved - 1 }

/-- The SALE record of a sale (Table 6-5). -/
def saleEntry (x : Sale) : JournalBody :=
  .sale
    { origin := x.origin, ref := x.ref, booking := x.booking, slot := x.slot, seatCount := x.seats.length,
      unitCount := (x.snacks.map (·.qty)).sum, seatPart := x.seatPart, snackNet := x.snackNet, ticketTax := x.ticketTax,
      snackTax := x.snackTax, capture := x.capture, auth := x.auth, tariffId := x.tariffId,
      clampedCount := x.seats.countP (·.clamped) }

/-- JOURNAL-READ (R123). -/
def journalRead (tag : Tag) (s : State) : State :=
  replySite tag .ok
    [.recordsHeld s.journal.length, .reserved s.journalReserved, .records (s.journal.take Config.journalRead)] s

def execJournalRead (tag : Tag) (s : State) : Host.Outcome State Fault Refusal := .next (journalRead tag s)

/-- The journal after the removal of the record of a sequence number and every older one, if one carries it (R124). -/
def releaseUpTo (seq : Nat) : List JournalRec → Option (List JournalRec)
  | [] => none
  | r :: t => if r.seq = seq then some t else releaseUpTo seq t

/-- JOURNAL-RELEASE (R124); the fall may arm JOURNAL-HIGH again (R125). -/
def journalRelease (tag : Tag) (seq : Nat) (s : State) : State :=
  match releaseUpTo seq s.journal with
  | none => replySite tag .notFound [] s
  | some rest =>
    replySite tag .ok [.removed (s.journal.length - rest.length), .recordsHeld rest.length]
      (judgeJournal { s with journal := rest })

def execJournalRelease (tag : Tag) (seq : Nat) (s : State) : Host.Outcome State Fault Refusal :=
  .next (journalRelease tag seq s)

/-! ### Making a sale -/

/-- The sale number the table gives next (R110). -/
def State.freshSale (s : State) : Nat :=
  firstUnused (fun n => (s.sale n).isSome) Config.maxSaleNumber (s.sales.length + 1) s.nextSale

/-- The label of a sale's seat line: that of its category in the tariff it was priced under; a free value once another tariff
is in force (log 6). -/
def State.labelOf (s : State) (m : Summary) (cat k : Nat) : Chars 12 :=
  match (if m.tariffId = s.tariffId then s.tariff else none).bind (fun t => tariffCategory t cat) with
  | some c => c.label
  | none => Config.saleLabel (s.draws + k)

/-- The seat lines of a sale from the summary's (Table 6-1). -/
def State.saleSeats (s : State) (m : Summary) : List SaleSeat :=
  m.seats.zipIdx.map (fun e =>
    { ref := e.1.ref, cat := e.1.cat, label := s.labelOf m e.1.cat e.2, fare := e.1.fare, fee := e.1.fee,
      total := e.1.total, clamped := e.1.clamped })

/-- A sale record from a summary, with the fields its origin gives (R112 step 1, R114 step 1). -/
def saleOf (s : State) (m : Summary) (origin : Origin) (slot : Option Nat) (ref : Option SaleRef) (auth : Option Auth)
    (capture : CaptureState) (booking : Option (Chars 8)) : Sale :=
  { origin := origin, slot := slot, seats := s.saleSeats m, snacks := m.snacks, serials := [], seatPart := m.seatPart,
    subtotal := m.subtotal, discount := m.discount, effD := m.effD, snackNet := m.snackNet, total := m.total,
    ticketTax := m.ticketTax, snackTax := m.snackTax, tariffId := m.tariffId, ref := ref, auth := auth, capture := capture,
    booking := booking, state := .active, outstanding := 0 }

/-- The seats of a hold become SOLD and its record is freed (R14, R39, R44). -/
def sellHold (sale n : Nat) (s : State) : State :=
  match s.hold n with
  | some h => delHold n (mapSeats h.slot h.seats (Seat.sell sale) s)
  | none => s

/-- A sale record entered under its number, with its seats sold and its vouchers made (R112 steps 1 to 3, R114 steps 1 to
3). -/
def enterSale (n : Nat) (x : Sale) (m : Summary) (holds : List Nat) (fromReserved : Bool) (s : State) : State :=
  let s1 := { putSale n x s with nextSale := succWrap Config.maxSaleNumber n, draws := s.draws + x.seats.length }
  let s2 := holds.foldl (fun s h => sellHold n h s) s1
  let made := createVouchers n x.slot fromReserved (chargedValues m) s2
  modifySale n (fun y => { y with serials := made.2 }) made.1

/-- The sale number and the record a station's commit makes (R112 step 1). -/
def State.stationSale (s : State) (st : Station) (m : Summary) (auth : Auth) : Sale :=
  saleOf s m (.station st) (((s.basket st).holds.head?.bind s.hold).map (·.slot)) (some ⟨st, (s.pay st).count⟩) (some auth)
    .pending none

/-- An absent summary, which no PAYING basket has (R47). -/
def Summary.nothing : Summary :=
  { seats := [], snacks := [], subtotal := 0, discount := 0, effD := 0, snackNet := 0, seatPart := 0, total := 0,
    ticketTax := 0, snackTax := 0, tariffId := 0 }

/-- The print chain of a new station sale takes the lane room reserved for it, and the basket is emptied without releasing
anything (R112 steps 4 and 5). -/
def queueSale (st : Station) (n room : Nat) (s : State) : State :=
  match s.sale n with
  | none => s
  | some x =>
    let chain := chainOf n x true
    setBasket st Basket.vacant
      (modifyLane st (fun l => { l with reservedRoom := l.reservedRoom - room, queue := l.queue ++ chain })
        (putSale n { x with outstanding := chain.length } s))

/-- The commit of a station's basket on an approval, in one step (R112). -/
def commit (st : Station) (auth : Auth) (room : Nat) (s : State) : State :=
  let m := (s.basket st).summary.getD Summary.nothing
  let n := s.freshSale
  queueSale st n room
    (enterSale n (s.stationSale st m auth) m (s.basket st).holds true { s with salesReserved := s.salesReserved - 1 })

/-! ### SITE-SELL -/

/-- The site hold a hold number and site reference name (R43, R44). -/
def State.siteHold (s : State) (n : Nat) (ref : Chars 8) : Option Hold :=
  match s.hold n with
  | some h => if h.owner = .site ∧ h.ref = some ref then some h else none
  | none => none

/-- The first snack line, in request order, whose quantity would pass its item's allowance (Table 6-2, check 9). -/
def State.soldOutLine (s : State) (l : List SnackLine) : Option SnackLine :=
  l.find? (fun x => match s.item x.item with
    | some i => decide (i.allowance < i.issued + i.reserved + x.qty)
    | none => true)

/-- A SITE-SELL committed (R114). -/
def takeSiteSell (tag : Tag) (hold : Nat) (h : Hold) (ref : Chars 8) (m : Summary) (s : State) : State :=
  let n := s.freshSale
  let s1 := enterSale n (saleOf s m .remote (some h.slot) none none .notApplicable (some ref)) m [hold] false s
  match s1.sale n with
  | none => s1
  | some x =>
    replySite tag .ok [.saleNumber n, .serials x.serials, .summary m] (writeFree (some n) x.total (saleEntry x) s1)

/-- Checks 4 to 10 of Table 6-2 for the hold found and its seat lines (R113). -/
def siteSellHold (tag : Tag) (hold : Nat) (h : Hold) (ref : Chars 8) (lines : List SeatLine) (snacks : List SnackLine)
    (s : State) : State :=
  if Config.basketLines < snacks.length ∨ Config.basketUnits < unitsOf snacks then replySite tag .limit [] s
  else match s.tariff with
    | none => replySite tag .noTariff [] s
    | some t => match sellCategoryFault t s lines with
      | some (c, r) => replySite tag c [.seat r] s
      | none =>
        if s.salesFree = 0 then replySite tag .salesFull [] s
        else if s.journalFree = 0 then replySite tag .journalFull [] s
        else match s.soldOutLine snacks with
          | some l => replySite tag .soldOut
              [.itemCode l.item, .available (((s.item l.item).map Item.available).getD 0)] s
          | none =>
            if Config.voucherRecords < s.vouchers.length + s.reservedUnits + unitsOf snacks then
              replySite tag .tableFull [] s
            else takeSiteSell tag hold h ref (pricing t lines snacks s) s

/-- SITE-SELL (R113, R114). -/
def siteSell (tag : Tag) (hold : Nat) (ref : Chars 8) (cats : List Nat) (snacks : List SnackLine) (s : State) : State :=
  match siteSellFault hold cats snacks with
  | some f => replySite tag .badField [.field f] s
  | none => match s.siteHold hold ref with
    | none => replySite tag .notFound [] s
    | some h =>
      if cats.length ≠ h.seats.length then replySite tag .badField [.seatCount h.seats.length] s
      else
        siteSellHold tag hold h ref
          (List.zipWith (fun (p : SeatPos) (c : Nat) => (⟨⟨h.slot, p.row, p.num⟩, c⟩ : SeatLine)) h.seats cats) snacks s

def execSiteSell (tag : Tag) (hold : Nat) (ref : Chars 8) (cats : List Nat) (snacks : List SnackLine) (s : State) :
    Host.Outcome State Fault Refusal :=
  .next (siteSell tag hold ref cats snacks s)

/-! ### REFUND -/

/-- The refund amount: the seat part and the charged values of the vouchers that are not REDEEMED (R81). -/
def State.refundAmount (s : State) (x : Sale) : Nat :=
  x.seatPart + (x.serials.map (fun v => if s.isRedeemed v then 0 else ((s.voucher v).map (·.value)).getD 0)).sum

/-- The unstarted orders of a sale removed from one lane (R118). -/
def removeUnstarted (n : Nat) (s : State) (st : Station) : State :=
  modifyLane st (fun l => { l with queue := l.queue.filter (fun o => !(o.isQueued && decide (o.sale = n))) }) s

/-- The unstarted orders of a sale in all lanes. -/
def State.unstarted (s : State) (n : Nat) : Nat :=
  ((List.finRange 8).map (fun st => (s.lane st).queue.countP (fun o => o.isQueued && decide (o.sale = n)))).sum

/-- The unstarted orders of a sale leave every lane, and its outstanding count falls by their number; no PRINT-DONE follows
(R118, R157). -/
def removeOrders (n : Nat) (s : State) : State :=
  modifySale n (fun y => { y with outstanding := y.outstanding - s.unstarted n })
    ((List.finRange 8).foldl (removeUnstarted n) s)

/-- The steps of R117 in order. -/
def takeRefund (tag : Tag) (n : Nat) (x : Sale) (s : State) : State :=
  let amount := s.refundAmount x
  let voided := x.serials.countP s.voidable
  let redeemed := x.serials.countP s.isRedeemed
  let s2 := x.seats.foldl (fun s l => mapSeats l.ref.slot [refPos l.ref] Seat.refund s) s
  let s3 := x.serials.foldl (fun s v => voidVoucher v s) s2
  let s5 := writeFree (some n) amount (.refund x.origin voided redeemed) (removeOrders n s3)
  replySite tag .ok [.refundAmount amount, .voided voided, .leftRedeemed redeemed]
    (modifySale n (fun y => { y with state := .refunded amount }) s5)

/-- REFUND (R116, R117). -/
def refund (tag : Tag) (n : Nat) (s : State) : State :=
  if n = 0 then replySite tag .badField [] s
  else match s.sale n with
    | none => replySite tag .notFound [] s
    | some x => match x.state with
      | .refunded a => replySite tag .already [.refundAmount a] s
      | .active =>
        if x.capture = .pending then replySite tag .busy [] s
        else if s.journalFree = 0 then replySite tag .journalFull [] s
        else takeRefund tag n x s

def execRefund (tag : Tag) (sale : Nat) (s : State) : Host.Outcome State Fault Refusal := .next (refund tag sale s)

/-- QUERY-SALE (R119). -/
def querySale (tag : Tag) (n : Nat) (s : State) : State :=
  if n = 0 then replySite tag .badField [] s
  else match s.sale n with
    | none => replySite tag .notFound [] s
    | some x => replySite tag .ok
        [.saleNumber n, .saleRecord x,
          .saleVouchers (x.serials.filterMap (fun v => (s.voucher v).map (fun y => ⟨v, y.value, y.state.name, y.gen⟩))),
          .saleSeats (x.seats.map (fun l => (s.seatOf l.ref).map (fun y => (y.state.name, y.gen))))] s

def execQuerySale (tag : Tag) (sale : Nat) (s : State) : Host.Outcome State Fault Refusal := .next (querySale tag sale s)

/-! ### REDEEM -/

/-- A wrong code: the count rises, and the third locks the voucher (R174, R175). -/
def wrongCode (st : Station) (tag : Tag) (serial : Nat) (v : Voucher) (s : State) : State :=
  let c := v.wrong + 1
  if c < Config.maxWrongCodes then
    replyStation st tag .badCode [.wrongCount c] (putVoucher serial { v with wrong := c } s)
  else
    emit .site (.voucherLocked serial v.item v.sale st)
      (replyStation st tag .badCode [.wrongCount c, .nowLocked] (putVoucher serial { v with wrong := c, state := .locked } s))

/-- A redemption (R173, row 8). -/
def takeRedeem (st : Station) (tag : Tag) (serial : Nat) (v : Voucher) (s : State) : State :=
  replyStation st tag .ok
    [.serial serial, .itemCode v.item, .itemName ((s.item v.item).map (·.name)), .startTime (s.startOf v.slot)]
    (writeFree (some v.sale) v.value (.redemption serial v.item st)
      (putVoucher serial { v with state := .redeemed st s.timeBase } s))

/-- REDEEM past the link unit's checks (R173, Table 9-7). -/
def redeem (st : Station) (tag : Tag) (serial code : Nat) (s : State) : State :=
  if serialOk serial && codeOk code then
    match s.voucher serial with
    | none => replyStation st tag .notFound [] s
    | some v => match v.state with
      | .printPending => replyStation st tag .notIssued [] s
      | .void => replyStation st tag .void [] s
      | .redeemed till t => replyStation st tag .already [.till till, .time t] s
      | .locked => replyStation st tag .locked [] s
      | .issued =>
        if code ≠ v.code then wrongCode st tag serial v s
        else if s.journalFree = 0 then replyStation st tag .journalFull [] s
        else takeRedeem st tag serial v s
  else replyStation st tag .badField [] s

def execRedeem (st : Station) (tag : Tag) (serial code : Nat) (s : State) : Host.Outcome State Fault Refusal :=
  .next (stationRequest st tag .redeem (redeem st tag serial code) s)

end Sys2Proof.Machine
end

