-- ==== Sys2Proof/Machine/Payment.lean ====
section
/-! DEFINITION. The payment sequencer (chapter 5): PAY, the terminal's records, cancels, deadlines, reversal, capture and the
loss of a terminal line. -/

namespace Sys2Proof.Machine

/-! ### Shared operations -/

/-- The sale reference of the payment in flight at a station (R85). -/
def State.saleRef (s : State) (st : Station) : SaleRef := ⟨st, (s.pay st).count⟩

/-- The station's PAY in progress is answered, and its request in progress ends (R183). -/
def answerPay (st : Station) (c : Code) (vs : List Val) (s : State) : State :=
  match s.request st with
  | some r => setRequest st none (replyStation st r.tag c vs s)
  | none => s

/-- The phase of the holds of a station's basket changed in one step (R38). -/
def setHoldPhases (st : Station) (ph : HoldPhase) (s : State) : State :=
  (s.basket st).holds.foldl (fun s n => match s.hold n with
    | some h => putHold n { h with phase := ph } s
    | none => s) s

/-- What remains of a payment's reservation set is released, each block judging its own notice (R89, R94 step 1). -/
def releaseReservations (st : Station) (p : Payment) (s : State) : State :=
  let s1 := if p.resSale then { s with salesReserved := s.salesReserved - 1 } else s
  let s2 := modifyLane st (fun l => { l with reservedRoom := l.reservedRoom - p.resLane }) s1
  if p.resJournal then judgeJournal { s2 with journalReserved := s2.journalReserved - 1 } else s2

/-- The station is told an outcome it has not been given yet (R94 step 5). -/
def tellOutcome (st : Station) (p : Payment) (o : Option PayOutcome) (s : State) : State :=
  match o with
  | some x => if p.reported then s else emit (.station st) (.payOutcome (s.saleRef st) x) s
  | none => s

/-- The payment ends without a sale (R94): reservations, attempt count, holds, basket, outcome, context. -/
def endWithoutSale (st : Station) (p : Payment) (o : Option PayOutcome) (s : State) : State :=
  let s1 := releaseReservations st p s
  let s2 := if p.asked then modifyBasket st (fun b => { b with attempts := b.attempts + 1 }) s1 else s1
  let s3 := settleBasket st (setHoldPhases st .standing s2)
  setPayment st none (tellOutcome st p o s3)

/-- The reason of a REVERSAL record by abort cause (R102). -/
def reversalReason : Option AbortCause → ReversalReason
  | some .timeLimit => .timedOut
  | some .cancel => .cancelled
  | none => .cancelled

/-- The outcome that an abort's end carries for the station: CANCELLED when the abort cause is CANCEL (R99, R101, R102). -/
def abortOutcomeOf : Option AbortCause → Option PayOutcome
  | some .cancel => some .cancelled
  | some .timeLimit => none
  | none => none

/-- A REVERSAL record written into the payment's journal entry, and the payment then ended without a sale (R103, R94). -/
def reverseAndEnd (st : Station) (p : Payment) (confirmed : Bool) (reason : ReversalReason) (o : Option PayOutcome)
    (s : State) : State :=
  let s1 := writeReserved none p.amount (.reversal st (s.saleRef st) confirmed reason p.auth) s
  endWithoutSale st { p with resJournal := false } o s1

/-- ABORT sent, with the 10 s step deadline, under an abort cause; the context becomes ABORTING (R90, R96, R98). -/
def sendAbort (st : Station) (cause : AbortCause) (s : State) : State :=
  emit (.terminal st) .abort
    (modifyPayment st (fun p =>
      { p with phase := .aborting, limit := none, cause := some cause, step := some (deadlineIn s Config.payStep) }) s)

/-- The end of capture: the capture state, the SALE record from the reserved entry, and the context IDLE (R104).  The sale of
a CAPTURING context stands in the table (R9); were it gone, the reservations would only be released. -/
def endCapture (st : Station) (p : Payment) (c : CaptureState) (s : State) : State :=
  match p.sale.bind (fun n => (s.sale n).map (fun x => (n, x))) with
  | none => setPayment st none (releaseReservations st p s)
  | some (n, x) =>
    let x' := { x with capture := c }
    setPayment st none (writeReserved (some n) x'.total (saleEntry x') (putSale n x' s))

/-! ### PAY -/

/-- The refusal of a PAY, if a check of Table 5-5 fails (R87). -/
def payRefusal (st : Station) (s : State) : Option (Code × List Val) :=
  let b := s.basket st
  if !s.payIdle st then some (.busy, [.payState (s.payState st)])
  else match s.gathering st with
    | some (n, _) => some (.gathering, [.holdNumber n])
    | none =>
      if s.basketState st = .empty then some (.empty, [])
      else match b.summary with
        | none => some (.notPriced, [.madeStale b.stale])
        | some m =>
          if m.total = 0 then some (.zeroTotal, [])
          else if b.attempts = Config.maxAttempts then some (.attempts, [])
          else if s.isLost (.terminal st) then some (.lineDown, [])
          else if s.salesFree = 0 then some (.salesFull, [])
          else if s.journalFree = 0 then some (.journalFull, [])
          else if (s.lane st).room < b.chainLength then some (.laneFull, [.chainLength b.chainLength])
          else none

/-- The payment a PAY starts (R88). -/
def newPayment (s : State) (amount room : Nat) : Payment :=
  { phase := .selecting, amount := amount, limit := none, step := some (deadlineIn s Config.selectStep), asked := false,
    cause := none, auth := none, sale := none, resSale := true, resJournal := true, resLane := room, reported := false }

/-- A PAY accepted, in one step (R85, R88, R89). -/
def acceptPay (st : Station) (tag : Tag) (s : State) : State :=
  let b := s.basket st
  let amount := (b.summary.map (·.total)).getD 0
  let s1 := judgeJournal { s with salesReserved := s.salesReserved + 1, journalReserved := s.journalReserved + 1 }
  let s2 := modifyLane st (fun l => { l with reservedRoom := l.reservedRoom + b.chainLength }) s1
  let s3 := setPay st
    { count := succWrap Config.maxPayCount (s.pay st).count, current := some (newPayment s amount b.chainLength) } s2
  setRequest st (some ⟨.pay, tag⟩)
    (emit (.terminal st) (.select (s.station st).addr) (setHoldPhases st .paying s3))

/-- PAY past the link unit's checks (R87, R88). -/
def pay (st : Station) (tag : Tag) (s : State) : State :=
  match payRefusal st s with
  | some (c, vs) => replyStation st tag c vs s
  | none => acceptPay st tag s

def execPay (st : Station) (tag : Tag) (s : State) : Host.Outcome State Fault Refusal :=
  .next (stationRequest st tag .pay (pay st tag) s)

/-! ### CANCEL-PAY -/

/-- CANCEL-PAY past the link unit's checks, by context state (R96, Table 5-8). -/
def cancelPay (st : Station) (tag : Tag) (s : State) : State :=
  match s.payment st with
  | none => replyStation st tag .noPayment [] s
  | some p => match p.phase with
    | .selecting =>
      replyStation st tag .aborting []
        (modifyPayment st (fun p => { p with cause := some (p.cause.getD .cancel) }) s)
    | .authorising => replyStation st tag .aborting [] (sendAbort st .cancel s)
    | .aborting | .reversing => replyStation st tag .aborting [] s
    | .capturing => replyStation st tag .tooLate (p.sale.toList.map Val.saleNumber) s

def execCancelPay (st : Station) (tag : Tag) (s : State) : Host.Outcome State Fault Refusal :=
  .next (stationRequest st tag .cancelPay (cancelPay st tag) s)

/-! ### Selection -/

/-- A selection that does not succeed: the PAY is answered with the sale reference of R85, which stands first (log 24), and
the fields of Table 5-7, and the payment ends without a sale (R91). -/
def selectionFails (st : Station) (p : Payment) (c : Code) (vs : List Val) (s : State) : State :=
  endWithoutSale st p none (answerPay st c (.saleRef (s.saleRef st) :: vs) s)

/-- The selection succeeds without a cancel: AUTHORISE, the time limit, and STARTED (R90). -/
def sendAuthorise (st : Station) (p : Payment) (s : State) : State :=
  let ref := s.saleRef st
  answerPay st .started [.saleRef ref, .amount p.amount, .timeLimit s.limits.payTime]
    (emit (.terminal st) (.authorise p.amount ref)
      (setPayment st (some { p with
        phase := .authorising, step := none, asked := true, limit := some (deadlineIn s (s.limits.payTime * 1000)) }) s))

/-- The selection succeeds after a cancel: ABORT in place of AUTHORISE, and CANCELLED (R90). -/
def abortSelection (st : Station) (c : AbortCause) (s : State) : State :=
  answerPay st .cancelled [.saleRef (s.saleRef st)]
    (modifyPayment st (fun p => { p with reported := true }) (sendAbort st c s))

/-- SELECTED (R83, R90, R91). -/
def selectedRecord (st : Station) (echo : Chars 4) (status : SelectStatus) (s : State) : State :=
  match s.payment st with
  | none => s
  | some p =>
    if p.phase = .selecting then
      if echo ≠ (s.station st).addr then selectionFails st p .wrongTerminal [.echo echo] s
      else if status ≠ .ready then selectionFails st p .terminalBusy [.selectStatus status] s
      else match p.cause with
        | none => sendAuthorise st p s
        | some c => abortSelection st c s
    else s

def execSelected (st : Station) (echo : Chars 4) (status : SelectStatus) (s : State) : Host.Outcome State Fault Refusal :=
  .next (selectedRecord st echo status s)

/-- The 2 s step deadline in SELECTING is reached (R91). -/
def selectStepReached (st : Station) (s : State) : State :=
  match s.payment st with
  | none => s
  | some p => if p.phase = .selecting ∧ expires p.step then selectionFails st p .lineDown [] s else s

def execSelectStepDeadline (st : Station) (s : State) : Host.Outcome State Fault Refusal := .next (selectStepReached st s)

/-! ### Authorisation and abort -/

/-- PROGRESS, relayed in AUTHORISING (R83, R92). -/
def progressRecord (st : Station) (stage : PayStage) (s : State) : State :=
  match s.payment st with
  | none => s
  | some p => if p.phase = .authorising then emit (.station st) (.payProgress (s.saleRef st) stage) s else s

def execProgress (st : Station) (stage : PayStage) (s : State) : Host.Outcome State Fault Refusal :=
  .next (progressRecord st stage s)

/-- An approval taken in AUTHORISING: the commit, CAPTURE, and PAY-OUTCOME APPROVED; the lane may then request the mover
(R93, R112). -/
def approve (st : Station) (p : Payment) (auth : Auth) (s : State) : State :=
  let n := s.freshSale
  let s1 := commit st auth p.resLane s
  let s2 := setPayment st (some { p with
    phase := .capturing, limit := none, step := some (deadlineIn s Config.payStep), auth := some auth, sale := some n,
    resSale := false, resLane := 0, reported := true }) s1
  laneComes st
    (emit (.station st) (.payOutcome (s.saleRef st) (.approved n auth.tail))
      (emit (.terminal st) (.capture (some auth.code)) s2))

/-- An approval taken in ABORTING is sent back (R100). -/
def reverseApproval (st : Station) (p : Payment) (auth : Auth) (s : State) : State :=
  emit (.terminal st) (.reverse (some auth.code))
    (setPayment st (some { p with
      phase := .reversing, auth := some auth, step := some (deadlineIn s Config.payStep) }) s)

/-- The outcome of AUTHORISING for the station, when no approval (R95). -/
def outcomeOf : TermOutcome → Option PayOutcome
  | .approved _ _ => none
  | .declined r => some (.declined r)
  | .cancelled => some .cancelled
  | .error => some .error

/-- An OUTCOME record, taken by the state of the context (R83, Table 5-3): in AUTHORISING by R93 and R95, in ABORTING by R99
and R100. -/
def outcomeRecord (st : Station) (o : TermOutcome) (s : State) : State :=
  match s.payment st with
  | none => s
  | some p => match p.phase with
    | .authorising => match o with
      | .approved code tail => approve st p ⟨code, tail⟩ s
      | .declined _ | .cancelled | .error => endWithoutSale st p (outcomeOf o) s
    | .aborting => match o with
      | .approved code tail => reverseApproval st p ⟨code, tail⟩ s
      | .declined _ | .cancelled | .error => endWithoutSale st p (abortOutcomeOf p.cause) s
    | .selecting | .capturing | .reversing => s

def execOutcome (st : Station) (o : TermOutcome) (s : State) : Host.Outcome State Fault Refusal :=
  .next (outcomeRecord st o s)

def execAbortOutcome (st : Station) (o : TermOutcome) (s : State) : Host.Outcome State Fault Refusal :=
  .next (outcomeRecord st o s)

/-- The time limit is reached in AUTHORISING: ABORT, and the station is told TIMED_OUT (R98). -/
def timeLimitReached (st : Station) (s : State) : State :=
  match s.payment st with
  | none => s
  | some p =>
    if p.phase = .authorising ∧ expires p.limit then
      emit (.station st) (.payOutcome (s.saleRef st) .timedOut)
        (modifyPayment st (fun p => { p with reported := true }) (sendAbort st .timeLimit s))
    else s

def execTimeLimit (st : Station) (s : State) : Host.Outcome State Fault Refusal := .next (timeLimitReached st s)

/-- The step deadline in ABORTING is reached (R101). -/
def abortStepReached (st : Station) (s : State) : State :=
  match s.payment st with
  | none => s
  | some p =>
    if p.phase = .aborting ∧ expires p.step then
      if p.asked then reverseAndEnd st p false .noAnswer (abortOutcomeOf p.cause) s
      else endWithoutSale st p none s
    else s

def execAbortStepDeadline (st : Station) (s : State) : Host.Outcome State Fault Refusal := .next (abortStepReached st s)

/-! ### Reversal and capture -/

/-- REVERSED (R83, R102). -/
def reversedRecord (st : Station) (s : State) : State :=
  match s.payment st with
  | none => s
  | some p =>
    if p.phase = .reversing then reverseAndEnd st p true (reversalReason p.cause) (abortOutcomeOf p.cause) s else s

def execReversed (st : Station) (s : State) : Host.Outcome State Fault Refusal := .next (reversedRecord st s)

/-- The step deadline in REVERSING is reached (R102). -/
def reverseStepReached (st : Station) (s : State) : State :=
  match s.payment st with
  | none => s
  | some p =>
    if p.phase = .reversing ∧ expires p.step then
      reverseAndEnd st p false (reversalReason p.cause) (abortOutcomeOf p.cause) s
    else s

def execReverseStepDeadline (st : Station) (s : State) : Host.Outcome State Fault Refusal := .next (reverseStepReached st s)

/-- CAPTURED (R83, R104). -/
def capturedRecord (st : Station) (s : State) : State :=
  match s.payment st with
  | none => s
  | some p => if p.phase = .capturing then endCapture st p .confirmed s else s

def execCaptured (st : Station) (s : State) : Host.Outcome State Fault Refusal := .next (capturedRecord st s)

/-- The step deadline in CAPTURING is reached (R104). -/
def captureStepReached (st : Station) (s : State) : State :=
  match s.payment st with
  | none => s
  | some p => if p.phase = .capturing ∧ expires p.step then endCapture st p .unconfirmed s else s

def execCaptureStepDeadline (st : Station) (s : State) : Host.Outcome State Fault Refusal := .next (captureStepReached st s)

/-! ### Loss of the terminal line -/

/-- The loss of a station's terminal line, by context state (R106, Table 5-12). -/
def terminalLost (st : Station) (s : State) : State :=
  match s.payment st with
  | none => s
  | some p => match p.phase with
    | .selecting => selectionFails st p .lineDown [] s
    | .authorising => reverseAndEnd st p false .lineLost (some .lineLost) s
    | .aborting =>
      if p.asked then reverseAndEnd st p false .lineLost (some .lineLost) s
      else endWithoutSale st p (some .lineLost) s
    | .reversing => reverseAndEnd st p false .lineLost (abortOutcomeOf p.cause) s
    | .capturing => endCapture st p .unconfirmed s

end Sys2Proof.Machine
end

