-- ==== Sys2Proof/Machine/Screenings.lean ====
section
/-! DEFINITION. The seat store (chapter 1): loading, stopping and retiring screenings, blocking seats, and the seat queries. -/

namespace Sys2Proof.Machine

/-! ### Loading -/

/-- BEGIN-SCREENING (R3). -/
def beginScreening (tag : Tag) (f : BeginFields) (s : State) : State :=
  match beginFault f with
  | some g => replySite tag .badField [.field g] s
  | none => match s.screening f.slot with
    | some sc => replySite tag .slotInUse [.slotState (s.slotState f.slot), .screeningCode sc.code] s
    | none =>
      if s.poolFree < f.declared then replySite tag .storeFull [.poolFree s.poolFree] s
      else
        let s' := putScreening f.slot
          { phase := .loading, code := f.code, auditorium := f.auditorium, start := f.start, band := f.band,
            gapRule := f.gapRule, fares := f.fares, declared := f.declared, loaded := 0, runCount := 0, seats := [] } s
        replySite tag .ok [.poolFree s'.poolFree] s'

def execBeginScreening (tag : Tag) (f : BeginFields) (s : State) : Host.Outcome State Fault Refusal :=
  .next (beginScreening tag f s)

/-- A seat as SEAT-ROW loads it: HOUSE starts BLOCKED, any other kind FREE (R5). -/
def loadedSeat (row runId : Nat) (r : RunSpec) (k : SeatKind) (i : Nat) : Seat :=
  { row := row, num := r.first + i, runId := runId, runPos := i + 1, cls := Fin.ofNat 8 r.cls, kind := k,
    state := if k = .house then .blocked else .free, gen := 0, mark := false }

/-- The seats of a run, in position order (R5). -/
def runSeats (row runId : Nat) (r : RunSpec) : List Seat :=
  (r.kinds.filterMap id).zipIdx.map (fun e => loadedSeat row runId r e.1 e.2)

/-- A seat put into its place in ascending row and seat number. -/
def insertSeat (x : Seat) : List Seat → List Seat
  | [] => [x]
  | y :: t => if x.row < y.row ∨ (x.row = y.row ∧ x.num < y.num) then x :: y :: t else y :: insertSeat x t

/-- The seats of a row's runs, run ids going on from `runCount` in the order of the record (R5). -/
def rowSeats (row runCount : Nat) (runs : List RunSpec) : List Seat :=
  runs.zipIdx.flatMap (fun e => runSeats row (runCount + 1 + e.2) e.1)

/-- The seats of a record's runs (R4). -/
def rowCount (runs : List RunSpec) : Nat := (runs.map (·.count)).sum

/-- SEAT-ROW taken (R5). -/
def takeSeatRow (tag : Tag) (slot row : Nat) (runs : List RunSpec) (sc : Screening) (s : State) : State :=
  let loaded := sc.loaded + rowCount runs
  replySite tag .ok [.runIds ((List.range runs.length).map (fun i => sc.runCount + 1 + i)), .loadedCount loaded]
    (putScreening slot
      { sc with
        loaded := loaded, runCount := sc.runCount + runs.length,
        seats := (rowSeats row sc.runCount runs).foldl (fun l x => insertSeat x l) sc.seats } s)

/-- SEAT-ROW (R4, R5). -/
def seatRow (tag : Tag) (slot row : Nat) (runs : List RunSpec) (s : State) : State :=
  if !(slotOk slot && rowOk row && within 1 8 runs.length && runs.all runOk) then replySite tag .badField [] s
  else match s.screening slot with
    | none => replySite tag .notLoading [.slotState .empty] s
    | some sc =>
      if sc.phase ≠ .loading then replySite tag .notLoading [.slotState (s.slotState slot)] s
      else if sc.seats.any (fun x => decide (x.row = row)) then replySite tag .duplicateRow [] s
      else if hasRepeat (runs.flatMap runNumbers) then replySite tag .badField [] s
      else if Config.runLimit < sc.runCount + runs.length then replySite tag .runLimit [.runCount sc.runCount] s
      else if sc.declared < sc.loaded + rowCount runs then
        replySite tag .countMismatch [.declaredCount sc.declared, .loadedCount sc.loaded] s
      else takeSeatRow tag slot row runs sc s

def execSeatRow (tag : Tag) (slot row : Nat) (runs : List RunSpec) (s : State) : Host.Outcome State Fault Refusal :=
  .next (seatRow tag slot row runs s)

/-- END-LOAD (R6). -/
def endLoad (tag : Tag) (slot : Nat) (s : State) : State :=
  if !slotOk slot then replySite tag .badField [] s
  else match s.screening slot with
    | none => replySite tag .notFound [] s
    | some sc =>
      if sc.phase ≠ .loading then replySite tag .notLoading [.slotState (s.slotState slot)] s
      else if sc.loaded = sc.declared then replySite tag .ok [] (putScreening slot { sc with phase := .opened } s)
      else replySite tag .countMismatch [.declaredCount sc.declared, .loadedCount sc.loaded] s

def execEndLoad (tag : Tag) (slot : Nat) (s : State) : Host.Outcome State Fault Refusal := .next (endLoad tag slot s)

/-! ### Stopping and retiring -/

/-- STOP-SALES (R7). -/
def stopSales (tag : Tag) (slot : Nat) (s : State) : State :=
  if !slotOk slot then replySite tag .badField [] s
  else match s.screening slot with
    | none => replySite tag .notFound [] s
    | some sc => match sc.phase with
      | .loading => replySite tag .notOpen [] s
      | .opened => replySite tag .ok [] (putScreening slot { sc with phase := .stopped } s)
      | .stopped => replySite tag .already [] s

def execStopSales (tag : Tag) (slot : Nat) (s : State) : Host.Outcome State Fault Refusal := .next (stopSales tag slot s)

/-- Is the slot the only slot that is not EMPTY (R9, R10)? -/
def State.lastSlot (s : State) (slot : Nat) : Bool := s.screenings.all (fun e => decide (e.1 = slot))

/-- Does a slot's retirement free a sale or voucher of this slot, which is absent for one with no seat (R10, R120, R178)? -/
def State.retires (s : State) (slot : Nat) (of : Option Nat) : Bool :=
  match of with
  | some n => decide (n = slot)
  | none => s.lastSlot slot

/-- The holds that list a seat of the screening (R9). -/
def State.holdsIn (s : State) (slot : Nat) : Nat := s.holds.countP (fun e => decide (e.2.slot = slot))

/-- The captures that the retirement of a slot waits for (R9). -/
def State.capturesIn (s : State) (slot : Nat) : Nat :=
  s.sales.countP (fun e => s.retires slot e.2.slot && decide (e.2.capture = .pending))

/-- Is an order one of a sale that the retirement of a slot frees (R9)? -/
def State.orderIn (s : State) (slot : Nat) (o : Order) : Bool :=
  match s.sale o.sale with
  | some x => s.retires slot x.slot
  | none => false

/-- The print orders that the retirement of a slot waits for (R9). -/
def State.ordersIn (s : State) (slot : Nat) : Nat :=
  ((List.finRange 8).map (fun st => (s.lane st).queue.countP (s.orderIn slot))).sum

/-- The retirement of an OPEN or STOPPED slot, taken whole (R10, R120, R178). -/
def takeRetire (tag : Tag) (slot : Nat) (s : State) : State :=
  let sales := s.sales.filter (fun e => !s.retires slot e.2.slot)
  let vouchers := s.vouchers.filter (fun e => !s.retires slot e.2.slot)
  let s' := delScreening slot { s with sales := sales, vouchers := vouchers }
  replySite tag .ok
    [.salesFreed (s.sales.length - sales.length), .vouchersFreed (s.vouchers.length - vouchers.length), .poolFree s'.poolFree] s'

/-- RETIRE-SCREENING (R8, R9, R10). -/
def retireScreening (tag : Tag) (slot : Nat) (s : State) : State :=
  if !slotOk slot then replySite tag .badField [] s
  else match s.screening slot with
    | none => replySite tag .notFound [] s
    | some sc => match sc.phase with
      | .loading => replySite tag .ok [.poolFree (delScreening slot s).poolFree] (delScreening slot s)
      | .opened | .stopped =>
        if s.holdsIn slot = 0 ∧ s.capturesIn slot = 0 ∧ s.ordersIn slot = 0 then takeRetire tag slot s
        else replySite tag .busy
          [.holdsFound (s.holdsIn slot), .capturesFound (s.capturesIn slot), .ordersFound (s.ordersIn slot)] s

def execRetireScreening (tag : Tag) (slot : Nat) (s : State) : Host.Outcome State Fault Refusal :=
  .next (retireScreening tag slot s)

/-! ### Blocking -/

/-- What BLOCK-SEATS does to a seat by its state (Table in R15). -/
def blockSeat (x : Seat) : Seat × SeatResult :=
  match x.state with
  | .free => ({ x with state := .blocked }, .blocked)
  | .pending _ | .held _ => ({ x with mark := true }, .marked)
  | .sold _ | .issued _ => (x, .sold)
  | .blocked => (x, .already)

/-- What UNBLOCK-SEATS does to a seat by its state (Table in R16). -/
def unblockSeat (x : Seat) : Seat × SeatResult :=
  match x.state with
  | .blocked => ({ x with state := .free }, .freed)
  | .pending _ | .held _ => if x.mark then ({ x with mark := false }, .unmarked) else (x, .notBlocked)
  | .free => (x, .notBlocked)
  | .sold _ | .issued _ => (x, .sold)

/-- Seats treated in list order, each against the state left by those before it (R15, R16). -/
def treatSeats (act : Seat → Seat × SeatResult) (slot : Nat) : List SeatPos → State → State × List SeatResult
  | [], s => (s, [])
  | p :: rest, s =>
    match s.seat slot p with
    | none =>
      let r := treatSeats act slot rest s
      (r.1, .noSeat :: r.2)
    | some x =>
      let r := treatSeats act slot rest (mapSeats slot [p] (fun y => (act y).1) s)
      (r.1, (act x).2 :: r.2)

/-- BLOCK-SEATS and UNBLOCK-SEATS share their refusals (R15, R16). -/
def treatSlot (act : Seat → Seat × SeatResult) (tag : Tag) (slot : Nat) (ps : List SeatPos) (s : State) : State :=
  if !(slotOk slot && within 1 20 ps.length) then replySite tag .badField [] s
  else match s.screening slot with
    | none => replySite tag .notFound [] s
    | some sc =>
      if sc.phase = .loading then replySite tag .notOpen [] s
      else
        let r := treatSeats act slot ps s
        replySite tag .ok [.seatResults r.2] r.1

def execBlockSeats (tag : Tag) (slot : Nat) (seats : List SeatPos) (s : State) : Host.Outcome State Fault Refusal :=
  .next (treatSlot blockSeat tag slot seats s)

def execUnblockSeats (tag : Tag) (slot : Nat) (seats : List SeatPos) (s : State) : Host.Outcome State Fault Refusal :=
  .next (treatSlot unblockSeat tag slot seats s)

/-! ### Queries -/

/-- A seat's owner as QUERY-SEATS reports it (R20). -/
def State.ownerOf (s : State) (x : Seat) : SeatOwner :=
  match x.state with
  | .pending n | .held n => .hold n ((s.hold n).map (·.owner))
  | .sold n | .issued n => .sale n
  | .free | .blocked => .absent

/-- A seat's entry in a QUERY-SEATS reply (R20). -/
def State.seatEntry (s : State) (x : Seat) : SeatEntry :=
  { num := x.num, runId := x.runId, runPos := x.runPos, cls := x.cls, kind := x.kind, state := x.state.name,
    owner := s.ownerOf x, gen := x.gen, mark := x.mark }

/-- QUERY-SEATS (R20). -/
def querySeats (tag : Tag) (slot row first last : Nat) (s : State) : State :=
  if !(slotOk slot && rowOk row && seatNumOk first && seatNumOk last && decide (first ≤ last)) then
    replySite tag .badField [] s
  else match s.screening slot with
    | none => replySite tag .notFound [] s
    | some sc =>
      let found := sc.seats.filter (fun x => decide (x.row = row) && within first last x.num)
      replySite tag .ok
        [.slotState (s.slotState slot), .screeningCode sc.code, .declaredCount sc.declared, .loadedCount sc.loaded,
          .runCount sc.runCount, .seatEntries ((found.take Config.querySeats).map s.seatEntry),
          .nextSeat (((found.drop Config.querySeats).head?.map (·.num)).getD 0)] s

def execQuerySeats (tag : Tag) (slot row first last : Nat) (s : State) : Host.Outcome State Fault Refusal :=
  .next (querySeats tag slot row first last s)

/-- A seat as a station sees it (R18). -/
def State.viewOf (s : State) (st : Station) (x : Seat) : SeatView :=
  match x.state with
  | .free => .free
  | .pending n | .held n => if (s.hold n).map (·.owner) = some (.station st) then .mine else .taken
  | .sold _ | .issued _ => .taken
  | .blocked => .blocked

/-- The seats of a row. -/
def Screening.row (sc : Screening) (row : Nat) : List Seat := sc.seats.filter (fun x => decide (x.row = row))

/-- The runs of a row as a station sees them, in ascending first seat number, each with its seats in position order (R18). -/
def State.rowView (s : State) (st : Station) (sc : Screening) (row : Nat) : List MapRun :=
  ((sc.row row).filter (fun x => decide (x.runPos = 1))).map (fun x =>
    let run := (sc.row row).filter (fun y => decide (y.runId = x.runId))
    { row := row, first := x.num, count := run.length, runId := x.runId, cls := x.cls,
      seats := run.map (fun y => (y.kind, s.viewOf st y)) })

/-- The rows a QUERY-MAP reply carries whole, and its next-row field (R19).  `used` counts the seats included so far. -/
def mapRows (sc : Screening) : List Nat → Nat → List Nat × Nat
  | [], _ => ([], 0)
  | r :: rest, used =>
    let n := (sc.row r).length
    if n = 0 then mapRows sc rest used
    else if used + n ≤ Config.mapSeats then
      let m := mapRows sc rest (used + n)
      (r :: m.1, m.2)
    else ([], r)

/-- QUERY-MAP past the link unit's checks (R18, R19). -/
def queryMap (st : Station) (tag : Tag) (slot first last : Nat) (s : State) : State :=
  if !(slotOk slot && rowOk first && rowOk last && decide (first ≤ last)) then replyStation st tag .badField [] s
  else match s.screening slot with
    | none => replyStation st tag .closed [] s
    | some sc =>
      if sc.phase = .loading then replyStation st tag .closed [] s
      else
        let m := mapRows sc ((List.range (last + 1 - first)).map (fun i => first + i)) 0
        replyStation st tag .ok
          [.screeningCode sc.code, .auditorium sc.auditorium, .startTime (some sc.start), .slotState (s.slotState slot),
            .gapRule sc.gapRule, .mapRuns (m.1.flatMap (s.rowView st sc)), .nextRow m.2] s

def execQueryMap (st : Station) (tag : Tag) (slot first last : Nat) (s : State) : Host.Outcome State Fault Refusal :=
  .next (stationRequest st tag .queryMap (queryMap st tag slot first last) s)

end Sys2Proof.Machine
end

