-- ==== Sys2Proof/WellFormed.lean ====
section
/-! DEFINITION. Which commands can come about at all: values that the fields of a record can carry and events that the links
can bring.  A field that a rule refuses BAD_FIELD or clamps may carry any value and is not checked here. -/

namespace Sys2Proof

/-- The lines that carry trains: the site link and the station links (R181). -/
def Line.isLink : Line → Bool
  | .site => true
  | .station _ => true
  | .terminal _ => false
  | .printer _ => false

/-- A sale number field names a number of Table 0-4, or 0, which the rules refuse by name (R116, R119, R159). -/
def saleField (n : Nat) : Bool := n ≤ Config.maxSaleNumber

/-- A length byte that R180 puts in error: below 2 or above 252. -/
def FrameFault.lengthInError : FrameFault → Bool
  | .badLength len => decide (len.toNat < 2) || decide (252 < len.toNat)
  | .badCheck _ _ => true
  | .breakBegan => true

/-- Well-formed commands. -/
def Instr.wf : Instr → Bool
  | .refund _ sale => saleField sale
  | .querySale _ sale => saleField sale
  | .reprint _ sale _ _ => saleField sale
  | .journalRelease _ seq => seq ≤ Config.maxSequence
  | .fault _ _ k => k ≤ Config.burstLines
  | .frameError _ cause => cause.lengthInError
  | .trainTimeout line => line.isLink
  | .trainInterrupted line _ _ body => line.isLink && decide (body.length ≤ Config.fullBody)
  | .powerOn | .reset _ | .beginScreening _ _ | .seatRow _ _ _ _ | .endLoad _ _ | .stopSales _ _ | .retireScreening _ _
  | .blockSeats _ _ _ | .unblockSeats _ _ _ | .querySeats _ _ _ _ _ | .queryMap _ _ _ _ _ | .holdSeat _ _ _
  | .holdClose _ _ | .gatheringWindowExpiry _ | .dropHold _ _ _ | .siteHold _ _ _ _ _ | .ownDeadlineExpiry _
  | .siteRelease _ _ _ | .siteSell _ _ _ _ _ | .setCategory _ _ _ _ | .addSnack _ _ _ _ | .removeSnack _ _ _ _
  | .price _ _ | .abandon _ _ | .lapseDeadlineReached _ | .pay _ _ | .cancelPay _ _ | .selected _ _ _
  | .selectStepDeadline _ | .progress _ _ | .outcome _ _ | .timeLimit _ | .abortOutcome _ _ | .abortStepDeadline _
  | .reversed _ | .reverseStepDeadline _ | .captured _ | .captureStepDeadline _ | .journalRead _ | .loadTariff _ _
  | .loadSnacks _ _ | .setAllowance _ _ _ _ _ | .querySnacks _ _ _ | .loadSeed _ _ | .redeem _ _ _ _
  | .unlockVoucher _ _ | .queryVoucher _ _ _ | .collect _ _ _ | .resumePrint _ _ | .accept _ _ _ | .level _ _
  | .cutDone _ | .clear _ | .burstDeadline | .cutDeadline _ | .settlingDeadline _ | .configStation _ _ _ _ _
  | .setLimits _ _ _ _ | .siteStatus _ | .status _ _ | .reject _ _ _ _ | .lineLost _ | .lineRegained _
  | .frameTimeout _ | .recordSent _ | .breakBegins _ | .breakEnds _ => true

end Sys2Proof
end

