-- ==== Sys2Proof/Machine/Wire.lean ====
section
/-! DEFINITION. Frames and trains (10.2): the layout of a frame, the receiver that takes a line's bytes, the joining of trains,
the record a frame or train hands on, and the frames in which the controller's own records leave. -/

namespace Sys2Proof.Machine

/-! ### The layout of a frame (Table 10-2) -/

/-- The bytes a frame's check covers: from the length to the end of the body (R180). -/
def Frame.covered (f : Frame) : List Byte := BitVec.ofNat 8 (f.body.length + 2) :: f.kind :: f.tag :: f.body

/-- The bytes of a frame as they leave: marker, length, kind, tag, body, and the check, high byte first (Table 10-2). -/
def Frame.bytes (f : Frame) : List Byte :=
  Config.marker :: f.covered ++ [(crc16 f.covered).extractLsb' 8 8, (crc16 f.covered).extractLsb' 0 8]

/-- What the bytes taken after a marker amount to (R180). -/
inductive Verdict
  | incomplete
  | bad (cause : FrameFault)
  | good (f : Frame)
  deriving DecidableEq, Repr

/-- The body of a frame and its check judged, for a length in range: `rest` is what stands behind the length byte (R180). -/
def judgeRest (len : Byte) (rest : List Byte) : Verdict :=
  match rest.drop len.toNat, rest with
  | high :: low :: _, kind :: tag :: more =>
    let covered := len :: rest.take len.toNat
    if crc16 covered = high ++ low then .good ⟨kind, tag, more.take (len.toNat - 2)⟩ else .bad (.badCheck covered (high ++ low))
  | _, _ => .incomplete

/-- The bytes of a frame from the length on, judged (R180). -/
def judgeFrame : List Byte → Verdict
  | [] => .incomplete
  | len :: rest =>
    if len.toNat < Config.minLength ∨ Config.maxLength < len.toNat then .bad (.badLength len) else judgeRest len rest

/-! ### The receiver (R180) -/

/-- A byte taken: while hunting, anything but a marker is discarded, and a marker starts a frame; while receiving, the byte
joins the frame. -/
def Receiver.take (b : Byte) : Receiver → Receiver
  | .hunting => if b = Config.marker then .receiving [] 0 else .hunting
  | .receiving bytes _ => .receiving (bytes ++ [b]) 0

/-- What the frame being received amounts to. -/
def Receiver.verdict : Receiver → Verdict
  | .hunting => .incomplete
  | .receiving bytes _ => judgeFrame bytes

/-- Is a frame being received? -/
def Receiver.busy : Receiver → Bool
  | .hunting => false
  | .receiving _ _ => true

/-- The receiver after a run of bytes with none complete before its end. -/
def Receiver.takeAll (bytes : List Byte) (r : Receiver) : Receiver := bytes.foldl (fun r b => r.take b) r

/-- The check-error count raised by 1, staying at 65535 (R180). -/
def LineRec.countError (r : LineRec) : LineRec :=
  { r with errors := if r.errors < Config.maxErrors then r.errors + 1 else r.errors }

/-- A frame in error is discarded with the train it belongs to, and counted; the receiver hunts (R180, R181). -/
def LineRec.dropFrame (r : LineRec) : LineRec := { r.countError with receiver := .hunting, train := none }

/-! ### Records handed on (R181, R182) -/

/-- Is a command a record of a link, with its tag: a request of Table 10-3, or a record answered REJECT? -/
def Instr.onLink (link : Link) (kind : Byte) (tag : Tag) : Instr → Bool
  | .reset t | .beginScreening t _ | .seatRow t _ _ _ | .endLoad t _ | .stopSales t _ | .retireScreening t _
  | .blockSeats t _ _ | .unblockSeats t _ _ | .querySeats t _ _ _ _ | .siteHold t _ _ _ _ | .siteRelease t _ _
  | .siteSell t _ _ _ _ | .refund t _ | .querySale t _ | .journalRead t | .journalRelease t _ | .loadTariff t _
  | .loadSnacks t _ | .setAllowance t _ _ _ _ | .querySnacks t _ _ | .loadSeed t _ | .unlockVoucher t _ | .reprint t _ _ _
  | .configStation t _ _ _ _ | .setLimits t _ _ _ | .siteStatus t => decide (link = .site ∧ t = tag)
  | .queryMap st t _ _ _ | .holdSeat st t _ | .holdClose st t | .dropHold st t _ | .setCategory st t _ _
  | .addSnack st t _ _ | .removeSnack st t _ _ | .price st t | .abandon st t | .pay st t | .cancelPay st t | .redeem st t _ _
  | .queryVoucher st t _ | .collect st t _ | .status st t => decide (link = .station st ∧ t = tag)
  | .resumePrint (.station st) t => decide (link = .station st ∧ t = tag)
  | .resumePrint (.site _) t => decide (link = .site ∧ t = tag)
  | .reject k t _ x => decide (k = link ∧ t = tag ∧ x = kind)
  | .powerOn | .gatheringWindowExpiry _ | .ownDeadlineExpiry _ | .lapseDeadlineReached _ | .selected _ _ _
  | .selectStepDeadline _ | .progress _ _ | .outcome _ _ | .timeLimit _ | .abortOutcome _ _ | .abortStepDeadline _
  | .reversed _ | .reverseStepDeadline _ | .captured _ | .captureStepDeadline _ | .accept _ _ _ | .level _ _ | .cutDone _
  | .fault _ _ _ | .clear _ | .burstDeadline | .cutDeadline _ | .settlingDeadline _ | .lineLost _ | .lineRegained _
  | .frameError _ _ | .frameTimeout _ | .trainTimeout _ | .trainInterrupted _ _ _ _ | .recordSent _ | .breakBegins _
  | .breakEnds _ => false

/-- Is a command a terminal record of a station (Table 5-2)? -/
def Instr.fromTerminal (st : Station) : Instr → Bool
  | .selected m _ _ | .progress m _ | .outcome m _ | .abortOutcome m _ | .reversed m | .captured m => decide (m = st)
  | _ => false

/-- Is a command a printer record of a station (Table 7-2)? -/
def Instr.fromPrinter (st : Station) : Instr → Bool
  | .accept m _ _ | .level m _ | .cutDone m | .fault m _ _ | .clear m => decide (m = st)
  | _ => false

/-- The request that a site record is (Table 10-3).  A sale number and a sequence number stand at 0 or in their ranges of Table 0-4. -/
def siteCommand (k : SiteKind) (tag : Tag) (f : Fields) : Instr :=
  match k with
  | .beginScreening =>
    .beginScreening tag ⟨f.num 0, f.screeningCode, f.num 1, f.num 2, f.num 3, f.flag, f.fares, f.num 4⟩
  | .seatRow => .seatRow tag (f.num 0) (f.num 1) f.runs
  | .endLoad => .endLoad tag (f.num 0)
  | .stopSales => .stopSales tag (f.num 0)
  | .retireScreening => .retireScreening tag (f.num 0)
  | .blockSeats => .blockSeats tag (f.num 0) f.seats
  | .unblockSeats => .unblockSeats tag (f.num 0) f.seats
  | .querySeats => .querySeats tag (f.num 0) (f.num 1) (f.num 2) (f.num 3)
  | .siteHold => .siteHold tag (f.num 0) f.seats (f.num 1) (f.chars 8)
  | .siteRelease => .siteRelease tag (f.num 0) (f.chars 8)
  | .siteSell => .siteSell tag (f.num 0) (f.chars 8) f.numbers f.snacks
  | .refund => .refund tag (f.num 0 % 65536)
  | .querySale => .querySale tag (f.num 0 % 65536)
  | .journalRead => .journalRead tag
  | .journalRelease => .journalRelease tag (f.num 0 % 4294967296)
  | .loadTariff => .loadTariff tag ⟨f.cats, f.num 0, f.num 1, f.num 2, f.num 3, f.num 4⟩
  | .loadSnacks => .loadSnacks tag f.entries
  | .setAllowance => .setAllowance tag (f.num 0) (f.num 1) (f.num 2) f.flag
  | .querySnacks => .querySnacks tag (f.num 0) (f.num 1)
  | .loadSeed => .loadSeed tag (f.num 0)
  | .unlockVoucher => .unlockVoucher tag (f.num 0)
  | .reprint =>
    .reprint tag (f.num 0 % 65536) (match f.seat with | some r => .seat r | none => .voucher (f.num 1)) (f.num 2)
  | .resumePrint => .resumePrint (.site (f.num 0)) tag
  | .configStation => .configStation tag (f.num 0) f.role (f.chars 4) f.flag
  | .setLimits => .setLimits tag (f.num 0) (f.num 1) (f.num 2)
  | .siteStatus => .siteStatus tag
  | .reset => .reset tag

/-- The request that a station record is (Table 10-3). -/
def stationCommand (st : Station) (k : ReqKind) (tag : Tag) (f : Fields) : Instr :=
  let ref : SeatRef := ⟨f.num 0, f.num 1, f.num 2⟩
  match k with
  | .queryMap => .queryMap st tag (f.num 0) (f.num 1) (f.num 2)
  | .holdSeat => .holdSeat st tag ref
  | .holdClose => .holdClose st tag
  | .dropHold => .dropHold st tag (f.num 0)
  | .setCategory => .setCategory st tag ref (f.num 3)
  | .addSnack => .addSnack st tag (f.num 0) (f.num 1)
  | .removeSnack => .removeSnack st tag (f.num 0) (f.num 1)
  | .price => .price st tag
  | .pay => .pay st tag
  | .cancelPay => .cancelPay st tag
  | .abandon => .abandon st tag
  | .collect => .collect st tag (f.chars 8)
  | .resumePrint => .resumePrint (.station st) tag
  | .redeem => .redeem st tag (f.num 0) (f.num 1)
  | .queryVoucher => .queryVoucher st tag (f.num 0)
  | .status => .status st tag

/-- The terminal record that a record on a terminal line is (Table 5-2), none when an enumeration has no value of it
(log 15).  Its tag is not examined (R82). -/
def terminalCommand (st : Station) (k : TermKind) (f : Fields) : Option Instr :=
  match k with
  | .selected => f.status.map (fun x => .selected st (f.chars 4) x)
  | .progress => f.stage.map (fun x => .progress st x)
  | .outcome => f.outcome.map (fun x => .outcome st x)
  | .captured => some (.captured st)
  | .reversed => some (.reversed st)

/-- The printer record that a record on a printer line is (Table 7-2), none when a fault kind is none of the four (log 15).  A
FAULT accepts 0 to 32 lines. -/
def printerCommand (st : Station) (k : PrinterKind) (f : Fields) : Option Instr :=
  match k with
  | .accept => some (.accept st (f.num 0) (f.num 1))
  | .level => some (.level st (f.num 0))
  | .cutDone => some (.cutDone st)
  | .fault => f.fault.map (fun x => .fault st x (f.num 0 % 33))
  | .clear => some (.clear st)

/-- Is a kind of record one of a line (Tables 10-3, 5-2 and 7-2)? -/
def RecKind.comesOn : RecKind → Line → Bool
  | .site _, .site => true
  | .station _, .station _ => true
  | .terminal _, .terminal _ => true
  | .printer _, .printer _ => true
  | _, _ => false

/-- The command that a record of a line's own kind is. -/
def commandOf (l : Line) (k : RecKind) (tag : Tag) (f : Fields) : Option Instr :=
  match l, k with
  | .site, .site k => some (siteCommand k tag f)
  | .station st, .station k => some (stationCommand st k tag f)
  | .terminal st, .terminal k => terminalCommand st k f
  | .printer st, .printer k => printerCommand st k f
  | _, _ => none

/-- A record that fails check 1 or 2 of R182: answered REJECT on a link, discarded on a terminal or printer line. -/
def refuseRecord (l : Line) (tag : Tag) (reason : RejectReason) (kind : Byte) : Option Instr :=
  match l with
  | .site => some (.reject .site tag reason kind)
  | .station st => some (.reject (.station st) tag reason kind)
  | .terminal _ | .printer _ => none

/-- The command that a record brings, by checks 1 and 2 of R182: its kind must be one of the line's, and its length the one that
the kind's fields require.  `named` is the kind that its kind byte names, if it names one. -/
def judgeRecord (l : Line) (kind : Byte) (tag : Tag) (length : Nat) (named : Option RecKind) (required : RecKind → Nat)
    (fields : RecKind → Fields) : Option Instr :=
  match named with
  | none => refuseRecord l tag .unknownKind kind
  | some k =>
    if k.comesOn l then
      if length = required k then commandOf l k tag (fields k) else refuseRecord l tag .badLength kind
    else refuseRecord l tag .unknownKind kind

/-- Does a kind of record carry no fields?  The requests of R27, R59, R60, R87, R96, R123, R145 and R190, STATUS and SITE-STATUS, to
which no rule gives a field (log 29), and the records of contents "none" of Tables 5-2 and 7-2. -/
def RecKind.fieldless : RecKind → Bool
  | .site .journalRead | .site .siteStatus | .site .reset => true
  | .station .holdClose | .station .abandon | .station .price | .station .pay | .station .cancelPay | .station .resumePrint
  | .station .status => true
  | .terminal .captured | .terminal .reversed => true
  | .printer .cutDone | .printer .clear => true
  | _ => false

/-- The body length that a kind's fields require (R182, check 2): 0 without fields; 8 for COLLECT, whose one field is a string of 8
characters (R161); else a free value, but not 0, since a field takes a byte (log 29). -/
def requiredLength (k : RecKind) (body : List Byte) : Nat :=
  if k.fieldless then 0
  else if k = .station .collect then 8
  else max 1 (Config.fieldsLength k body)

/-- The string a body of characters spells (log 29). -/
def charsOf (body : List Byte) (n : Nat) : Chars n := Vector.ofFn (fun i => body.getD i 0)

/-- The fields that a body spells: the characters of COLLECT's reference, else a free value (log 29). -/
def fieldsRead (k : RecKind) (body : List Byte) : Fields :=
  if k = .station .collect then { Config.fieldsOf k body with chars := charsOf body } else Config.fieldsOf k body

/-- The command that a record on a line brings (R182): which kind its byte names is a free value (log 29). -/
def recordTaken (l : Line) (kind : Byte) (tag : Tag) (body : List Byte) : Option Instr :=
  judgeRecord l kind tag body.length (Config.kindNamed l kind) (fun k => requiredLength k body) (fun k => fieldsRead k body)

/-- A frame joined to the bodies before it: on a link a full body goes on as a train; any other body ends the record, which
is handed on (R181). -/
def LineRec.join (l : Line) (f : Frame) (before : List Byte) (r : LineRec) : LineRec × List Instr :=
  if l.isLink ∧ f.body.length = Config.fullBody then ({ r with train := some ⟨f.kind, f.tag, before ++ f.body, 0⟩ }, [])
  else ({ r with train := none }, (recordTaken l f.kind f.tag (before ++ f.body)).toList)

/-- A frame that has passed its check: it starts a record, goes on with the train in progress, or interrupts it; an
interrupting frame starts a new record, which is handed on at once when its body is not full (R181). -/
def LineRec.takeFrame (l : Line) (f : Frame) (r : LineRec) : LineRec × List Instr :=
  match r.train with
  | none => r.join l f []
  | some t =>
    if t.kind = f.kind ∧ t.tag = f.tag then r.join l f t.body
    else (r, .trainInterrupted l f.kind f.tag f.body ::
      (if f.body.length = Config.fullBody then [] else (recordTaken l f.kind f.tag f.body).toList))

/-- A byte arrives on a line: the line after it, and the commands it brings (R180 to R182). -/
def LineRec.takeByte (l : Line) (b : Byte) (r : LineRec) : LineRec × List Instr :=
  let r' := { r with receiver := r.receiver.take b }
  match r'.receiver.verdict with
  | .incomplete => (r', [])
  | .bad cause => (r', [.frameError l cause])
  | .good f => { r' with receiver := .hunting }.takeFrame l f

/-! ### Records sent (R184, R181) -/

/-- The tag of a record the controller sends: a reply echoes its request's, every other record carries 0 (Table 10-2, R184,
R82, R127). -/
def OutRec.tag : OutRec → Tag
  | .reply tag _ _ => tag
  | .reject tag _ _ => tag
  | .holdClosed _ _ _ | .basketLapsed _ _ _ | .priceStale _ | .payProgress _ _ | .payOutcome _ _ | .printDone _ _ _
  | .printFault _ _ _ | .holdExpired _ _ _ _ | .lowStock _ _ _ _ _ _ | .journalHigh _ _ | .printLimit _ _ _ _
  | .voucherLocked _ _ _ _ | .lineState _ _ _ | .select _ | .authorise _ _ | .abort | .capture _ | .reverse _ | .lines _ _ _
  | .cut => 0

/-- A body cut into the bodies of its frames: full ones, and a last one that is shorter (R181). -/
def cutBody (body : List Byte) : List (List Byte) :=
  (List.range (body.length / Config.fullBody + 1)).map (fun i => (body.drop (Config.fullBody * i)).take Config.fullBody)

/-- The bodies of a record's frames on a line: a train's on a link, one frame elsewhere (R181). -/
def bodiesOn (l : Line) (body : List Byte) : List (List Byte) :=
  if l.isLink then cutBody body else [body.take Config.fullBody]

/-- The body of a record the controller sends: empty for the records of contents "none" (Tables 5-1 and 7-1), the characters of
the one field of SELECT, CAPTURE and REVERSE (Table 5-1), else free bytes (log 29). -/
def sentBody : OutRec → List Byte
  | .abort | .cut => []
  | .select addr => addr.toList
  | .capture (some code) | .reverse (some code) => code.toList
  | r => Config.recordBody r

/-- The frames in which a record leaves on a line (Table 10-2, R181, R184). -/
def framesOf (l : Line) (r : OutRec) : List (List Byte) :=
  (bodiesOn l (sentBody r)).map (fun b => (⟨Config.recordKind r, r.tag, b⟩ : Frame).bytes)

end Sys2Proof.Machine
end

