-- ==== Sys2Proof/Machine/Links.lean ====
section
/-! DEFINITION. The link unit (chapter 10): power-on and RESET, station configuration, limits, the status requests, and what
happens on the lines. -/

namespace Sys2Proof.Machine

/-! ### Power-on and RESET -/

/-- Power-on (R191 and the power-on rule of every block).  The queue of commands, the bytes to come and the count of free
values drawn are the model's own and stay. -/
def powerOn (s : State) : State := { State.reset with pending := s.pending, wires := s.wires, draws := s.draws }

def execPowerOn (s : State) : Host.Outcome State Fault Refusal := .next (powerOn s)

/-- The lane of a station whose role and printer line are judged after a RESET (R149): SUSPENDED under LINE_LOST when the
role uses a lost printer line, else settling for 5 s when the role uses the line. -/
def resetLane (s : State) (st : Station) : Lane :=
  if usesPrinter (s.station st).role then
    if s.isLost (.printer st) then { Lane.fresh with suspended := some .lineLost }
    else { Lane.fresh with settling := some ⟨0, Config.settlingDeadline⟩ }
  else Lane.fresh

/-- Every block at its values after RESET, and nothing waiting on any line (R21, R45, R64, R65, R108, R126, R149, R163, R178,
R190).  Kept: station configuration, line states and watches, receivers and trains, and the pins.  No record is in
transmission: one that has not finished leaving is discarded with the rest (DESIGN CHOICE, log 27). -/
def resetBlocks (s : State) : State :=
  { State.reset with
    lanes := Vector.ofFn (resetLane s),
    stations := s.stations,
    lines := Vector.ofFn (fun i => { s.lines[i] with errors := 0, out := [] }),
    wires := s.wires, sent := s.sent, draws := s.draws, pending := s.pending }

/-- The PAY in progress at a station before the RESET is answered RESET (R190), with its sale reference, as R85 has it in the
reply of an accepted PAY (log 24). -/
def answerReset (before : State) (s : State) (st : Station) : State :=
  match before.request st with
  | some r => replyStation st r.tag .reset [.saleRef (before.saleRef st)] s
  | none => s

/-- ABORT to the terminal of a station whose context was not IDLE before the RESET (R108). -/
def abortReset (before : State) (s : State) (st : Station) : State :=
  if before.payIdle st then s else emit (.terminal st) .abort s

/-- RESET (R190): the replies first, then the records that follow from the blocks' own rules. -/
def siteReset (tag : Tag) (s : State) : State :=
  (List.finRange 8).foldl (abortReset s)
    ((List.finRange 8).foldl (answerReset s) (replySite tag .ok [] (resetBlocks s)))

def execReset (tag : Tag) (s : State) : Host.Outcome State Fault Refusal := .next (siteReset tag s)

/-! ### Configuration and limits -/

/-- The first field of CONFIG-STATION at fault (R185, check 1). -/
def configFault (station : Nat) (role : Option Role) (addr : Chars 4) (printer : Bool) : Option FieldName :=
  firstFault [((stationOf station).isSome, .stationNumber), (role.isSome, .role),
    (!decide (role = some .kiosk) || printable addr, .terminalAddress),
    (!((role.map usesPrinter).getD false) || printer, .printerPresence)]

/-- The first condition that keeps a station from being configured (R185, check 2). -/
def State.configBusy (s : State) (st : Station) : Option BusyCondition :=
  if s.basketState st ≠ .empty then some .basket
  else if (s.gathering st).isSome then some .gathering
  else if !s.payIdle st then some .payment
  else if !(s.lane st).queue.isEmpty then some .laneQueue
  else none

/-- The lane at a role change (R148). -/
def configLane (lost : Bool) (role : Role) (l : Lane) : Lane :=
  if usesPrinter role ∧ lost then { l with suspended := some .lineLost, clearFlag := false }
  else { l with suspended := none, clearFlag := false, lastLevel := 0 }

/-- A CONFIG-STATION taken, in one step (R185, R148).  Records that wait on the station's printer or terminal line stay there, under
a role that does not use the line too, and leave by RECORD_SENT (DESIGN CHOICE, log 31). -/
def takeConfig (tag : Tag) (st : Station) (role : Role) (addr : Chars 4) (printer : Bool) (s : State) : State :=
  replySite tag .ok [.role (s.station st).role]
    (modifyLane st (configLane (s.isLost (.printer st)) role)
      (setStation st { role := role, addr := addr, printer := printer } s))

/-- CONFIG-STATION (R185). -/
def configStation (tag : Tag) (station : Nat) (role : Option Role) (addr : Chars 4) (printer : Bool) (s : State) : State :=
  match configFault station role addr printer, stationOf station, role with
  | some f, _, _ => replySite tag .badField [.field f] s
  | none, some st, some r =>
    match s.configBusy st with
    | some c => replySite tag .busy [.busyCondition c] s
    | none => takeConfig tag st r addr printer s
  | none, none, _ => replySite tag .badField [.field .stationNumber] s
  | none, some _, none => replySite tag .badField [.field .role] s

def execConfigStation (tag : Tag) (station : Nat) (role : Option Role) (addr : Chars 4) (printer : Bool) (s : State) :
    Host.Outcome State Fault Refusal :=
  .next (configStation tag station role addr printer s)

/-- The limits SET-LIMITS applies (R186, Table 10-6). -/
def clampedLimits (window hold payment : Nat) : Limits :=
  { window := clampTo 100 3000 window, holdTime := clampTo 60 900 hold, payTime := clampTo 30 300 payment }

/-- SET-LIMITS (R186). -/
def changeLimits (tag : Tag) (window hold payment : Nat) (s : State) : State :=
  let l := clampedLimits window hold payment
  replySite tag .ok [.limits l, .windowClamped (decide (l.window ≠ window)), .holdTimeClamped (decide (l.holdTime ≠ hold)),
    .payTimeClamped (decide (l.payTime ≠ payment))] (setLimits l s)

def execSetLimits (tag : Tag) (window hold payment : Nat) (s : State) : Host.Outcome State Fault Refusal :=
  .next (changeLimits tag window hold payment s)

/-! ### Status -/

/-- The content of a STATUS reply (R187). -/
def State.statusReport (s : State) (st : Station) : StatusReport :=
  let b := s.basket st
  { role := (s.station st).role, basket := s.basketState st, holdCount := b.holds.length,
    seatLineCount := b.seatLines.length, snackUnits := unitsOf b.snacks, summary := b.summaryMark,
    total := (b.summary.map (·.total)).getD 0, remaining := remaining s b.lapse, overdue := b.overdue,
    pay := s.payState st, inProgress := (s.request st).map (·.kind), lane := s.laneState st,
    orders := (s.lane st).queue.length, uncertain := (s.lane st).uncertain, checkErrors := (s.line (.station st)).errors }

/-- STATUS past the link unit's checks, which it always passes (R187). -/
def stationStatus (st : Station) (tag : Tag) (s : State) : State :=
  replyStation st tag .ok [.status (s.statusReport st)] s

def execStatus (st : Station) (tag : Tag) (s : State) : Host.Outcome State Fault Refusal :=
  .next (stationRequest st tag .status (stationStatus st tag) s)

/-- The content of a SITE-STATUS reply (R188). -/
def State.siteReport (s : State) : SiteReport :=
  { poolFree := s.poolFree, holdsFree := s.holdsFree, salesFree := s.salesFree, journalFree := s.journalFree,
    vouchersFree := s.vouchersFree, salesReserved := s.salesReserved, journalReserved := s.journalReserved,
    lines := Vector.ofFn (fun i => (s.lines[i].state, s.lines[i].errors)),
    roles := Vector.ofFn (fun i => s.stations[i].role), timeBase := s.timeBase }

/-- SITE-STATUS (R188). -/
def siteStatus (tag : Tag) (s : State) : State := replySite tag .ok [.siteStatus s.siteReport] s

def execSiteStatus (tag : Tag) (s : State) : Host.Outcome State Fault Refusal := .next (siteStatus tag s)

/-! ### REJECT -/

/-- A record of unknown kind or wrong length on a link is answered REJECT, and nothing else changes (R182, checks 1 and 2). -/
def rejectRecord (link : Link) (tag : Tag) (reason : RejectReason) (kind : Byte) (s : State) : State :=
  emit link.line (.reject tag reason kind) s

def execReject (link : Link) (tag : Tag) (reason : RejectReason) (kind : Byte) (s : State) : Host.Outcome State Fault Refusal :=
  .next (rejectRecord link tag reason kind s)

/-! ### Line states (R179) -/

/-- Are the changes of a line reported in LINE-STATE: station links, the terminal lines of KIOSK stations, and the printer
lines of stations with a printer; of the site link only its regain (R179). -/
def State.reported (s : State) (l : Line) (x : LineState) : Bool :=
  match l with
  | .site => decide (x = .up)
  | .station _ => true
  | .terminal st => decide ((s.station st).role = .kiosk)
  | .printer st => (s.station st).printer

/-- LINE-STATE for a line that has changed (R179). -/
def noticeLine (l : Line) (x : LineState) (s : State) : State :=
  if s.reported l x then emit .site (.lineState l x (s.line l).errors) s else s

/-- The loss of a station link: the gathering hold is dropped, and the basket is emptied unless a payment is in flight (R36,
R63). -/
def stationLost (st : Station) (s : State) : State :=
  let s1 := match s.gathering st with
    | some (n, _) => releaseHold n s
    | none => s
  if s1.payIdle st then emptyBasket st s1 else s1

/-- The loss of a printer line: the fault LINE_LOST, when the station's role uses the line (R143). -/
def printerLost (st : Station) (s : State) : State := if s.listens st then laneFault st .lineLost s else s

/-- The block a line's loss is reported to, in the same step (R179). -/
def reportLoss (l : Line) (s : State) : State :=
  match l with
  | .site => s
  | .station st => stationLost st s
  | .terminal st => terminalLost st s
  | .printer st => printerLost st s

/-- A line that is LOST: its watch has ended, and nothing waits for transmission on it (R179, R184).  A record whose
transmission has begun is dropped with the rest (DESIGN CHOICE, log 27). -/
def LineRec.lose (r : LineRec) : LineRec := { r with state := .lost, watch := none, out := [] }

/-- A line's receive input has been in break for 100 ms (R179); taken on every line that is UP, whatever its watch holds
(DESIGN CHOICE, log 4). -/
def lineLost (l : Line) (s : State) : State :=
  if s.isLost l then s else noticeLine l .lost (reportLoss l (modifyLine l LineRec.lose s))

def execLineLost (line : Line) (s : State) : Host.Outcome State Fault Refusal := .next (lineLost line s)

/-- The regain of a printer line sets the clear flag of a lane suspended under LINE_LOST (R143). -/
def printerRegained (st : Station) (s : State) : State :=
  if (s.lane st).suspended = some .lineLost then modifyLane st (fun x => { x with clearFlag := true }) s else s

/-- The block a line's regain is reported to (R179). -/
def reportRegain (l : Line) (s : State) : State :=
  match l with
  | .printer st => printerRegained st s
  | .site | .station _ | .terminal _ => s

/-- The break on a LOST line ends (R179). -/
def lineRegained (l : Line) (s : State) : State :=
  if s.isLost l then
    noticeLine l .up (reportRegain l (modifyLine l (fun r => { r with state := .up, watch := none }) s))
  else s

def execLineRegained (line : Line) (s : State) : Host.Outcome State Fault Refusal := .next (lineRegained line s)

/-- The receive input goes to the space level: the 100 ms watch starts (R179), and a frame being received is in error, since
a break begins before it is complete (R180). -/
def LineRec.goBreak (r : LineRec) : LineRec := { (if r.receiver.busy then r.dropFrame else r) with watch := some 0 }

/-- A break begins on a line that is UP (R179, R180). -/
def breakBegins (l : Line) (s : State) : State := if s.isLost l then s else modifyLine l LineRec.goBreak s

def execBreakBegins (line : Line) (s : State) : Host.Outcome State Fault Refusal := .next (breakBegins line s)

/-- A break on a line that is UP ends before 100 ms: the watch is discarded (R179). -/
def breakEnds (l : Line) (s : State) : State :=
  if s.isLost l then s else modifyLine l (fun r => { r with watch := none }) s

def execBreakEnds (line : Line) (s : State) : Host.Outcome State Fault Refusal := .next (breakEnds line s)

/-! ### Frames and trains (R180, R181) -/

/-- A frame with a bad length, a failed check, or a break before its end (R180). -/
def frameError (l : Line) (cause : FrameFault) (s : State) : State :=
  if frameInError cause then modifyLine l LineRec.dropFrame s else s

def execFrameError (line : Line) (cause : FrameFault) (s : State) : Host.Outcome State Fault Refusal :=
  .next (frameError line cause s)

/-- No byte of a frame arrives for 10 ms (R180). -/
def frameTimeout (l : Line) (s : State) : State := modifyLine l LineRec.dropFrame s

def execFrameTimeout (line : Line) (s : State) : Host.Outcome State Fault Refusal := .next (frameTimeout line s)

/-- The next frame of a train does not begin within 10 ms: the train is discarded and counted (R181). -/
def trainTimeout (l : Line) (s : State) : State :=
  if l.isLink then modifyLine l (fun r => { r.countError with train := none }) s else s

def execTrainTimeout (line : Line) (s : State) : Host.Outcome State Fault Refusal := .next (trainTimeout line s)

/-- A frame of another kind or tag stands in the place of a train's next frame: the train is discarded and counted, and the
frame starts a new record, a train again when its body is full (R181). -/
def trainInterrupted (l : Line) (kind : Byte) (tag : Tag) (body : List Byte) (s : State) : State :=
  if l.isLink then
    modifyLine l (fun r =>
      { r.countError with train := if body.length = Config.fullBody then some ⟨kind, tag, body, 0⟩ else none }) s
  else s

def execTrainInterrupted (line : Line) (kind : Byte) (tag : Tag) (body : List Byte) (s : State) :
    Host.Outcome State Fault Refusal :=
  .next (trainInterrupted line kind tag body s)

/-! ### Transmission (R184) -/

/-- Is a record a LINES frame? -/
def OutRec.isLines : OutRec → Bool
  | .lines _ _ _ => true
  | _ => false

/-- Is a record the last LINES frame of its burst? -/
def OutRec.endsBurst : OutRec → Bool
  | .lines burst index dots => decide (index + dots.length = burst)
  | _ => false

/-- The last frame of the burst in flight has left: its deadline is set (R134, R184).  Frames of an ended burst may have stood
before it in the output; it is the last when no LINES frame remains behind it. -/
def burstLeft (l : Line) (rest : List OutRec) (s : State) : State :=
  match l, s.mover.burst with
  | .printer st, some b =>
    if b.lane = st ∧ !rest.any OutRec.isLines then
      setMover { s.mover with burst := some { b with deadline := some (deadlineIn s Config.burstDeadline) } } s
    else s
  | _, _ => s

/-- The first record that waits on a line finishes leaving, in its frames (R184, R181), whether or not the station's role uses the
line (DESIGN CHOICE, log 31). -/
def recordSent (l : Line) (s : State) : State :=
  match (s.line l).out with
  | [] => s
  | r :: rest =>
    let s1 := setSent l (framesOf l r) (modifyLine l (fun x => { x with out := rest }) s)
    if r.endsBurst then burstLeft l rest s1 else s1

def execRecordSent (line : Line) (s : State) : Host.Outcome State Fault Refusal := .next (recordSent line s)

end Sys2Proof.Machine
end

