-- ==== Sys2Proof/Machine/Ticks.lean ====
section
/-! DEFINITION. What an idle step does: the deadlines and watches that are reached become commands, a byte that has arrived on
a line is taken by its receiver, and time passes when there is neither (logs 1, 3 and 28). -/

namespace Sys2Proof.Machine

/-- The event of the step deadline in each state of a payment; AUTHORISING runs none (R86). -/
def stepEvent (st : Station) : PayPhase → List Instr
  | .selecting => [.selectStepDeadline st]
  | .authorising => []
  | .aborting => [.abortStepDeadline st]
  | .capturing => [.captureStepDeadline st]
  | .reversing => [.reverseStepDeadline st]

/-- The events of the payment context of a station that are due (R189, Table 10-7). -/
def State.duePay (s : State) (st : Station) : List Instr :=
  match s.payment st with
  | none => []
  | some p =>
    (if p.limit.any (Deadline.reached s) then [Instr.timeLimit st] else []) ++
      (if p.step.any (Deadline.reached s) then stepEvent st p.phase else [])

/-- The events of a station's basket, payment and lane that are due. -/
def State.dueStation (s : State) (st : Station) : List Instr :=
  (if (s.basket st).lapse.any (Deadline.reached s) then [Instr.lapseDeadlineReached st] else []) ++ s.duePay st ++
    (if (s.lane st).cut.any (Deadline.reached s) then [Instr.cutDeadline st] else []) ++
    (if (s.lane st).settling.any (Deadline.reached s) then [Instr.settlingDeadline st] else [])

/-- The events of a hold that are due. -/
def State.dueHold (s : State) (e : Nat × Hold) : List Instr :=
  (if e.2.window.any (Deadline.reached s) then [Instr.gatheringWindowExpiry e.1] else []) ++
    (if e.2.own.any (Deadline.reached s) then [Instr.ownDeadlineExpiry e.1] else [])

/-- The event of the render mover that is due. -/
def State.dueMover (s : State) : List Instr :=
  match s.mover.burst with
  | some b => if b.deadline.any (Deadline.reached s) then [Instr.burstDeadline] else []
  | none => []

/-- Has a receiver been silent for 10 ms within a frame (R180)? -/
def Receiver.silent : Receiver → Bool
  | .hunting => false
  | .receiving _ quiet => decide (Config.frameGap ≤ quiet)

/-- The events of a line that are due: its loss, a frame's silence, and the silence between two frames of a train (R179 to
R181). -/
def State.dueLine (s : State) (l : Line) : List Instr :=
  let r := s.line l
  (if r.watch.any (fun n => decide (Config.breakLoss ≤ n)) then [Instr.lineLost l] else []) ++
    (if r.receiver.silent then [Instr.frameTimeout l] else []) ++
    (if l.isLink && decide (r.receiver = .hunting) && r.train.any (fun t => decide (Config.frameGap ≤ t.quiet)) then
      [Instr.trainTimeout l]
    else [])

/-- Every event that is due. -/
def State.due (s : State) : List Instr :=
  s.holds.flatMap s.dueHold ++ (List.finRange 8).flatMap s.dueStation ++ s.dueMover ++ Line.all.flatMap s.dueLine

/-- What is taken first among what is due: the least rank of this draw, the earlier listed among equals (logs 3 and 28). -/
def firstDue {α : Type} (rank : α → Nat) : List α → Option α
  | [] => none
  | c :: t =>
    match firstDue rank t with
    | none => some c
    | some d => some (if rank c ≤ rank d then c else d)

/-- Has a byte arrived on a line: its wait is over, and the input is not in break (R179, log 28)? -/
def State.byteArrived (s : State) (l : Line) : Bool :=
  !s.isLost l && (s.line l).watch.isNone && (s.wire l).head?.any (fun w => w.wait = 0)

/-- The byte that has arrived on a line is taken by the line's receiver, and the commands it brings enter the queue (R180 to
R182). -/
def receiveByte (l : Line) (s : State) : State :=
  match s.wire l with
  | [] => s
  | w :: rest =>
    let r := (s.line l).takeByte l w.byte
    { setWire l rest (setLine l r.1 s) with draws := s.draws + 1, pending := r.2 }

/-- One millisecond off the wait of the next byte of a wire. -/
def tickWire : List WireByte → List WireByte
  | [] => []
  | w :: rest => { w with wait := w.wait - 1 } :: rest

/-- One millisecond on the clocks of a line. -/
def LineRec.tick (r : LineRec) : LineRec :=
  { r with
    watch := r.watch.map (· + 1),
    receiver := match r.receiver with
      | .hunting => .hunting
      | .receiving bytes quiet => .receiving bytes (quiet + 1),
    train := r.train.map (fun t => { t with quiet := t.quiet + 1 }) }

/-- One millisecond passes: the time base rises by 1, at 0 again after 4,294,967,295 (R189). -/
def advance (s : State) : State :=
  { s with
    timeBase := s.timeBase + 1, lines := Vector.ofFn (fun i => s.lines[i].tick), wires := s.wires.map tickWire }

/-- A step on an empty queue: a due event is put into the queue, or a byte that has arrived is taken, or a millisecond
passes. -/
def idle (s : State) : State :=
  match firstDue (Config.dueRank s.draws) s.due with
  | some c => { s with draws := s.draws + 1, pending := [c] }
  | none => match firstDue (Config.wireRank s.draws) (Line.all.filter s.byteArrived) with
    | some l => receiveByte l s
    | none => advance s

end Sys2Proof.Machine
end

