-- ==== Sys2Proof/Machine/Dispatch.lean ====
section
/-! DEFINITION. One arm per command: each calls the command's meaning. -/

namespace Sys2Proof.Machine

def exec (i : Instr) (s : State) : Host.Outcome State Fault Refusal :=
  match i with
  | .powerOn => Sys2Proof.Machine.execPowerOn s
  | .reset tag => Sys2Proof.Machine.execReset tag s
  | .beginScreening tag f => Sys2Proof.Machine.execBeginScreening tag f s
  | .seatRow tag slot row runs => Sys2Proof.Machine.execSeatRow tag slot row runs s
  | .endLoad tag slot => Sys2Proof.Machine.execEndLoad tag slot s
  | .stopSales tag slot => Sys2Proof.Machine.execStopSales tag slot s
  | .retireScreening tag slot => Sys2Proof.Machine.execRetireScreening tag slot s
  | .blockSeats tag slot seats => Sys2Proof.Machine.execBlockSeats tag slot seats s
  | .unblockSeats tag slot seats => Sys2Proof.Machine.execUnblockSeats tag slot seats s
  | .querySeats tag slot row first last => Sys2Proof.Machine.execQuerySeats tag slot row first last s
  | .queryMap st tag slot first last => Sys2Proof.Machine.execQueryMap st tag slot first last s
  | .holdSeat st tag ref => Sys2Proof.Machine.execHoldSeat st tag ref s
  | .holdClose st tag => Sys2Proof.Machine.execHoldClose st tag s
  | .gatheringWindowExpiry hold => Sys2Proof.Machine.execGatheringWindowExpiry hold s
  | .dropHold st tag hold => Sys2Proof.Machine.execDropHold st tag hold s
  | .siteHold tag slot seats seconds ref => Sys2Proof.Machine.execSiteHold tag slot seats seconds ref s
  | .ownDeadlineExpiry hold => Sys2Proof.Machine.execOwnDeadlineExpiry hold s
  | .siteRelease tag hold ref => Sys2Proof.Machine.execSiteRelease tag hold ref s
  | .siteSell tag hold ref cats snacks => Sys2Proof.Machine.execSiteSell tag hold ref cats snacks s
  | .setCategory st tag ref cat => Sys2Proof.Machine.execSetCategory st tag ref cat s
  | .addSnack st tag item qty => Sys2Proof.Machine.execAddSnack st tag item qty s
  | .removeSnack st tag item qty => Sys2Proof.Machine.execRemoveSnack st tag item qty s
  | .price st tag => Sys2Proof.Machine.execPrice st tag s
  | .abandon st tag => Sys2Proof.Machine.execAbandon st tag s
  | .lapseDeadlineReached st => Sys2Proof.Machine.execLapseDeadlineReached st s
  | .pay st tag => Sys2Proof.Machine.execPay st tag s
  | .cancelPay st tag => Sys2Proof.Machine.execCancelPay st tag s
  | .selected st echo status => Sys2Proof.Machine.execSelected st echo status s
  | .selectStepDeadline st => Sys2Proof.Machine.execSelectStepDeadline st s
  | .progress st stage => Sys2Proof.Machine.execProgress st stage s
  | .outcome st o => Sys2Proof.Machine.execOutcome st o s
  | .timeLimit st => Sys2Proof.Machine.execTimeLimit st s
  | .abortOutcome st o => Sys2Proof.Machine.execAbortOutcome st o s
  | .abortStepDeadline st => Sys2Proof.Machine.execAbortStepDeadline st s
  | .reversed st => Sys2Proof.Machine.execReversed st s
  | .reverseStepDeadline st => Sys2Proof.Machine.execReverseStepDeadline st s
  | .captured st => Sys2Proof.Machine.execCaptured st s
  | .captureStepDeadline st => Sys2Proof.Machine.execCaptureStepDeadline st s
  | .refund tag sale => Sys2Proof.Machine.execRefund tag sale s
  | .querySale tag sale => Sys2Proof.Machine.execQuerySale tag sale s
  | .journalRead tag => Sys2Proof.Machine.execJournalRead tag s
  | .journalRelease tag seq => Sys2Proof.Machine.execJournalRelease tag seq s
  | .loadTariff tag f => Sys2Proof.Machine.execLoadTariff tag f s
  | .loadSnacks tag entries => Sys2Proof.Machine.execLoadSnacks tag entries s
  | .setAllowance tag item allowance lowMark restart => Sys2Proof.Machine.execSetAllowance tag item allowance lowMark restart s
  | .querySnacks tag first last => Sys2Proof.Machine.execQuerySnacks tag first last s
  | .loadSeed tag seed => Sys2Proof.Machine.execLoadSeed tag seed s
  | .redeem st tag serial code => Sys2Proof.Machine.execRedeem st tag serial code s
  | .unlockVoucher tag serial => Sys2Proof.Machine.execUnlockVoucher tag serial s
  | .queryVoucher st tag serial => Sys2Proof.Machine.execQueryVoucher st tag serial s
  | .reprint tag sale item station => Sys2Proof.Machine.execReprint tag sale item station s
  | .collect st tag ref => Sys2Proof.Machine.execCollect st tag ref s
  | .resumePrint sender tag => Sys2Proof.Machine.execResumePrint sender tag s
  | .accept st k lvl => Sys2Proof.Machine.execAccept st k lvl s
  | .level st lvl => Sys2Proof.Machine.execLevel st lvl s
  | .cutDone st => Sys2Proof.Machine.execCutDone st s
  | .fault st kind k => Sys2Proof.Machine.execFault st kind k s
  | .clear st => Sys2Proof.Machine.execClear st s
  | .burstDeadline => Sys2Proof.Machine.execBurstDeadline s
  | .cutDeadline st => Sys2Proof.Machine.execCutDeadline st s
  | .settlingDeadline st => Sys2Proof.Machine.execSettlingDeadline st s
  | .configStation tag station role addr printer => Sys2Proof.Machine.execConfigStation tag station role addr printer s
  | .setLimits tag window hold payment => Sys2Proof.Machine.execSetLimits tag window hold payment s
  | .siteStatus tag => Sys2Proof.Machine.execSiteStatus tag s
  | .status st tag => Sys2Proof.Machine.execStatus st tag s
  | .reject link tag reason kind => Sys2Proof.Machine.execReject link tag reason kind s
  | .lineLost line => Sys2Proof.Machine.execLineLost line s
  | .lineRegained line => Sys2Proof.Machine.execLineRegained line s
  | .frameError line cause => Sys2Proof.Machine.execFrameError line cause s
  | .frameTimeout line => Sys2Proof.Machine.execFrameTimeout line s
  | .trainTimeout line => Sys2Proof.Machine.execTrainTimeout line s
  | .trainInterrupted line kind tag body => Sys2Proof.Machine.execTrainInterrupted line kind tag body s
  | .recordSent line => Sys2Proof.Machine.execRecordSent line s
  | .breakBegins line => Sys2Proof.Machine.execBreakBegins line s
  | .breakEnds line => Sys2Proof.Machine.execBreakEnds line s

end Sys2Proof.Machine
end

