-- ==== Sys2Proof/Safety.lean ====
section
/-! DEFINITION. The invariants that the statements name, the conditions under which a station request reaches its block, and what
an emptying, the end of a payment, a lane's request, a fault and the making of vouchers leave. -/

namespace Sys2Proof.Machine

/-- A request of a station link passes checks 3 and 4 of R182. -/
def State.takes (s : State) (st : Station) (k : ReqKind) : Bool :=
  ((s.request st).isNone || decide (k = .status ∨ k = .cancelPay)) && roleAccepts (s.station st).role k

/-- Every table is in its canonical form: numbers strictly rising. -/
def TablesCanonical (s : State) : Prop :=
  s.screenings.wf = true ∧ s.holds.wf = true ∧ s.sales.wf = true ∧ s.vouchers.wf = true

/-- Payments in flight. -/
def State.inFlight (s : State) : Nat := (List.finRange 8).countP (fun st => (s.payment st).isSome)

/-- Payments in flight that hold a sale record set aside. -/
def State.uncommitted (s : State) : Nat := (List.finRange 8).countP (fun st => (s.payment st).any (·.resSale))

/-- The reservation counts of the sale table and the journal are those of the payments in flight, and records and
reservations together fit their tables (R89, R109, R121).  Every payment in flight holds its journal entry, and its sale
record until the commit. -/
def ReservationsFit (s : State) : Prop :=
  s.sales.wf = true ∧ s.journalReserved = s.inFlight ∧ s.salesReserved = s.uncommitted ∧
    s.journal.length + s.journalReserved ≤ 512 ∧ s.sales.length + s.salesReserved ≤ 2048 ∧
    ∀ st p, s.payment st = some p → p.resJournal = true ∧ p.resSale = decide (p.phase ≠ .capturing)

/-- The declared counts of the slots that are not EMPTY fit the seat pool (R2). -/
def PoolFits (s : State) : Prop := s.screenings.wf = true ∧ (s.screenings.map (fun e => e.2.declared)).sum ≤ 8192

/-- Every voucher record carries the code of the check-code formula under the seed in force, a generation of at most 3 and a
wrong-code count of at most 3, below 3 while the voucher is PRINT_PENDING or ISSUED (R171, R169, R174). -/
def VouchersSound (s : State) : Prop :=
  ∀ e ∈ s.vouchers, e.2.code = (e.1 * 1009 + e.2.item * 101 + e.2.gen * 13 + s.seed) % 9973 ∧ e.2.gen ≤ 3 ∧ e.2.wrong ≤ 3 ∧
    (e.2.state = .printPending ∨ e.2.state = .issued → e.2.wrong < 3)

/-- A station's request in progress is its PAY, and it is in progress exactly while its payment is SELECTING (R183). -/
def RequestIsSelection (s : State) : Prop :=
  ∀ st, (∀ r, s.request st = some r → r.kind = .pay) ∧
    ((s.request st).isSome = true ↔ ∃ p, s.payment st = some p ∧ p.phase = .selecting)

/-- No GATHERING hold exists while its station's payment is in flight (R38). -/
def PaymentsFreezeHolds (s : State) : Prop := ∀ st, s.payIdle st = false → s.gathering st = none

/-- The limits and the check-error counts lie in their ranges (R186, R180). -/
def LinkRanges (s : State) : Prop :=
  (100 ≤ s.limits.window ∧ s.limits.window ≤ 3000) ∧ (60 ≤ s.limits.holdTime ∧ s.limits.holdTime ≤ 900) ∧
    (30 ≤ s.limits.payTime ∧ s.limits.payTime ≤ 300) ∧ ∀ l, (s.line l).errors ≤ 65535

/-- The seats of every screening stand in strictly rising row and, within a row, seat number (R5, R29, R31). -/
def SeatsInOrder (s : State) : Prop :=
  ∀ e ∈ s.screenings, e.2.seats.Pairwise (fun a b => a.row < b.row ∨ (a.row = b.row ∧ a.num < b.num))

/-- The units of an item in the snack lines of all baskets. -/
def State.basketUnits (s : State) (code : Nat) : Nat :=
  ((List.finRange 8).map (fun st => (((s.basket st).snacks.filter (fun l => l.item = code)).map (·.qty)).sum)).sum

/-- The snack lines of a price summary are those of its basket. -/
def SummariesMatchSnacks (s : State) : Prop :=
  ∀ st m, (s.basket st).summary = some m → m.snacks.map (fun l => (⟨l.item, l.qty⟩ : SnackLine)) = (s.basket st).snacks

/-- The issued and reserved counts of every item together stay within its allowance, and the reserved count covers the units
in the baskets, each of which has one snack line for an item (R166, R52). -/
def StockFits (s : State) : Prop :=
  (∀ code x, s.item code = some x → x.issued + x.reserved ≤ x.allowance ∧ s.basketUnits code ≤ x.reserved) ∧
    (∀ st, ((s.basket st).snacks.map (·.item)).Nodup) ∧ SummariesMatchSnacks s

/-- The orders and the reserved room of every lane together stay within 32; the reserved room is that of the station's payment
in flight, which is the chain length of its basket until the commit and 0 after it (R129, R89). -/
def LanesFit (s : State) : Prop :=
  PaymentsFreezeHolds s ∧ SummariesMatchSnacks s ∧
    (∀ st m, (s.basket st).summary = some m → m.seats.length = (s.basket st).seatLines.length) ∧
    ∀ st, (s.lane st).queue.length + (s.lane st).reservedRoom ≤ 32 ∧
      (s.lane st).reservedRoom = ((s.payment st).map (·.resLane)).getD 0 ∧
      ∀ p, s.payment st = some p →
        p.resLane = if p.phase = .capturing then 0 else (s.basket st).seatLines.length + unitsOf (s.basket st).snacks + 1

/-- A seat that a hold lists carries that hold as its owner: PENDING while the hold gathers, HELD after (R11, R32). -/
def HoldsOwnSeats (s : State) : Prop :=
  ∀ n h, s.hold n = some h → ∀ p ∈ h.seats, ∃ x, s.seat h.slot p = some x ∧
    x.state = if h.phase = .gathering then .pending n else .held n

/-- A seat that an ACTIVE sale lists is SOLD or ISSUED under that sale, in the sale's slot (R11, R14). -/
def SalesOwnSeats (s : State) : Prop :=
  ∀ n y, s.sale n = some y → y.state = .active → ∀ l ∈ y.seats, y.slot = some l.ref.slot ∧
    ∃ x, s.seat l.ref.slot (refPos l.ref) = some x ∧ (x.state = .sold n ∨ x.state = .issued n)

/-- The owner of a seat of a slot lists it: the hold when it is PENDING or HELD, the ACTIVE sale when it is SOLD or ISSUED
(R11). -/
def OwnerListsSeat (s : State) (slot : Nat) (x : Seat) : Prop :=
  match x.state with
  | .pending n | .held n => ∃ h, s.hold n = some h ∧ h.slot = slot ∧ x.pos ∈ h.seats
  | .sold n | .issued n => ∃ y, s.sale n = some y ∧ y.state = .active ∧ ∃ l ∈ y.seats, l.ref = ⟨slot, x.row, x.num⟩
  | .free | .blocked => True

/-- A station's holds that do not gather are of its own, and its seat lines are their seats; a price summary lists the seat
lines, and stands while a payment is in flight before the commit (R46, R48, R60, R87). -/
def BasketsListHolds (s : State) : Prop :=
  ∀ st,
    (∀ n ∈ (s.basket st).holds, ∃ h, s.hold n = some h ∧ h.owner = .station st ∧ h.phase ≠ .gathering) ∧
    (∀ r, (∃ l ∈ (s.basket st).seatLines, l.ref = r) ↔
      ∃ n ∈ (s.basket st).holds, ∃ h, s.hold n = some h ∧ h.slot = r.slot ∧ refPos r ∈ h.seats) ∧
    (∀ m, (s.basket st).summary = some m → m.seats.map (·.ref) = (s.basket st).seatLines.map (·.ref)) ∧
    (∀ p, s.payment st = some p → p.phase ≠ .capturing → (s.basket st).summary.isSome = true)

/-- Seats and their owners agree (R11): what a hold or an ACTIVE sale lists is its own, what a seat names as its owner lists it,
a LOADING slot's seats have no owner, and the holds of a station stand in one slot.  The clauses on tables, reservations,
payments and the next sale number are what keeps a fresh number fresh. -/
def SeatOwnersAgree (s : State) : Prop :=
  TablesCanonical s ∧ ReservationsFit s ∧ PaymentsFreezeHolds s ∧ (1 ≤ s.nextSale ∧ s.nextSale ≤ 65535) ∧
    HoldsOwnSeats s ∧ SalesOwnSeats s ∧ BasketsListHolds s ∧
    (∀ slot sc, s.screening slot = some sc → ∀ x ∈ sc.seats, OwnerListsSeat s slot x ∧
      (sc.phase = .loading → x.state = .free ∨ x.state = .blocked)) ∧
    ∀ st m n g h, s.hold m = some g → s.hold n = some h → g.owner = .station st → h.owner = .station st → g.slot = h.slot

/-- The basket of a station emptied from `s` to `t`: EMPTY, the holds of its list freed, their seats released, and the units of its
snack lines returned (R58, R35). -/
def BasketEmptied (st : Station) (s t : State) : Prop :=
  t.basket st = Basket.vacant ∧ (∀ n ∈ (s.basket st).holds, t.hold n = none) ∧
    (∀ n ∈ (s.basket st).holds, ∀ h, s.hold n = some h → ∀ p ∈ h.seats, ∀ y, s.seat h.slot p = some y →
      t.seat h.slot p = some y.release) ∧
    (((s.basket st).snacks.map (·.item)).Nodup → ∀ l ∈ (s.basket st).snacks, ∀ x, s.item l.item = some x →
      ∃ armed, t.item l.item = some { x with reserved := x.reserved - l.qty, armed := armed })

/-- The GATHERING hold of a station dropped from `s` to `t`: its record freed, its seats released (R35, R36). -/
def GatheringDropped (st : Station) (s t : State) : Prop :=
  ∀ m g, s.gathering st = some (m, g) → s.hold m = some g → t.hold m = none ∧
    ∀ p ∈ g.seats, ∀ y, s.seat g.slot p = some y → t.seat g.slot p = some y.release

/-- An emptying of a station's basket reaches no hold, seat or item but those of the basket and of the station's GATHERING hold
(R58). -/
def EmptyingKeepsOthers (st : Station) (s t : State) : Prop :=
  let goes (n : Nat) (h : Hold) : Prop := n ∈ (s.basket st).holds ∨ (h.owner = .station st ∧ h.phase = .gathering)
  s.holds.wf = true →
    (∀ n, n ∉ (s.basket st).holds → (∀ h, s.hold n = some h → ¬goes n h) → t.hold n = s.hold n) ∧
    (∀ slot p y, s.seat slot p = some y → (∀ n h, s.hold n = some h → goes n h → h.slot = slot → p ∉ h.seats) →
      t.seat slot p = some y) ∧
    ∀ code, (∀ l ∈ (s.basket st).snacks, l.item ≠ code) → t.item code = s.item code

/-- The basket and the holds of a station from before (`s`) to after (`t`) the end of a payment without a sale: one attempt more
when an authorisation was asked (R105), the holds STANDING (R38), and then the first case of Table 3-6 that holds (R62). -/
def BasketSettled (st : Station) (asked : Bool) (s t : State) : Prop :=
  let b := { s.basket st with attempts := if asked then (s.basket st).attempts + 1 else (s.basket st).attempts }
  (b.overdue = true ∨ s.isLost (.station st) = true → BasketEmptied st s t) ∧
    (b.overdue = false → s.isLost (.station st) = false →
      t.basket st = (if b.payLoad.isSome then { b with summary := none, stale := true, payLoad := none } else b) ∧
      t.screenings = s.screenings ∧ t.items = s.items ∧
      ∀ n, t.hold n = if n ∈ b.holds then (s.hold n).map (fun h => { h with phase := .standing }) else s.hold n)

/-- The notice a station is sent when its basket is settled at the end of a payment (R62): none in the last case of Table 3-6. -/
def State.settleNotices (s : State) (st : Station) : List OutRec :=
  let b := s.basket st
  if b.overdue then
    [.basketLapsed .lapsedInPayment
      (b.holds.map (fun n => match s.hold n with
        | some h => h.seats.length
        | none => 0)).sum (b.snacks.map (·.qty)).sum]
  else match b.payLoad with
    | some k => [.priceStale k]
    | none => []

/-- What a station is sent at the end of a payment: `before`, the notice of the settling, and `told`, or nothing on a lost link (R94,
R107).  The count of seats released is that of the basket's holds while the station has no GATHERING hold (R38). -/
def EndTold (st : Station) (before told : List OutRec) (s t : State) : Prop :=
  (s.isLost (.station st) = true → (t.line (.station st)).out = (s.line (.station st)).out) ∧
    (s.isLost (.station st) = false → s.gathering st = none →
      (t.line (.station st)).out = (s.line (.station st)).out ++ before ++ s.settleNotices st ++ told)

/-- What follows from `u` to `v` when the lane of a station may have come to request the render mover: nothing in BURST or while
the lane does not request; an IDLE mover grants to the lane in the same step, and arbitrates when the grant sends no burst (R134,
R137). -/
def ComesToRequest (st : Station) (u v : State) : Prop :=
  (u.mover.burst.isSome = true ∨ u.requesting st = false → v = u) ∧
    (u.mover.burst = none → u.requesting st = true →
      ((grant st u).2 = true → v = (grant st u).1) ∧ ((grant st u).2 = false → v = arbitrate none 9 (grant st u).1))

/-- Two states that differ at most where printing reaches: seats, sales, lanes, mover, vouchers and lines. -/
def SameBesidePrinting (s t : State) : Prop :=
  t = { s with
    screenings := t.screenings, sales := t.sales, lanes := t.lanes, mover := t.mover, vouchers := t.vouchers, lines := t.lines }

/-- A fault of kind `k` taken from `s` to `t` for a lane that is not SUSPENDED: its orders in flight become UNCERTAIN, the lane is
SUSPENDED, the station is sent PRINT-FAULT with the counts (R141); the ISSUED sources of the orders in flight of ACTIVE sales go back
to SOLD and PRINT_PENDING, and no other seat or voucher changes (R156); the mover arbitrates when its burst was of that lane
(R137). -/
def FaultTaken (st : Station) (k : FaultKind) (s t : State) : Prop :=
  let flying (o : Order) : Prop := o ∈ (s.lane st).queue ∧ (o.status = .awaitingCut ∨ o.status = .started) ∧
    ∃ x, s.sale o.sale = some x ∧ x.state = .active
  let stopped : Lane :=
    { s.lane st with
      queue := (s.lane st).queue.map (fun o =>
        if o.status = .awaitingCut ∨ o.status = .started then { o with status := .uncertain } else o),
      linesSent := 0, residual := 0, content := none, cut := none, suspended := some k,
      clearFlag := decide (k = .noAnswer) }
  t.lane st = stopped ∧ SameBesidePrinting s t ∧
    ∃ u, u = emit (.station st) (.printFault k
          (stopped.queue.countP (fun o => o.status = .uncertain)) (stopped.queue.countP (fun o => o.status = .queued)))
        { s with screenings := u.screenings, vouchers := u.vouchers, lanes := s.lanes.set st stopped } ∧
      (∀ slot p y, s.seat slot p = some y →
        (∀ n o, y.state = .issued n → flying o → o.item = .ticket ⟨slot, p.row, p.num⟩ →
          u.seat slot p = some { y with state := .sold n }) ∧
        ((∀ n, y.state ≠ .issued n) ∨ (∀ o, flying o → o.item ≠ .ticket ⟨slot, p.row, p.num⟩) → u.seat slot p = some y)) ∧
      (∀ serial v, s.voucher serial = some v →
        (∀ o, v.state = .issued → flying o → o.item = .stub serial →
          u.voucher serial = some { v with state := .printPending }) ∧
        (v.state ≠ .issued ∨ (∀ o, flying o → o.item ≠ .stub serial) → u.voucher serial = some v)) ∧
      ((∀ b, s.mover.burst = some b → b.lane ≠ st) → t = u) ∧
      ∀ b, s.mover.burst = some b → b.lane = st → t = arbitrate none 9 { u with mover := { s.mover with burst := none } }

/-- The vouchers a commit makes from `s` to `t` for sale `n`: one record per unit, in unit order, under serials that no record
carries, each with its unit's item and charged value, generation 0, the check code of generation 0, PRINT_PENDING and counted
(R170, R171); no other voucher record changes, and the next-serial value lies after the last serial given. -/
def VouchersMade (n : Nat) (slot : Option Nat) (units : List (Nat × Nat)) (serials : List Nat) (s t : State) : Prop :=
  serials.Nodup ∧ serials.length = units.length ∧ (∀ v ∈ serials, s.voucher v = none) ∧
    serials.map t.voucher = List.zipWith (fun v e => some
      { item := e.1, slot := slot, sale := n, value := e.2, gen := 0, code := (v * 1009 + e.1 * 101 + s.seed) % 9973,
        state := .printPending, counted := true, wrong := 0 }) serials units ∧
    (∀ v, v ∉ serials → t.voucher v = s.voucher v) ∧
    (serials = [] → t.nextSerial = s.nextSerial) ∧
    ∀ v, serials.getLast? = some v → t.nextSerial = if v < 999999 then v + 1 else 1

end Sys2Proof.Machine
end

