-- ==== Sys2Proof/Certificates/Slice0/Obligations.lean ====
section
/-! DEFINITION. The statements for the provers.  A next state is written as the state before with the fields that change;
every field that is not written is unchanged.  The order of the records that one step puts on a line is that of log 11, and
the order of the fields within a reply that of log 34, where no rule gives one. -/

open Sys2Proof Sys2Proof.Machine

/-! ### The queue and time -/

/-- A step takes the command at the front of the queue and runs it over the queue's rest. -/
def Obligations.StepTakesFront : Prop :=
  ∀ (c : Instr) (rest : List Instr) (s : State), s.pending = c :: rest → step s = exec c { s with pending := rest }

/-- The model's choice (logs 1, 3 and 28): a step on an empty queue puts one due event into the queue when one is due; else a
byte that has arrived on a line is taken by its receiver; else a millisecond passes.
A deadline is due exactly when the time elapsed since it was set, modulo 4,294,967,296, equals its duration (R189): the lapse,
cut, settling and time-limit deadlines and the step deadlines of a station, the burst deadline, and, in a canonical hold
table, the window and the own deadline of a hold.  The loss of a line is due exactly when its watch has run 100 ms, and the
silence of a frame or a train exactly when it has run 10 ms (R179 to R181; that they are counts is log 19). -/
def Obligations.IdleStepAndDeadlines : Prop :=
  (∀ s : State, s.pending = [] →
     (s.due ≠ [] → ∃ c ∈ s.due, step s = .next { s with draws := s.draws + 1, pending := [c] }) ∧
     (s.due = [] → (∃ l, s.byteArrived l = true) → ∃ l, s.byteArrived l = true ∧ step s = .next (receiveByte l s)) ∧
     (s.due = [] → (∀ l, s.byteArrived l = false) → step s = .next
       { s with
         timeBase := s.timeBase + 1, lines := Vector.ofFn (fun i => s.lines[i].tick), wires := s.wires.map tickWire })) ∧
  (∀ s : State,
     let reached (d : Option Deadline) : Prop := ∃ x, d = some x ∧ (s.timeBase - x.setAt).toNat = x.dur
     (s.holds.wf = true → ∀ n,
       (Instr.gatheringWindowExpiry n ∈ s.due ↔ ∃ h, s.hold n = some h ∧ reached h.window) ∧
       (Instr.ownDeadlineExpiry n ∈ s.due ↔ ∃ h, s.hold n = some h ∧ reached h.own)) ∧
     (∀ st,
       (Instr.lapseDeadlineReached st ∈ s.due ↔ reached (s.basket st).lapse) ∧
       (Instr.cutDeadline st ∈ s.due ↔ reached (s.lane st).cut) ∧
       (Instr.settlingDeadline st ∈ s.due ↔ reached (s.lane st).settling) ∧
       (Instr.timeLimit st ∈ s.due ↔ ∃ p, s.payment st = some p ∧ reached p.limit) ∧
       (Instr.selectStepDeadline st ∈ s.due ↔ ∃ p, s.payment st = some p ∧ p.phase = .selecting ∧ reached p.step) ∧
       (Instr.abortStepDeadline st ∈ s.due ↔ ∃ p, s.payment st = some p ∧ p.phase = .aborting ∧ reached p.step) ∧
       (Instr.reverseStepDeadline st ∈ s.due ↔ ∃ p, s.payment st = some p ∧ p.phase = .reversing ∧ reached p.step) ∧
       (Instr.captureStepDeadline st ∈ s.due ↔ ∃ p, s.payment st = some p ∧ p.phase = .capturing ∧ reached p.step)) ∧
     (Instr.burstDeadline ∈ s.due ↔ ∃ b, s.mover.burst = some b ∧ reached b.deadline) ∧
     ∀ l,
       (Instr.lineLost l ∈ s.due ↔ ∃ n, (s.line l).watch = some n ∧ 100 ≤ n) ∧
       (Instr.frameTimeout l ∈ s.due ↔ ∃ bytes n, (s.line l).receiver = .receiving bytes n ∧ 10 ≤ n) ∧
       (Instr.trainTimeout l ∈ s.due ↔
         l.isLink = true ∧ (s.line l).receiver = .hunting ∧ ∃ x, (s.line l).train = some x ∧ 10 ≤ x.quiet))

/-- Every command answers a next state and leaves the queue as it is: the model's choices, that no step stops being log 20
and that commands come from outside into a queue of the model's own being log 9. -/
def Obligations.ExecAnswersAndLeavesQueue : Prop :=
  ∀ (c : Instr) (s : State), ∃ t, exec c s = .next t ∧ t.pending = s.pending

/-! ### Invariants -/

/-- Every step keeps the tables of screenings, holds, sales and vouchers in their canonical form: numbers strictly rising; and
every step keeps the seats of every screening in strictly rising row and, within a row, seat number, so that the first of them
is the first in the order of R29 and R31. -/
def Obligations.TablesStayCanonical : Prop :=
  (∀ s t : State, TablesCanonical s → step s = .next t → TablesCanonical t) ∧
  (∀ s t : State, SeatsInOrder s → step s = .next t → SeatsInOrder t)

/-- Every step keeps the reservation counts of sale table and journal at the number of payments in flight that hold them, and
records and reservations together within 2048 and 512 (R89, R109, R121).
Every step keeps the issued and reserved counts of every item within its allowance, with the units of the baskets among the
reserved (R166).
Every step keeps the orders and the reserved room of every lane within 32, the reserved room being that of the station's
payment in flight (R129). -/
def Obligations.ReservationsStayFitting : Prop :=
  (∀ s t : State, ReservationsFit s → step s = .next t → ReservationsFit t) ∧
  (∀ s t : State, StockFits s → step s = .next t → StockFits t) ∧
  (∀ s t : State, LanesFit s → step s = .next t → LanesFit t)

/-- Every step keeps the declared counts of the slots that are not EMPTY within the pool of 8192 (R2). -/
def Obligations.PoolStaysFitting : Prop :=
  ∀ s t : State, PoolFits s → step s = .next t → PoolFits t

/-- Every step keeps every voucher's code equal to the check-code formula over its serial, item, generation and the seed in force,
its generation at most 3, and its wrong-code count at most 3, and below 3 while it is PRINT_PENDING or ISSUED (R171, R169, R174). -/
def Obligations.VouchersStaySound : Prop :=
  ∀ s t : State, VouchersSound s → step s = .next t → VouchersSound t

/-- Every step keeps a station's request in progress its PAY, in progress exactly while its payment is SELECTING (R183). -/
def Obligations.RequestStaysSelection : Prop :=
  ∀ s t : State, RequestIsSelection s → step s = .next t → RequestIsSelection t

/-- Every step keeps a station with a payment in flight without a GATHERING hold (R38). -/
def Obligations.PaymentsKeepHoldsFrozen : Prop :=
  ∀ s t : State, PaymentsFreezeHolds s → step s = .next t → PaymentsFreezeHolds t

/-- Every step keeps seats and their owners in agreement: a seat that a hold lists is PENDING or HELD under that hold, one that an
ACTIVE sale lists is SOLD or ISSUED under that sale, and the owner a seat names lists it; so no seat stands in two holds, in two
ACTIVE sales or in both, and a FREE or BLOCKED seat stands in none (R11). -/
def Obligations.SeatOwnersStayAgreed : Prop :=
  ∀ s t : State, SeatOwnersAgree s → step s = .next t → SeatOwnersAgree t

/-- Every step keeps the three limits and the check-error counts in their ranges (R186, R180). -/
def Obligations.LinkRangesKept : Prop :=
  ∀ s t : State, LinkRanges s → step s = .next t → LinkRanges t

/-- The invariants hold at reset. -/
def Obligations.InvariantsAtReset : Prop :=
  TablesCanonical State.reset ∧ ReservationsFit State.reset ∧ PoolFits State.reset ∧ VouchersSound State.reset ∧
    RequestIsSelection State.reset ∧ PaymentsFreezeHolds State.reset ∧ LinkRanges State.reset ∧ SeatsInOrder State.reset ∧
    StockFits State.reset ∧ LanesFit State.reset ∧ SeatOwnersAgree State.reset

/-! ### Links -/

/-- A record produced for a line is dropped when the line is LOST, and otherwise waits behind those already waiting: on a link by
R184.  On a terminal or printer line R82 and R127 say that no record is sent while the line is lost; that a record waits there
behind those before it is the model's extension of R184 to those lines (log 13). -/
def Obligations.RecordsWaitOrDrop : Prop :=
  ∀ (l : Line) (r : OutRec) (s : State),
    (s.isLost l = true → emit l r s = s) ∧
    (s.isLost l = false → emit l r s = setLine l { s.line l with out := (s.line l).out ++ [r] } s)

/-- Checks 3 and 4 of R182: BUSY with the kind in progress, then NOT_IN_ROLE with the role, for every request of a station
link but STATUS and CANCEL-PAY, which skip the first; nothing else changes.  Past them the owning block acts.  So for every
station request of Table 10-3, by its command; and the requests a role accepts are those of Table 10-4.
A record of unknown kind or wrong length is answered REJECT and changes nothing else (R182, checks 1 and 2). -/
def Obligations.LinkUnitChecks : Prop :=
  (∀ (st : Station) (tag : Tag) (k : ReqKind) (act : State → State) (s : State),
     (∀ r, s.request st = some r → k ≠ .status → k ≠ .cancelPay →
       stationRequest st tag k act s = emit (.station st) (.reply tag .busy [.inProgress r.kind]) s) ∧
     ((s.request st = none ∨ k = .status ∨ k = .cancelPay) → roleAccepts (s.station st).role k = false →
       stationRequest st tag k act s = emit (.station st) (.reply tag .notInRole [.role (s.station st).role]) s) ∧
     (s.takes st k = true → stationRequest st tag k act s = act s)) ∧
  (∀ (st : Station) (tag : Tag) (slot first last hold cat item qty serial code : Nat) (seat : SeatRef) (booking : Chars 8)
     (s : State),
     ∀ e ∈ ([(.queryMap, .queryMap st tag slot first last), (.holdSeat, .holdSeat st tag seat), (.holdClose, .holdClose st tag),
         (.dropHold, .dropHold st tag hold), (.setCategory, .setCategory st tag seat cat), (.addSnack, .addSnack st tag item qty),
         (.removeSnack, .removeSnack st tag item qty), (.price, .price st tag), (.pay, .pay st tag),
         (.cancelPay, .cancelPay st tag), (.abandon, .abandon st tag), (.collect, .collect st tag booking),
         (.resumePrint, .resumePrint (.station st) tag), (.redeem, .redeem st tag serial code),
         (.queryVoucher, .queryVoucher st tag serial), (.status, .status st tag)] : List (ReqKind × Instr)),
       (∀ r, s.request st = some r → e.1 ≠ .status → e.1 ≠ .cancelPay →
         exec e.2 s = .next (emit (.station st) (.reply tag .busy [.inProgress r.kind]) s)) ∧
       ((s.request st = none ∨ e.1 = .status ∨ e.1 = .cancelPay) → roleAccepts (s.station st).role e.1 = false →
         exec e.2 s = .next (emit (.station st) (.reply tag .notInRole [.role (s.station st).role]) s))) ∧
  (∀ k : ReqKind,
     (roleAccepts .off k = true ↔ k = .status) ∧
     (roleAccepts .kiosk k = true ↔ k ≠ .redeem ∧ k ≠ .queryVoucher) ∧
     (roleAccepts .collect k = true ↔ k = .collect ∨ k = .resumePrint ∨ k = .status) ∧
     (roleAccepts .till k = true ↔ k = .redeem ∨ k = .queryVoucher ∨ k = .status)) ∧
  (∀ (link : Link) (tag : Tag) (reason : RejectReason) (kind : Byte) (s : State),
     exec (.reject link tag reason kind) s = .next (emit link.line (.reject tag reason kind) s))

/-- The check over the nine characters 1 to 9 is 0x29B1 (R180).
A frame in error and a silent frame are discarded with their train and counted once, up to 65535; so is a train that is
silent or interrupted (R180, R181).  Nothing else changes.
A hunting receiver discards every byte that is not the marker.  Fed the bytes of a frame of Table 10-2 it finds nothing before
the last byte and the frame at the last; fed a length below 2 or above 252 it finds the frame in error; fed a frame with
another check it finds it in error (R180).
A good frame on a link goes on as a train when its body is full, and else ends its record, which is handed on with the bodies
of the train joined; a frame of another kind or tag interrupts the train and starts a new record; on a terminal or printer
line a frame is a whole record (R181).  Which commands a byte brings, and that a receiver whose frame is in error hunts once its
FRAME_ERROR is taken, is the model's choice (log 28); that FRAME_TIMEOUT, TRAIN_TIMEOUT and TRAIN_INTERRUPTED are taken whatever
the receiver and the train hold is log 10.
On a link a record of a kind that is none of its requests, a site request on a station link or a station request on the site link
among them, is answered REJECT UNKNOWN_KIND, one of its kinds with another length than its fields require REJECT BAD_LENGTH, and
any other is a request of that link with its tag (R182, checks 1 and 2); on a terminal or printer line a record of another kind or
length is discarded, any other is a record of that line or discarded (log 15), and its tag is not looked at (R182, R82).
A kind without fields, RESET and JOURNAL-READ among them (R190, R123), requires an empty body, and every other a body that is not,
COLLECT the 8 characters of its reference (R161).  Which byte names a kind, and which length its fields otherwise require and what
they spell, are the model's free values; that STATUS and SITE-STATUS have no field, and COLLECT's reading, its deductions (log
29). -/
def Obligations.FramesChecked : Prop :=
  (crc16 [0x31#8, 0x32#8, 0x33#8, 0x34#8, 0x35#8, 0x36#8, 0x37#8, 0x38#8, 0x39#8] = 0x29B1#16) ∧
  (∀ (l : Line) (s : State),
     let n := min ((s.line l).errors + 1) 65535
     (s.line l).errors ≤ 65535 →
     (∀ cause, frameInError cause = true → exec (.frameError l cause) s = .next
       (setLine l { s.line l with errors := n, receiver := .hunting, train := none } s)) ∧
     exec (.frameTimeout l) s = .next (setLine l { s.line l with errors := n, receiver := .hunting, train := none } s) ∧
     (l.isLink = true → exec (.trainTimeout l) s = .next (setLine l { s.line l with errors := n, train := none } s)) ∧
     (∀ kind tag body, l.isLink = true → exec (.trainInterrupted l kind tag body) s = .next
       (setLine l { s.line l with
         errors := n, train := if body.length = 250 then some ⟨kind, tag, body, 0⟩ else none } s))) ∧
  (∀ b : Byte, b ≠ 0xA5#8 → Receiver.hunting.take b = .hunting) ∧
  (∀ f : Frame, f.body.length ≤ 250 →
     f.bytes = 0xA5#8 :: BitVec.ofNat 8 (f.body.length + 2) :: f.kind :: f.tag :: f.body ++
       [(crc16 f.covered).extractLsb' 8 8, (crc16 f.covered).extractLsb' 0 8] ∧
     (∀ n < f.bytes.length, (Receiver.hunting.takeAll (f.bytes.take n)).verdict = .incomplete) ∧
     (Receiver.hunting.takeAll f.bytes).verdict = .good f ∧
     ∀ high low : Byte, high ++ low ≠ crc16 f.covered →
       (Receiver.hunting.takeAll (0xA5#8 :: f.covered ++ [high, low])).verdict = .bad (.badCheck f.covered (high ++ low))) ∧
  (∀ len : Byte, len.toNat < 2 ∨ 252 < len.toNat →
     (Receiver.hunting.takeAll [0xA5#8, len]).verdict = .bad (.badLength len)) ∧
  (∀ (l : Line) (b : Byte) (r : LineRec),
     let r' := { r with receiver := r.receiver.take b }
     (r'.receiver.verdict = .incomplete → r.takeByte l b = (r', [])) ∧
     (∀ cause, r'.receiver.verdict = .bad cause → r.takeByte l b = (r', [.frameError l cause])) ∧
     ∀ f, r'.receiver.verdict = .good f →
       let free := { r with receiver := .hunting }
       let before : List Byte := match r.train with
         | some x => x.body
         | none => []
       let fits : Prop := ∀ x, r.train = some x → x.kind = f.kind ∧ x.tag = f.tag
       (fits → l.isLink = true → f.body.length = 250 →
         r.takeByte l b = ({ free with train := some ⟨f.kind, f.tag, before ++ f.body, 0⟩ }, [])) ∧
       (fits → l.isLink = false ∨ f.body.length ≠ 250 →
         r.takeByte l b = ({ free with train := none }, (recordTaken l f.kind f.tag (before ++ f.body)).toList)) ∧
       (¬ fits → r.takeByte l b = (free, .trainInterrupted l f.kind f.tag f.body ::
         (if f.body.length = 250 then [] else (recordTaken l f.kind f.tag f.body).toList)))) ∧
  (∀ (l : Line) (kind : Byte) (tag : Tag) (body : List Byte), recordTaken l kind tag body =
     judgeRecord l kind tag body.length (Config.kindNamed l kind) (fun k => requiredLength k body) (fun k => fieldsRead k body)) ∧
  (∀ (k : RecKind) (body : List Byte),
     (requiredLength k body = 0 ↔ k ∈ ([.site .journalRead, .site .siteStatus, .site .reset, .station .holdClose,
       .station .abandon, .station .price, .station .pay, .station .cancelPay, .station .resumePrint, .station .status,
       .terminal .captured, .terminal .reversed, .printer .cutDone, .printer .clear] : List RecKind)) ∧
     (k = .station .collect → requiredLength k body = 8)) ∧
  (∀ (st : Station) (kind : Byte) (tag : Tag) (body : List Byte),
     let read (l : Line) (k : RecKind) : Option Instr :=
       judgeRecord l kind tag body.length (some k) (fun k => requiredLength k body) (fun k => fieldsRead k body)
     read .site (.site .reset) = some (if body = [] then .reset tag else .reject .site tag .badLength kind) ∧
     read .site (.site .journalRead) = some (if body = [] then .journalRead tag else .reject .site tag .badLength kind) ∧
     read (.station st) (.station .pay) =
       some (if body = [] then .pay st tag else .reject (.station st) tag .badLength kind) ∧
     read (.terminal st) (.terminal .captured) = (if body = [] then some (.captured st) else none) ∧
     (body.length ≠ 8 → read (.station st) (.station .collect) = some (.reject (.station st) tag .badLength kind)) ∧
     ∀ ref : Chars 8, body = ref.toList → read (.station st) (.station .collect) = some (.collect st tag ref)) ∧
  (∀ (link : Link) (kind : Byte) (tag : Tag) (length : Nat) (required : RecKind → Nat) (fields : RecKind → Fields),
     let judged (named : Option RecKind) : Option Instr := judgeRecord link.line kind tag length named required fields
     let own (k : RecKind) : Prop := match link with
       | .site => ∃ x, k = .site x
       | .station _ => ∃ x, k = .station x
     judged none = some (.reject link tag .unknownKind kind) ∧
     ∀ k, (¬ own k → judged (some k) = some (.reject link tag .unknownKind kind)) ∧
       (own k → length ≠ required k → judged (some k) = some (.reject link tag .badLength kind)) ∧
       (own k → length = required k → ∃ c, judged (some k) = some c ∧ Instr.onLink link kind tag c = true ∧
         ∀ reason, c ≠ .reject link tag reason kind)) ∧
  (∀ (st : Station) (kind : Byte) (tag : Tag) (length : Nat) (named : Option RecKind) (required : RecKind → Nat)
     (fields : RecKind → Fields),
     let judged (l : Line) (g : Tag) : Option Instr := judgeRecord l kind g length named required fields
     ((∀ x, named = some (.terminal x) → length ≠ required (.terminal x)) → judged (.terminal st) tag = none) ∧
     (∀ c, judged (.terminal st) tag = some c → Instr.fromTerminal st c = true) ∧
     ((∀ x, named = some (.printer x) → length ≠ required (.printer x)) → judged (.printer st) tag = none) ∧
     (∀ c, judged (.printer st) tag = some c → Instr.fromPrinter st c = true) ∧
     ∀ tag', judged (.terminal st) tag = judged (.terminal st) tag' ∧ judged (.printer st) tag = judged (.printer st) tag')

/-- Power-on: every block at its power-on values (R191 and the power-on rule of each chapter).  The model's own queue and bytes to
come stay (logs 9 and 28), each transmit output is empty (log 30), and the start time and opening hold time of an EMPTY basket are
0 (log 2). -/
def Obligations.PowerOnValues : Prop :=
  ∀ s : State, ∃ t, exec .powerOn s = .next t ∧ t.pending = s.pending ∧ t.timeBase = 0 ∧
    t.limits = { window := 600, holdTime := 300, payTime := 120 } ∧
    (∀ l, t.line l = { state := .up, watch := some 0, errors := 0, receiver := .hunting, train := none, out := [] } ∧
      t.sentOn l = [] ∧ t.wire l = s.wire l) ∧
    (∀ st, t.request st = none ∧ (t.station st).role = .off ∧ (t.station st).addr = Vector.replicate 4 0x20#8 ∧
      (t.station st).printer = false ∧ t.payment st = none ∧ (t.pay st).count = 0 ∧ t.basketState st = .empty ∧
      t.basket st = Basket.vacant ∧ t.lane st = Lane.fresh) ∧
    t.mover = { burst := none, last := 7 } ∧ t.screenings = [] ∧ t.holds = [] ∧ t.tariff = none ∧ t.tariffId = 0 ∧
    t.sales = [] ∧ t.salesReserved = 0 ∧ t.nextSale = 1 ∧ t.journal = [] ∧ t.journalReserved = 0 ∧ t.nextSeq = 1 ∧
    t.journalArmed = true ∧ t.vouchers = [] ∧ t.nextSerial = 1 ∧ t.seed = 0 ∧
    ∀ code, 1 ≤ code → code ≤ 24 → t.item code = some
      { name := Vector.replicate 16 0x20#8, price := 0, allowance := 0, issued := 0, reserved := 0, lowMark := 0, armed := true }

/-- RESET: the blocks at their values after RESET, station configuration, line states and receivers kept, and on the lines
only the replies and the ABORT records (R190, R108, R149).  That the reply to a PAY in progress carries the sale reference, with
the count it had before the RESET, is read from R85 (log 24).  That the 100 ms watches run on is the model's choice (log 19), that
a record which has not finished leaving is discarded with the rest is log 27, and the pins are kept (logs 28 and 30). -/
def Obligations.ResetValues : Prop :=
  ∀ (tag : Tag) (s : State), ∃ t, exec (.reset tag) s = .next t ∧ t.pending = s.pending ∧ t.stations = s.stations ∧
    t.timeBase = 0 ∧ t.limits = { window := 600, holdTime := 300, payTime := 120 } ∧
    (∀ l, (t.line l).state = (s.line l).state ∧ (t.line l).watch = (s.line l).watch ∧ (t.line l).errors = 0 ∧
      (t.line l).receiver = (s.line l).receiver ∧ (t.line l).train = (s.line l).train ∧ t.wire l = s.wire l ∧
      t.sentOn l = s.sentOn l) ∧
    (t.line .site).out = (if s.isLost .site then [] else [.reply tag .ok []]) ∧
    (∀ st,
      (t.line (.station st)).out = (match s.request st with
        | some r => if s.isLost (.station st) then [] else [.reply r.tag .reset [.saleRef ⟨st, (s.pay st).count⟩]]
        | none => []) ∧
      (t.line (.terminal st)).out = (if s.payIdle st || s.isLost (.terminal st) then [] else [.abort]) ∧
      (t.line (.printer st)).out = [] ∧
      t.request st = none ∧ t.payment st = none ∧ (t.pay st).count = 0 ∧ t.basket st = Basket.vacant ∧
      t.lane st = (if usesPrinter (s.station st).role then
          if s.isLost (.printer st) then { Lane.fresh with suspended := some .lineLost }
          else { Lane.fresh with settling := some ⟨0, 5000⟩ }
        else Lane.fresh)) ∧
    t.mover = { burst := none, last := 7 } ∧ t.screenings = [] ∧ t.holds = [] ∧ t.tariff = none ∧ t.tariffId = 0 ∧
    t.sales = [] ∧ t.salesReserved = 0 ∧ t.nextSale = 1 ∧ t.journal = [] ∧ t.journalReserved = 0 ∧ t.nextSeq = 1 ∧
    t.journalArmed = true ∧ t.vouchers = [] ∧ t.nextSerial = 1 ∧ t.seed = 0 ∧ t.items = State.reset.items

/-- CONFIG-STATION for a station that is not busy: role, terminal address and presence flag are taken, the lane is set anew
(R148), and the reply gives the role the station had.  That a settling deadline keeps running at a role change, and that under a
lost printer line the last level stays, are the model's deductions (log 18); that the records waiting on the station's printer and
terminal lines stay is its choice (log 31). -/
def Obligations.ConfigStationTaken : Prop :=
  ∀ (tag : Tag) (st : Station) (role : Role) (addr : Chars 4) (printer : Bool) (s : State),
    (role = .kiosk → ∀ b ∈ addr.toList, 0x20 ≤ b.toNat ∧ b.toNat ≤ 0x7E) →
    (role = .kiosk ∨ role = .collect → printer = true) →
    s.basketState st = .empty → s.gathering st = none → s.payIdle st = true → (s.lane st).queue = [] →
    exec (.configStation tag st.val (some role) addr printer) s = .next
      (emit .site (.reply tag .ok [.role (s.station st).role])
        { s with
          stations := s.stations.set st { role := role, addr := addr, printer := printer },
          lanes := s.lanes.set st
            (if (role = .kiosk ∨ role = .collect) ∧ s.isLost (.printer st) = true then
              { s.lane st with suspended := some .lineLost, clearFlag := false }
            else { s.lane st with suspended := none, clearFlag := false, lastLevel := 0 }) })

/-- SET-LIMITS: each value clamped into its range, and the reply with the values applied and whether each was clamped
(R186).
STATUS is taken in every role and while a request is in progress, SITE-STATUS always; both answer OK with their report and
change nothing but the output.  STATUS carries the role; of the basket its state (R47), the counts of holds, seat lines and snack
units, the summary's mark and total, the time remaining to the lapse deadline and the overdue mark; the payment's state; the kind
in progress; of the lane its state (R130), its orders and those UNCERTAIN; and the link's check-error count (R187).  SITE-STATUS
carries the free counts of seat pool, hold table, sale table, journal and voucher table, the two reservation counts, every line's
state and check-error count, every role and the time base (R188). -/
def Obligations.LimitsAndStatus : Prop :=
  (∀ (tag : Tag) (w h p : Nat) (s : State),
     let l : Limits := { window := min (max w 100) 3000, holdTime := min (max h 60) 900, payTime := min (max p 30) 300 }
     exec (.setLimits tag w h p) s = .next
       (emit .site (.reply tag .ok [.limits l, .windowClamped (decide (w < 100 ∨ 3000 < w)),
         .holdTimeClamped (decide (h < 60 ∨ 900 < h)), .payTimeClamped (decide (p < 30 ∨ 300 < p))]) { s with limits := l })) ∧
  (∀ (st : Station) (tag : Tag) (s : State),
     let b := s.basket st
     let l := s.lane st
     exec (.status st tag) s = .next (emit (.station st) (.reply tag .ok [.status {
       role := (s.station st).role,
       basket := (match s.payment st with
         | none => if b.holds = [] ∧ b.snacks = [] then .empty else .opened
         | some p => if p.phase = .capturing then .empty else .paying),
       holdCount := b.holds.length, seatLineCount := b.seatLines.length, snackUnits := (b.snacks.map (·.qty)).sum,
       summary := (if b.summary.isSome then .present else if b.stale then .stale else .absent),
       total := (match b.summary with
         | some m => m.total
         | none => 0),
       remaining := (match b.lapse with
         | some d => d.dur - (s.timeBase - d.setAt).toNat
         | none => 0),
       overdue := b.overdue,
       pay := (match s.payment st with
         | none => .idle
         | some p => match p.phase with
           | .selecting => .selecting
           | .authorising => .authorising
           | .aborting => .aborting
           | .capturing => .capturing
           | .reversing => .reversing),
       inProgress := (match s.request st with
         | some r => some r.kind
         | none => none),
       lane := (if l.suspended.isSome then .suspended
         else if (match s.mover.burst with
             | some x => decide (x.lane = st)
             | none => false) = true then .running
         else if l.queue = [] then .idle else .waiting),
       orders := l.queue.length, uncertain := l.queue.countP (fun o => decide (o.status = .uncertain)),
       checkErrors := (s.line (.station st)).errors }]) s)) ∧
  (∀ (tag : Tag) (s : State),
     exec (.siteStatus tag) s = .next (emit .site (.reply tag .ok [.siteStatus {
       poolFree := 8192 - (s.screenings.map (fun e => e.2.declared)).sum,
       holdsFree := 64 - s.holds.length,
       salesFree := 2048 - s.sales.length - s.salesReserved,
       journalFree := 512 - s.journal.length - s.journalReserved,
       vouchersFree := 2048 - s.vouchers.length - (s.items.toList.map (·.reserved)).sum,
       salesReserved := s.salesReserved, journalReserved := s.journalReserved,
       lines := Vector.ofFn (fun i => (s.lines[i].state, s.lines[i].errors)),
       roles := Vector.ofFn (fun i => s.stations[i].role),
       timeBase := s.timeBase }]) s))

/-- A line that is UP becomes LOST: its watch ends and nothing waits on it (R179, and R184 for a link; that nothing waits on a
terminal or printer line either is the model's deduction, log 13, that a record whose transmission has begun is dropped too
is log 27, and that LINE_LOST is taken whatever the watch holds is log 4); the loss of the site link does nothing more.  For
every other line LINE-STATE goes to the site server, where R179 reports the line, behind what the block told has sent (log 11).
The loss of a terminal line treats the payment by its state (R106): an authorisation that was asked leaves a REVERSAL record with
confirmed no and reason LINE_LOST, and with no record the reserved entry returns; a selection is answered LINE_DOWN with the sale
reference alone (R85; log 24); the payment ends without a sale: an attempt counts when AUTHORISE was sent, the basket, its holds and
its units are settled, and the station is told the outcome of Table 5-12 when it has not been told (R94, R105, R62).  A capture becomes
UNCONFIRMED with its SALE record, and nothing else changes.
The loss of a printer line that the station's role uses suspends its lane under LINE_LOST with the clear flag clear, its orders in
flight UNCERTAIN and their sources with them, sends PRINT-FAULT with its counts, and has the mover arbitrate when its burst was of
that lane; a lane already SUSPENDED takes LINE_LOST as its kind; with another role the lane stays as it was (R143, R141, R142, R156).
That a settling deadline runs on is log 18. -/
def Obligations.LineLostValues : Prop :=
  (∀ (l : Line) (s : State), s.isLost l = false → ∃ t, exec (.lineLost l) s = .next t ∧
     let noticed : Bool := match l with
       | .site => false
       | .station _ => true
       | .terminal st => decide ((s.station st).role = .kiosk)
       | .printer st => (s.station st).printer
     t.line l = { s.line l with state := .lost, watch := none, out := [] } ∧
     (∀ m, (t.line m).state = if m = l then .lost else (s.line m).state) ∧
     t.stations = s.stations ∧ t.limits = s.limits ∧ t.timeBase = s.timeBase ∧
     (l = .site → t = setLine .site { s.line .site with state := .lost, watch := none, out := [] } s) ∧
     (l ≠ .site → s.isLost .site = false → ∃ mid, (∀ m x n, .lineState m x n ∉ mid) ∧
       (t.line .site).out = (s.line .site).out ++ mid ++ if noticed then [.lineState l .lost (s.line l).errors] else [])) ∧
  (∀ (st : Station) (s : State), s.isLost (.terminal st) = false → ∃ t, exec (.lineLost (.terminal st)) s = .next t ∧
     let gone := setLine (.terminal st) { s.line (.terminal st) with state := .lost, watch := none, out := [] } s
     let noticed (w : State) : State := if (s.station st).role = .kiosk then
         emit .site (.lineState (.terminal st) .lost (s.line (.terminal st)).errors) w
       else w
     (∀ l, l ≠ .site → l ≠ .station st → t.line l = gone.line l) ∧
     (s.payment st = none → t = noticed gone) ∧
     ∀ p, s.payment st = some p →
       let ref : SaleRef := ⟨st, (s.pay st).count⟩
       let reversed : Bool :=
         decide (p.phase = .authorising) || (decide (p.phase = .aborting) && p.asked) || decide (p.phase = .reversing)
       let entry : JournalRec :=
         { seq := s.nextSeq, time := s.timeBase, sale := none, amount := p.amount,
           body := .reversal st ref false .lineLost p.auth }
       let answered : List OutRec := match p.phase, s.request st with
         | .selecting, some r => [.reply r.tag .lineDown [.saleRef ref]]
         | _, _ => []
       let told : List OutRec := if p.reported then [] else match p.phase with
         | .authorising | .aborting => [.payOutcome ref .lineLost]
         | .reversing => if p.cause = some .cancel then [.payOutcome ref .cancelled] else []
         | .selecting | .capturing => []
       t = { s with
         screenings := t.screenings, holds := t.holds, items := t.items, baskets := s.baskets.set st (t.basket st),
         sales := t.sales, salesReserved := t.salesReserved, journal := t.journal, nextSeq := t.nextSeq,
         journalReserved := t.journalReserved, journalArmed := t.journalArmed, lanes := t.lanes, requests := t.requests,
         pays := s.pays.set st { s.pay st with current := none }, lines := t.lines } ∧
       (reversed = true → t.journal = s.journal ++ [entry] ∧ t.journalReserved = s.journalReserved - 1 ∧
         t.nextSeq = (if s.nextSeq < 4294967295 then s.nextSeq + 1 else 1) ∧ t.journalArmed = s.journalArmed) ∧
       (p.phase = .selecting ∨ (p.phase = .aborting ∧ p.asked = false) → t.journal = s.journal ∧ t.nextSeq = s.nextSeq ∧
         t.journalReserved = if p.resJournal then s.journalReserved - 1 else s.journalReserved) ∧
       (p.phase ≠ .capturing → BasketSettled st p.asked s t ∧ EndTold st answered told s t ∧ t.sales = s.sales ∧
         t.salesReserved = (if p.resSale then s.salesReserved - 1 else s.salesReserved) ∧
         t.lanes = s.lanes.set st { s.lane st with reservedRoom := (s.lane st).reservedRoom - p.resLane } ∧
         t.requests = (if p.phase = .selecting then s.requests.set st none else s.requests) ∧
         (s.isLost (.station st) = false → ∃ mid,
           (t.line (.station st)).out = (s.line (.station st)).out ++ answered ++ mid ++ told)) ∧
       (p.phase = .capturing → t.requests = s.requests ∧ ∀ n x, p.sale = some n → s.sale n = some x →
         t = noticed { gone with
           sales := s.sales.put n { x with capture := .unconfirmed },
           journal := s.journal ++ [{
             seq := s.nextSeq, time := s.timeBase, sale := some n, amount := x.total,
             body := saleEntry { x with capture := .unconfirmed } }],
           nextSeq := if s.nextSeq < 4294967295 then s.nextSeq + 1 else 1, journalReserved := s.journalReserved - 1,
           pays := s.pays.set st { s.pay st with current := none } })) ∧
  (∀ (st : Station) (s : State), s.isLost (.printer st) = false →
     let gone := setLine (.printer st) { s.line (.printer st) with state := .lost, watch := none, out := [] } s
     let noticed (w : State) : State := if (s.station st).printer then
         emit .site (.lineState (.printer st) .lost (s.line (.printer st)).errors) w
       else w
     ((s.station st).role = .off ∨ (s.station st).role = .till → exec (.lineLost (.printer st)) s = .next (noticed gone)) ∧
     ((s.station st).role = .kiosk ∨ (s.station st).role = .collect →
       (∀ held, (s.lane st).suspended = some held → exec (.lineLost (.printer st)) s = .next (noticed
         (emit (.station st) (.printFault .lineLost
             ((s.lane st).queue.countP (fun o => o.status = .uncertain)) ((s.lane st).queue.countP (fun o => o.status = .queued)))
           (setLane st { s.lane st with suspended := some .lineLost, clearFlag := false } gone)))) ∧
       ((s.lane st).suspended = none → ∃ w, exec (.lineLost (.printer st)) s = .next (noticed w) ∧
         FaultTaken st .lineLost gone w)))

/-- The loss of a station link with no payment in flight drops the GATHERING hold and empties the basket: the holds are freed, their
seats released, and the units of the snack lines returned; nothing waits on the link any more, and the site server is told (R36, R63,
R58, R13, R179); that LINE-STATE stands behind LOW-STOCK is log 11.  With a payment in flight the GATHERING hold, which no
reachable state then has (R38), is dropped and all else of the station stays: the basket, its holds and the payment (R63, R107). -/
def Obligations.StationLinkLost : Prop :=
  (∀ (st : Station) (s : State), s.isLost (.station st) = false → s.payIdle st = true →
    ∃ t, exec (.lineLost (.station st)) s = .next t ∧ t.basket st = Basket.vacant ∧
      BasketEmptied st s t ∧ GatheringDropped st s t ∧ EmptyingKeepsOthers st s t ∧
      t.line (.station st) = { s.line (.station st) with state := .lost, watch := none, out := [] } ∧
      (∀ l, l ≠ .site → l ≠ .station st → t.line l = s.line l) ∧
      (∀ n ∈ (s.basket st).holds, t.hold n = none) ∧ (∀ e, s.gathering st = some e → t.hold e.1 = none) ∧
      t = { s with
        screenings := t.screenings, holds := t.holds, items := t.items, baskets := s.baskets.set st Basket.vacant,
        lines := t.lines } ∧
      (s.isLost .site = false →
        ∃ mid, (t.line .site).out = (s.line .site).out ++ mid ++ [.lineState (.station st) .lost (s.line (.station st)).errors])) ∧
  (∀ (st : Station) (s : State), s.isLost (.station st) = false → s.payIdle st = false →
    let gone := setLine (.station st) { s.line (.station st) with state := .lost, watch := none, out := [] } s
    let answers (t : State) : Prop := exec (.lineLost (.station st)) s = .next
      (emit .site (.lineState (.station st) .lost (s.line (.station st)).errors) t)
    (s.gathering st = none → answers gone) ∧
    ∀ m g, s.gathering st = some (m, g) → s.hold m = some g →
      answers (delHold m (mapSeats g.slot g.seats Seat.release gone)))

/-- The break on a LOST line ends: the line is UP, a lane suspended under LINE_LOST may be resumed, and the change is reported
for the lines R179 names (R179, R143).
A break on a line that is UP starts the 100 ms watch, and one that ends before 100 ms discards it; the line stays UP (R179).  A
frame that is being received when the break begins is discarded with its train and counted (R180).  Nothing else changes. -/
def Obligations.RegainsAndBreaks : Prop :=
  (∀ (l : Line) (s : State), s.isLost l = true → ∃ t, exec (.lineRegained l) s = .next t ∧
     (t.line l).state = .up ∧ (∀ m, m ≠ l → (t.line m).state = (s.line m).state) ∧
     (∀ st, t.lane st = if l = .printer st ∧ (s.lane st).suspended = some .lineLost then { s.lane st with clearFlag := true }
       else s.lane st) ∧
     t = { s with lanes := t.lanes, lines := t.lines } ∧
     (s.isLost .site = false ∨ l = .site → (t.line .site).out = (s.line .site).out ++
       (if (match l with
           | .site => true
           | .station _ => true
           | .terminal st => decide ((s.station st).role = .kiosk)
           | .printer st => (s.station st).printer : Bool) = true then [.lineState l .up (s.line l).errors] else []))) ∧
  (∀ (l : Line) (s : State), s.isLost l = false →
     ((s.line l).receiver = .hunting → exec (.breakBegins l) s = .next (setLine l { s.line l with watch := some 0 } s)) ∧
     (∀ bytes n, (s.line l).receiver = .receiving bytes n → (s.line l).errors ≤ 65535 → exec (.breakBegins l) s = .next
       (setLine l { s.line l with
         watch := some 0, errors := min ((s.line l).errors + 1) 65535, receiver := .hunting, train := none } s)) ∧
     exec (.breakEnds l) s = .next (setLine l { s.line l with watch := none } s))

/-- The first record that waits on a line leaves in its frames, which the output then holds (log 30).  That a record put out before
a role change still leaves on a printer or terminal line which the station's role does not use, where R127 has the print channel send
nothing, is the model's choice of log 31.
When it is the last LINES frame of the burst in flight on its lane's printer line, with no LINES frame of an ended burst behind it
(log 18), the burst deadline is set 500 ms ahead (R184, R134).  Every other record leaves with no more effect: one that is no LINES frame, a LINES frame
that is not the last of its burst, and one left over from a burst that has ended.
A reply and a REJECT carry their request's tag, and every other record carries tag 0 (R184, R82, R127).  On a link a record
leaves as frames whose bodies in order make up its body, all full but the last, which is shorter; on a terminal or printer
line it leaves in one frame (R181).  ABORT and CUT have no body, and SELECT, CAPTURE and REVERSE that of their characters (Tables 5-1
and 7-1; log 29); the kind and the other body bytes are the model's free values (log 29). -/
def Obligations.RecordLeaves : Prop :=
  (∀ (l : Line) (r : OutRec) (rest : List OutRec) (s : State), (s.line l).out = r :: rest →
     let sent := setSent l (framesOf l r) (setLine l { s.line l with out := rest } s)
     let last (b : Burst) : Prop := ∃ n i dots, l = .printer b.lane ∧ r = .lines n i dots ∧ i + dots.length = n ∧
       ∀ m j more, .lines m j more ∉ rest
     ((∀ b, s.mover.burst = some b → ¬ last b) → exec (.recordSent l) s = .next sent) ∧
     (∀ b, s.mover.burst = some b → last b → exec (.recordSent l) s = .next
       { sent with mover := { s.mover with burst := some { b with deadline := some ⟨s.timeBase, 500⟩ } } })) ∧
  (∀ r : OutRec,
     (∀ tag code vals, r = .reply tag code vals → r.tag = tag) ∧
     (∀ tag reason kind, r = .reject tag reason kind → r.tag = tag) ∧
     ((∀ tag code vals, r ≠ .reply tag code vals) → (∀ tag reason kind, r ≠ .reject tag reason kind) → r.tag = 0)) ∧
  (∀ (l : Line) (r : OutRec), ∃ bodies last : List (List Byte),
     framesOf l r = (bodies ++ last).map (fun b => (⟨Config.recordKind r, r.tag, b⟩ : Frame).bytes) ∧ last.length = 1 ∧
     (l.isLink = true → (bodies ++ last).flatten = sentBody r ∧ (∀ b ∈ bodies, b.length = 250) ∧ ∀ b ∈ last, b.length < 250) ∧
     (l.isLink = false → bodies = [] ∧ last = [(sentBody r).take 250])) ∧
  (sentBody .abort = [] ∧ sentBody .cut = [] ∧ (∀ addr, sentBody (.select addr) = addr.toList) ∧
    ∀ code, sentBody (.capture (some code)) = code.toList ∧ sentBody (.reverse (some code)) = code.toList)

/-! ### Screenings -/

/-- BEGIN-SCREENING with every field in range, for an EMPTY slot and a declared count within the free count: the slot becomes
LOADING and the pool's free count falls by the declared count (R3, R2).
SEAT-ROW past the checks of R4: every seat of every run is loaded with its run id, position, class and kind, HOUSE seats
BLOCKED and the others FREE, the counts rise, and no seat goes (R5). -/
def Obligations.LoadingTaken : Prop :=
  (∀ (tag : Tag) (f : BeginFields) (s : State),
     1 ≤ f.slot → f.slot ≤ 32 → 1 ≤ f.auditorium → f.auditorium ≤ 16 → f.start ≤ 1439 → 500 ≤ f.band → f.band ≤ 1500 →
     (∀ x ∈ f.fares.toList, x ≤ 20000) → 1 ≤ f.declared → f.declared ≤ 800 →
     s.screening f.slot = none → f.declared ≤ s.poolFree →
     exec (.beginScreening tag f) s = .next (emit .site (.reply tag .ok [.poolFree (s.poolFree - f.declared)])
       (putScreening f.slot
         { phase := .loading, code := f.code, auditorium := f.auditorium, start := f.start, band := f.band,
           gapRule := f.gapRule, fares := f.fares, declared := f.declared, loaded := 0, runCount := 0, seats := [] } s))) ∧
  (∀ (tag : Tag) (slot row : Nat) (runs : List RunSpec) (sc : Screening) (s : State),
     1 ≤ slot → slot ≤ 32 → 1 ≤ row → row ≤ 40 → 1 ≤ runs.length → runs.length ≤ 8 →
     (∀ r ∈ runs, 1 ≤ r.count ∧ 1 ≤ r.first ∧ r.first + r.count ≤ 81 ∧ r.cls < 8 ∧ r.kinds.length = r.count ∧
       ∀ k ∈ r.kinds, k ≠ none) →
     s.screening slot = some sc → sc.phase = .loading → (∀ x ∈ sc.seats, x.row ≠ row) →
     (runs.flatMap (fun r => (List.range r.count).map (r.first + ·))).Nodup →
     sc.runCount + runs.length ≤ 160 → sc.loaded + (runs.map (·.count)).sum ≤ sc.declared →
     ∃ seats, exec (.seatRow tag slot row runs) s = .next
         (emit .site (.reply tag .ok [.runIds ((List.range runs.length).map (fun i => sc.runCount + 1 + i)),
             .loadedCount (sc.loaded + (runs.map (·.count)).sum)])
           (putScreening slot { sc with
             loaded := sc.loaded + (runs.map (·.count)).sum, runCount := sc.runCount + runs.length, seats := seats } s)) ∧
       seats.length = sc.seats.length + (runs.map (·.count)).sum ∧ (∀ x ∈ sc.seats, x ∈ seats) ∧
       ∀ (i : Nat) (r : RunSpec) (j : Nat) (k : SeatKind), runs[i]? = some r → r.kinds[j]? = some (some k) →
         { row := row, num := r.first + j, runId := sc.runCount + 1 + i, runPos := j + 1, cls := Fin.ofNat 8 r.cls, kind := k,
           state := if k = .house then .blocked else .free, gen := 0, mark := false : Seat } ∈ seats)

/-- END-LOAD, by the state of the slot (R6).
STOP-SALES, by the state of the slot (R7). -/
def Obligations.EndLoadAndStopSales : Prop :=
  (∀ (tag : Tag) (slot : Nat) (s : State), 1 ≤ slot → slot ≤ 32 →
     (s.screening slot = none → exec (.endLoad tag slot) s = .next (emit .site (.reply tag .notFound []) s)) ∧
     ∀ sc, s.screening slot = some sc →
       (sc.phase = .loading → sc.loaded = sc.declared →
         exec (.endLoad tag slot) s = .next (emit .site (.reply tag .ok []) (putScreening slot { sc with phase := .opened } s))) ∧
       (sc.phase = .loading → sc.loaded < sc.declared →
         exec (.endLoad tag slot) s = .next
           (emit .site (.reply tag .countMismatch [.declaredCount sc.declared, .loadedCount sc.loaded]) s)) ∧
       (sc.phase ≠ .loading →
         exec (.endLoad tag slot) s = .next (emit .site (.reply tag .notLoading [.slotState (s.slotState slot)]) s))) ∧
  (∀ (tag : Tag) (slot : Nat) (s : State), 1 ≤ slot → slot ≤ 32 →
     (s.screening slot = none → exec (.stopSales tag slot) s = .next (emit .site (.reply tag .notFound []) s)) ∧
     ∀ sc, s.screening slot = some sc →
       (sc.phase = .loading → exec (.stopSales tag slot) s = .next (emit .site (.reply tag .notOpen []) s)) ∧
       (sc.phase = .opened → exec (.stopSales tag slot) s = .next
         (emit .site (.reply tag .ok []) (putScreening slot { sc with phase := .stopped } s))) ∧
       (sc.phase = .stopped → exec (.stopSales tag slot) s = .next (emit .site (.reply tag .already []) s)))

/-- RETIRE-SCREENING: a load is abandoned; an OPEN or STOPPED slot that no hold lists, with no pending capture and no print
order of a sale it would free, is freed with its sales and vouchers, and with those that have no slot when it is the only slot
not EMPTY (R8, R9, R10). -/
def Obligations.RetireScreeningTaken : Prop :=
  ∀ (tag : Tag) (slot : Nat) (sc : Screening) (s : State), 1 ≤ slot → slot ≤ 32 → s.screening slot = some sc →
    let frees (of : Option Nat) : Bool := decide (of = some slot) || (decide (of = none) && s.screenings.all (fun e => e.1 = slot))
    (sc.phase = .loading → exec (.retireScreening tag slot) s = .next
      (emit .site (.reply tag .ok [.poolFree (delScreening slot s).poolFree]) (delScreening slot s))) ∧
    (sc.phase ≠ .loading → (∀ e ∈ s.holds, e.2.slot ≠ slot) →
      (∀ e ∈ s.sales, frees e.2.slot = true → e.2.capture ≠ .pending) →
      (∀ st, ∀ o ∈ (s.lane st).queue, ∀ x, s.sale o.sale = some x → frees x.slot = false) →
      ∃ t, exec (.retireScreening tag slot) s = .next t ∧
        t = { s with
          screenings := s.screenings.del slot, sales := s.sales.filter (fun e => !frees e.2.slot),
          vouchers := s.vouchers.filter (fun e => !frees e.2.slot), lines := t.lines } ∧
        (s.isLost .site = false → (t.line .site).out = (s.line .site).out ++
          [.reply tag .ok [.salesFreed (s.sales.countP (fun e => frees e.2.slot)),
            .vouchersFreed (s.vouchers.countP (fun e => frees e.2.slot)), .poolFree t.poolFree]]))

/-- BLOCK-SEATS and UNBLOCK-SEATS with 0 or more than 20 references are refused BAD_FIELD, of an EMPTY slot NOT_FOUND and of a
LOADING slot NOT_OPEN (R15, R16).
BLOCK-SEATS and UNBLOCK-SEATS of an OPEN or STOPPED slot answer OK with one result per reference, in list order, each seat
treated against the state left by those before it (R15, R16).
What BLOCK-SEATS and UNBLOCK-SEATS do to a seat by its state at its turn (the tables of R15 and R16). -/
def Obligations.BlockingTaken : Prop :=
  (∀ (tag : Tag) (slot : Nat) (ps : List SeatPos) (s : State), 1 ≤ slot → slot ≤ 32 →
     ∀ c ∈ [Instr.blockSeats tag slot ps, .unblockSeats tag slot ps],
       (ps.length = 0 ∨ 20 < ps.length → exec c s = .next (emit .site (.reply tag .badField []) s)) ∧
       (1 ≤ ps.length → ps.length ≤ 20 → s.screening slot = none → exec c s = .next (emit .site (.reply tag .notFound []) s)) ∧
       (1 ≤ ps.length → ps.length ≤ 20 → ∀ sc, s.screening slot = some sc → sc.phase = .loading →
         exec c s = .next (emit .site (.reply tag .notOpen []) s))) ∧
  ((∀ (tag : Tag) (slot : Nat) (ps : List SeatPos) (sc : Screening) (s : State),
     1 ≤ slot → slot ≤ 32 → 1 ≤ ps.length → ps.length ≤ 20 → s.screening slot = some sc → sc.phase ≠ .loading →
     exec (.blockSeats tag slot ps) s = .next
       (emit .site (.reply tag .ok [.seatResults (treatSeats blockSeat slot ps s).2]) (treatSeats blockSeat slot ps s).1) ∧
     exec (.unblockSeats tag slot ps) s = .next
       (emit .site (.reply tag .ok [.seatResults (treatSeats unblockSeat slot ps s).2]) (treatSeats unblockSeat slot ps s).1)) ∧
   ∀ (act : Seat → Seat × SeatResult) (slot : Nat) (p : SeatPos) (rest : List SeatPos) (s : State),
     treatSeats act slot [] s = (s, []) ∧
     (s.seat slot p = none → treatSeats act slot (p :: rest) s =
       ((treatSeats act slot rest s).1, .noSeat :: (treatSeats act slot rest s).2)) ∧
     ∀ x, s.seat slot p = some x →
       let s' := mapSeats slot [p] (fun y => (act y).1) s
       treatSeats act slot (p :: rest) s = ((treatSeats act slot rest s').1, (act x).2 :: (treatSeats act slot rest s').2)) ∧
  (∀ x : Seat,
     (x.state = .free → blockSeat x = ({ x with state := .blocked }, .blocked) ∧ unblockSeat x = (x, .notBlocked)) ∧
     (∀ n, x.state = .pending n ∨ x.state = .held n →
       blockSeat x = ({ x with mark := true }, .marked) ∧
       (x.mark = true → unblockSeat x = ({ x with mark := false }, .unmarked)) ∧
       (x.mark = false → unblockSeat x = (x, .notBlocked))) ∧
     (∀ n, x.state = .sold n ∨ x.state = .issued n → blockSeat x = (x, .sold) ∧ unblockSeat x = (x, .sold)) ∧
     (x.state = .blocked → blockSeat x = (x, .already) ∧ unblockSeat x = ({ x with state := .free }, .freed)))

/-- The queries answer OK and change nothing but the output.  QUERY-SEATS of a slot that is not EMPTY gives the header, the first
16 seats of the row in the range with their entries, and the number of the next (R20).  QUERY-MAP of an OPEN or STOPPED slot
gives the header and the runs of whole rows, as many as keep the seats within 240, and the next row (R18, R19), each seat as the
station sees it.  QUERY-SALE gives the record with its vouchers and seats (R119), QUERY-SNACKS the items with their available
figures and the counts of the voucher table (R168), and QUERY-VOUCHER the voucher without its check code and value (R177). -/
def Obligations.QueriesAnswerOk : Prop :=
  (∀ (tag : Tag) (st : Station) (s : State),
     (∀ slot row first last sc, 1 ≤ slot → slot ≤ 32 → 1 ≤ row → row ≤ 40 → 1 ≤ first → first ≤ last → last ≤ 80 →
       s.screening slot = some sc →
       let found := sc.seats.filter (fun x => decide (x.row = row) && decide (first ≤ x.num ∧ x.num ≤ last))
       exec (.querySeats tag slot row first last) s = .next (emit .site (.reply tag .ok
         [.slotState (s.slotState slot), .screeningCode sc.code, .declaredCount sc.declared, .loadedCount sc.loaded,
           .runCount sc.runCount,
           .seatEntries ((found.take 16).map (fun x =>
             { num := x.num, runId := x.runId, runPos := x.runPos, cls := x.cls, kind := x.kind, state := x.state.name,
               owner := (match x.state with
                 | .pending n | .held n => .hold n ((s.hold n).map (·.owner))
                 | .sold n | .issued n => .sale n
                 | .free | .blocked => .absent),
               gen := x.gen, mark := x.mark })),
           .nextSeat (match found.drop 16 with
             | [] => 0
             | x :: _ => x.num)]) s)) ∧
     (∀ slot first last sc, s.takes st .queryMap = true → 1 ≤ slot → slot ≤ 32 → 1 ≤ first → first ≤ last → last ≤ 40 →
       s.screening slot = some sc → sc.phase ≠ .loading →
       let count (r : Nat) : Nat := (sc.seats.filter (fun x => decide (x.row = r))).length
       let range := (List.range (last + 1 - first)).map (first + ·)
       ∃ rows next, exec (.queryMap st tag slot first last) s = .next (emit (.station st) (.reply tag .ok
           [.screeningCode sc.code, .auditorium sc.auditorium, .startTime (some sc.start), .slotState (s.slotState slot),
             .gapRule sc.gapRule, .mapRuns (rows.flatMap (s.rowView st sc)), .nextRow next]) s) ∧
         (rows.map count).sum ≤ 240 ∧
         (next = 0 → rows = range.filter (fun r => decide (0 < count r))) ∧
         (next ≠ 0 → next ∈ range ∧ rows = range.filter (fun r => decide (r < next) && decide (0 < count r)) ∧
           240 < (rows.map count).sum + count next)) ∧
     (∀ n x, n ≠ 0 → s.sale n = some x →
       exec (.querySale tag n) s = .next (emit .site (.reply tag .ok
         [.saleNumber n, .saleRecord x,
           .saleVouchers (x.serials.filterMap (fun v => (s.voucher v).map (fun y =>
             { serial := v, value := y.value, state := y.state.name, gen := y.gen }))),
           .saleSeats (x.seats.map (fun l => (s.seat l.ref.slot ⟨l.ref.row, l.ref.num⟩).map (fun y => (y.state.name, y.gen))))])
         s)) ∧
     (∀ first last, 1 ≤ first → first ≤ last → last ≤ 24 →
       exec (.querySnacks tag first last) s = .next (emit .site (.reply tag .ok
         [.items (((List.range (last + 1 - first)).map (first + ·)).filterMap (fun c => (s.item c).map (fun x =>
             { code := c, item := x, available := x.allowance - x.issued - x.reserved }))),
           .recordsHeld s.vouchers.length, .tableFree (2048 - s.vouchers.length - s.reservedUnits)]) s)) ∧
     (∀ serial v, s.takes st .queryVoucher = true → 1 ≤ serial → serial ≤ 999999 → s.voucher serial = some v →
       exec (.queryVoucher st tag serial) s = .next (emit (.station st) (.reply tag .ok
         [.voucherState v.state, .itemCode v.item, .itemName ((s.item v.item).map (·.name)), .generation v.gen,
           .wrongCount v.wrong, .startTime ((v.slot.bind s.screening).map (·.start))]) s))) ∧
  (∀ (st : Station) (s : State),
     (∀ (sc : Screening) (row : Nat) (run : MapRun), run ∈ s.rowView st sc row ↔
       ∃ x ∈ sc.seats, x.row = row ∧ x.runPos = 1 ∧
         let members := sc.seats.filter (fun y => decide (y.row = row) && decide (y.runId = x.runId))
         run = { row := row, first := x.num, count := members.length, runId := x.runId, cls := x.cls,
                 seats := members.map (fun y => (y.kind, s.viewOf st y)) }) ∧
     ∀ x : Seat,
       (x.state = .free → s.viewOf st x = .free) ∧ (x.state = .blocked → s.viewOf st x = .blocked) ∧
       ∀ n, (x.state = .sold n ∨ x.state = .issued n → s.viewOf st x = .taken) ∧
         (x.state = .pending n ∨ x.state = .held n → s.viewOf st x =
           if (s.hold n).map (·.owner) = some (.station st) then .mine else .taken))

/-! ### Holds -/

/-- A seat that its hold lets go becomes BLOCKED under the block-on-release mark and FREE without it, and keeps its
generation; a sold seat loses the mark; a refunded seat is FREE, unmarked and of generation 0 (R13, R14).
A site hold ends by SITE-RELEASE under its number and reference, or by its own deadline: its seats are released, its record
freed, and the site server told (R42, R43); a SITE-RELEASE that names no such hold is answered NOT_FOUND, and one with a hold
number outside 0 to 63 BAD_FIELD, and both change nothing. -/
def Obligations.ReleasesAndSiteHoldEnds : Prop :=
  (∀ (x : Seat) (n : Nat),
     (x.state = .pending n ∨ x.state = .held n →
       (x.mark = true → x.release = { x with state := .blocked, mark := false }) ∧
       (x.mark = false → x.release = { x with state := .free })) ∧
     x.sell n = { x with state := .sold n, mark := false } ∧
     x.refund = { x with state := .free, mark := false, gen := 0 }) ∧
  (∀ (tag : Tag) (n : Nat) (ref : Chars 8) (s : State),
     (64 ≤ n → exec (.siteRelease tag n ref) s = .next (emit .site (.reply tag .badField []) s)) ∧
     (∀ h, s.hold n = some h → h.owner = .site →
       (n < 64 → h.ref = some ref → exec (.siteRelease tag n ref) s = .next
         (emit .site (.reply tag .ok [.seatsReleased h.seats.length]) (delHold n (mapSeats h.slot h.seats Seat.release s)))) ∧
       (h.own.isSome = true → exec (.ownDeadlineExpiry n) s = .next
         (emit .site (.holdExpired n h.ref h.slot h.seats.length) (delHold n (mapSeats h.slot h.seats Seat.release s))))) ∧
     (n < 64 → (∀ h, s.hold n = some h → h.owner ≠ .site ∨ h.ref ≠ some ref) →
       exec (.siteRelease tag n ref) s = .next (emit .site (.reply tag .notFound []) s)))

/-- HOLD-SEAT past the checks of R24 claims the seat PENDING: in a new hold in the lowest-numbered free record, or at the end of
the station's GATHERING hold, and sets the window anew (R25, R26). -/
def Obligations.HoldSeatAdds : Prop :=
  ∀ (st : Station) (tag : Tag) (r : SeatRef) (x : Seat) (s : State),
    s.takes st .holdSeat = true → 1 ≤ r.slot → r.slot ≤ 32 → 1 ≤ r.row → r.row ≤ 40 → 1 ≤ r.num → r.num ≤ 80 →
    s.payIdle st = true → s.slotState r.slot = .opened → s.seat r.slot ⟨r.row, r.num⟩ = some x → x.state = .free →
    (∀ e ∈ s.holds, e.2.owner = .station st → e.2.slot = r.slot) → holdSeats (s.holdsOf (.station st)) < 10 →
    let w : Deadline := ⟨s.timeBase, s.limits.window⟩
    let claim (n : Nat) := mapSeats r.slot [⟨r.row, r.num⟩] (fun y => { y with state := .pending n }) s
    (∀ n, s.gathering st = none → (s.holdsOf (.station st)).length < 4 → n < 64 → s.hold n = none →
      (∀ m < n, s.hold m ≠ none) →
      exec (.holdSeat st tag r) s = .next
        (emit (.station st) (.reply tag .added [.holdNumber n, .position 1, .windowRemaining s.limits.window])
          (putHold n
            { owner := .station st, slot := r.slot, seats := [⟨r.row, r.num⟩], phase := .gathering, window := some w,
              own := none, ref := none }
            (claim n)))) ∧
    (∀ n h, s.gathering st = some (n, h) →
      exec (.holdSeat st tag r) s = .next
        (emit (.station st) (.reply tag .added
            [.holdNumber n, .position (h.seats.length + 1), .windowRemaining s.limits.window])
          (putHold n { h with seats := h.seats ++ [⟨r.row, r.num⟩], window := some w } (claim n))))

/-- The close of a GATHERING hold that meets the placement rules, by HOLD-CLOSE or by the window: its seats become HELD, the hold
STANDING, and it joins the basket with one seat line per seat (R27, R26, R32, R48).  A new seat line has category 0, but for a
COMPANION seat under a tariff with a companion-only category, where it has the lowest-numbered of those (R49).  An EMPTY basket
opens: start time, opening hold time, and the lapse deadline one hold time ahead (R54).  An OPEN one changes: no summary, no stale
mark, and the lapse deadline the lesser of one hold time and what is left of three opening hold times (R55; log 32). -/
def Obligations.ClosePasses : Prop :=
  ∀ (st : Station) (tag : Tag) (n : Nat) (h : Hold) (sc : Screening) (s : State),
    s.gathering st = some (n, h) → s.hold n = some h → s.screening h.slot = some sc → judge sc h.seats = .ok h.seats →
    let b := s.basket st
    let default (ref : SeatRef) (cat : Nat) : Prop :=
      (s.kindOf ref ≠ .companion ∨ s.tariff = none → cat = 0) ∧
      ∀ f, s.kindOf ref = .companion → s.tariff = some f → f.cats.Pairwise (fun c d => c.num < d.num) →
        ((∀ c ∈ f.cats, c.companionOnly = false) → cat = 0) ∧
        ∀ c ∈ f.cats, c.companionOnly = true → (∀ d ∈ f.cats, d.companionOnly = true → c.num ≤ d.num) → cat = c.num
    let after (t : State) : Prop :=
      t = { s with
        screenings := (mapSeats h.slot h.seats (fun x => { x with state := .held n }) s).screenings,
        holds := s.holds.put n { h with phase := .standing, window := none },
        baskets := s.baskets.set st (t.basket st), lines := t.lines } ∧
      ∃ lines : List SeatLine,
        lines.map (·.ref) = h.seats.map (fun p => ⟨h.slot, p.row, p.num⟩) ∧ (∀ l ∈ lines, default l.ref l.cat) ∧
        (b.holds = [] ∧ b.snacks = [] → t.basket st =
          { b with
            holds := [n], seatLines := b.seatLines ++ lines, summary := none, stale := false, payLoad := none,
            lapse := some ⟨s.timeBase, s.limits.holdTime * 1000⟩, start := s.timeBase, openHold := s.limits.holdTime,
            overdue := false, attempts := 0 }) ∧
        (b.holds ≠ [] ∨ b.snacks ≠ [] → t.basket st =
          { b with
            holds := b.holds ++ [n], seatLines := b.seatLines ++ lines, summary := none, stale := false,
            lapse := some ⟨s.timeBase, min (s.limits.holdTime * 1000)
              (3 * b.openHold * 1000 - (s.timeBase - b.start).toNat)⟩ })
    (s.takes st .holdClose = true → ∃ t, exec (.holdClose st tag) s = .next t ∧ after t ∧
      (s.isLost (.station st) = false → (t.line (.station st)).out = (s.line (.station st)).out ++
        [.reply tag .closing [.holdNumber n], .holdClosed n h.slot (.ok h.seats)])) ∧
    (h.window.isSome = true → ∃ t, exec (.gatheringWindowExpiry n) s = .next t ∧ after t ∧
      (s.isLost (.station st) = false → (t.line (.station st)).out = (s.line (.station st)).out ++
        [.holdClosed n h.slot (.ok h.seats)]))

/-- The companion rule: with a WHEELCHAIR seat among the listed seats, or with no COMPANION seat, it is met; else it fails with
the first COMPANION seat listed (R29).
The gap rule: a seat is stranded when it is FREE and not listed, ORDINARY or COMPANION, the positions before and after it in
its run are both occupied, and one of them is a listed seat; the rule fails with the first stranded seat (R30, R31).  The listed
seats are judged by the companion rule and then, where the screening has it on, by the gap rule (R28).
The close of a GATHERING hold that fails a placement rule, by HOLD-CLOSE or by the window, frees the hold, releases its seats and
leaves the basket; HOLD-CLOSE is answered CLOSING before the HOLD-CLOSED notice, and without a GATHERING hold NONE, changing nothing
(R27, R28, R33). -/
def Obligations.CompanionRuleAndFailedClose : Prop :=
  (∀ (sc : Screening) (ps : List SeatPos),
     ((∃ x ∈ sc.seats, x.pos ∈ ps ∧ x.kind = .wheelchair) → companionFault sc ps = none) ∧
     ((∀ x ∈ sc.seats, x.pos ∈ ps → x.kind ≠ .companion) → companionFault sc ps = none) ∧
     (∀ before x behind, sc.seats = before ++ x :: behind → x.pos ∈ ps → x.kind = .companion →
       (∀ y ∈ before, y.pos ∈ ps → y.kind ≠ .companion) → (∀ y ∈ sc.seats, y.pos ∈ ps → y.kind ≠ .wheelchair) →
       companionFault sc ps = some x.pos)) ∧
  (∀ (sc : Screening) (ps : List SeatPos),
     let occupied (y : Option Seat) : Prop := ∀ z, y = some z → z.state ≠ .free ∨ z.pos ∈ ps
     let listed (y : Option Seat) : Prop := ∃ z, y = some z ∧ z.pos ∈ ps
     let at' (run pos : Nat) : Option Seat := sc.seats.find? (fun z => decide (z.runId = run) && decide (z.runPos = pos))
     (∀ x, 1 ≤ x.runPos → (stranded sc ps x = true ↔
       x.state = .free ∧ x.pos ∉ ps ∧ (x.kind = .ordinary ∨ x.kind = .companion) ∧
         occupied (at' x.runId (x.runPos - 1)) ∧ occupied (at' x.runId (x.runPos + 1)) ∧
         (listed (at' x.runId (x.runPos - 1)) ∨ listed (at' x.runId (x.runPos + 1))))) ∧
     ((∀ x ∈ sc.seats, stranded sc ps x = false) → gapFault sc ps = none) ∧
     (∀ before x behind, sc.seats = before ++ x :: behind → (∀ y ∈ before, stranded sc ps y = false) →
       stranded sc ps x = true → gapFault sc ps = some x.pos) ∧
     (∀ p, companionFault sc ps = some p → judge sc ps = .companion p) ∧
     (companionFault sc ps = none →
       (sc.gapRule = false ∨ gapFault sc ps = none → judge sc ps = .ok ps) ∧
       ∀ p, sc.gapRule = true → gapFault sc ps = some p → judge sc ps = .gap p)) ∧
  (∀ (st : Station) (n : Nat) (h : Hold) (sc : Screening) (r : CloseResult) (s : State),
     s.gathering st = some (n, h) → s.hold n = some h → s.screening h.slot = some sc → judge sc h.seats = r →
     r ≠ .ok h.seats →
     let freed := delHold n (mapSeats h.slot h.seats Seat.release s)
     (h.window.isSome = true →
       exec (.gatheringWindowExpiry n) s = .next (emit (.station st) (.holdClosed n h.slot r) freed)) ∧
     ∀ tag, s.takes st .holdClose = true →
       exec (.holdClose st tag) s = .next (emit (.station st) (.holdClosed n h.slot r)
         (emit (.station st) (.reply tag .closing [.holdNumber n]) freed))) ∧
  (∀ (st : Station) (tag : Tag) (s : State), s.takes st .holdClose = true → s.gathering st = none →
     exec (.holdClose st tag) s = .next (emit (.station st) (.reply tag .noHold []) s))

/-- DROP-HOLD of the station's GATHERING hold frees it, releases its seats and leaves the basket; of a STANDING hold, it frees it
and releases its seats and takes the hold and its seat lines out of the basket (R34).  The other holds, seat lines and snack lines
keep their order, no summary and no stale mark is left, and the lapse deadline lies the lesser of one hold time and what is left of
three opening hold times ahead (R48, R55; log 32); with neither hold nor snack line left the basket is EMPTY and the station's
GATHERING hold is dropped with it (R58, R35).  The reply is OK with the hold number and the count of seats released: that of the seats
the hold named lists, also where the GATHERING hold's seats go with them, is the model's reading of R34 (log 16). -/
def Obligations.DropHoldTaken : Prop :=
  ∀ (st : Station) (tag : Tag) (n : Nat) (h : Hold) (s : State),
    s.takes st .dropHold = true → n < 64 → s.payIdle st = true → s.hold n = some h → h.owner = .station st →
    (h.phase = .gathering → exec (.dropHold st tag n) s = .next
      (emit (.station st) (.reply tag .ok [.holdNumber n, .seatsReleased h.seats.length])
        (delHold n (mapSeats h.slot h.seats Seat.release s)))) ∧
    (h.phase ≠ .gathering →
      let released := delHold n (mapSeats h.slot h.seats Seat.release s)
      let b := s.basket st
      let holds := b.holds.filter (fun m => m ≠ n)
      let left : Basket :=
        { b with
          holds := holds, seatLines := b.seatLines.filter (fun l => l.ref.slot ≠ h.slot ∨ refPos l.ref ∉ h.seats),
          summary := none, stale := false,
          lapse := some ⟨s.timeBase, min (s.limits.holdTime * 1000) (3 * b.openHold * 1000 - (s.timeBase - b.start).toNat)⟩ }
      let answers (t : State) : Prop := exec (.dropHold st tag n) s = .next
        (emit (.station st) (.reply tag .ok [.holdNumber n, .seatsReleased h.seats.length]) t)
      (holds ≠ [] ∨ b.snacks ≠ [] → answers (setBasket st left released)) ∧
      (holds = [] → b.snacks = [] → s.holds.wf = true →
        (s.gathering st = none → answers (setBasket st Basket.vacant released)) ∧
        ∀ m g, s.gathering st = some (m, g) →
          answers (setBasket st Basket.vacant (delHold m (mapSeats g.slot g.seats Seat.release released))))) ∧
    (h.phase ≠ .gathering → ∃ t, exec (.dropHold st tag n) s = .next t ∧ t.hold n = none ∧ n ∉ (t.basket st).holds ∧
      (t.basket st).summary = none ∧ (∀ l ∈ (t.basket st).seatLines, l.ref.slot = h.slot → refPos l.ref ∉ h.seats) ∧
      (∀ p ∈ h.seats, ∀ y, s.seat h.slot p = some y → t.seat h.slot p = some y.release) ∧
      t = { s with
        screenings := t.screenings, holds := t.holds, baskets := s.baskets.set st (t.basket st), items := t.items,
        lines := t.lines })

/-- SITE-HOLD past the checks of R40 holds every listed seat in the lowest-numbered free record, with its own deadline (R41). -/
def Obligations.SiteHoldTaken : Prop :=
  ∀ (tag : Tag) (slot : Nat) (ps : List SeatPos) (seconds : Nat) (ref : Chars 8) (sc : Screening) (n : Nat) (s : State),
    1 ≤ slot → slot ≤ 32 → 1 ≤ ps.length → ps.length ≤ 10 → ps.Nodup →
    (∀ p ∈ ps, 1 ≤ p.row ∧ p.row ≤ 40 ∧ 1 ≤ p.num ∧ p.num ≤ 80) → 60 ≤ seconds → seconds ≤ 1800 →
    s.screening slot = some sc → sc.phase = .opened → (∀ p ∈ ps, ∃ x, sc.seat p = some x ∧ x.state = .free) →
    (s.holdsOf .site).length < 32 → judge sc ps = .ok ps → n < 64 → s.hold n = none → (∀ m < n, s.hold m ≠ none) →
    exec (.siteHold tag slot ps seconds ref) s = .next (emit .site (.reply tag .ok [.holdNumber n])
      (putHold n
        { owner := .site, slot := slot, seats := ps, phase := .standing, window := none,
          own := some ⟨s.timeBase, seconds * 1000⟩, ref := some ref }
        (mapSeats slot ps (fun x => { x with state := .held n }) s)))

/-! ### Baskets -/

/-- SET-CATEGORY past the checks of R50: the seat's line takes the category, and the basket changes: no summary, no stale mark,
and the lapse deadline the lesser of one hold time and what is left of three opening hold times (R50, R55; log 32).
PRICE past the checks of R60 stores the summary of the basket as it stands and clears the stale mark; the lapse deadline is
not set again, and nothing else changes (R60, R69). -/
def Obligations.CategoriesAndPrice : Prop :=
  (∀ (st : Station) (tag : Tag) (ref : SeatRef) (cat : Nat) (t : Tariff) (c : Category) (s : State),
     s.takes st .setCategory = true → 1 ≤ ref.slot → ref.slot ≤ 32 → 1 ≤ ref.row → ref.row ≤ 40 → 1 ≤ ref.num → ref.num ≤ 80 →
     cat < 8 → s.payIdle st = true → (∃ l ∈ (s.basket st).seatLines, l.ref = ref) → s.tariff = some t →
     t.cats.find? (fun d => d.num = cat) = some c → (c.companionOnly = true ↔ s.kindOf ref = .companion) →
     exec (.setCategory st tag ref cat) s = .next (emit (.station st) (.reply tag .ok [.seat ref, .label c.label])
       { s with
         baskets := s.baskets.set st { s.basket st with
           seatLines := (s.basket st).seatLines.map (fun l => if l.ref = ref then { l with cat := cat } else l),
           summary := none, stale := false,
           lapse := some ⟨s.timeBase, min (s.limits.holdTime * 1000)
             (3 * (s.basket st).openHold * 1000 - (s.timeBase - (s.basket st).start).toNat)⟩ } })) ∧
  (∀ (st : Station) (tag : Tag) (t : Tariff) (s : State),
     let b := s.basket st
     s.takes st .price = true → s.payIdle st = true → b.hollow = false → s.gathering st = none → s.tariff = some t →
     (∀ l ∈ b.seatLines, ∃ c, t.cats.find? (fun d => d.num = l.cat) = some c ∧
       (c.companionOnly = true ↔ s.kindOf l.ref = .companion)) →
     exec (.price st tag) s = .next
       (emit (.station st) (.reply tag .ok [.summary (pricing t b.seatLines b.snacks s)])
         (setBasket st { b with summary := some (pricing t b.seatLines b.snacks s), stale := false } s)))

/-- ADD-SNACK past the checks of R51: the line rises or is appended, the item's reserved count rises, an EMPTY basket opens with
its deadline one hold time ahead, and an OPEN one changes: no summary, no stale mark, and the lapse deadline the lesser of one hold
time and what is left of three opening hold times (R52, R54, R55; log 32).
REMOVE-SNACK past its checks: the line falls and goes at 0, the item's reserved count falls, and the basket changes likewise, or is
emptied, with the station's GATHERING hold dropped, when neither a hold nor a snack line is left (R53, R55, R58, R35).
Both answer OK with the line's quantity, 0 when the line has gone, and the total of snack units (R52, R53). -/
def Obligations.SnackLinesChanged : Prop :=
  (∀ (st : Station) (tag : Tag) (item qty : Nat) (x : Item) (s : State),
     let b := s.basket st
     let after := if b.snacks.any (fun y => y.item = item) then
         b.snacks.map (fun y => if y.item = item then { y with qty := y.qty + qty } else y)
       else b.snacks ++ [⟨item, qty⟩]
     s.takes st .addSnack = true → s.item item = some x → 1 ≤ qty → qty ≤ 9 → s.payIdle st = true →
     addPassesLimit b.snacks item qty = false → x.issued + x.reserved + qty ≤ x.allowance →
     s.vouchers.length + s.reservedUnits + qty ≤ 2048 →
     ∃ t, exec (.addSnack st tag item qty) s = .next t ∧
       t = { s with items := t.items, baskets := s.baskets.set st (t.basket st), lines := t.lines } ∧
       (∃ armed, t.item item = some { x with reserved := x.reserved + qty, armed := armed }) ∧
       (∀ code, code ≠ item → t.item code = s.item code) ∧
       (b.holds = [] ∧ b.snacks = [] → t.basket st =
         { b with
           snacks := after, summary := none, stale := false, payLoad := none, overdue := false, attempts := 0,
           start := s.timeBase, openHold := s.limits.holdTime, lapse := some ⟨s.timeBase, s.limits.holdTime * 1000⟩ }) ∧
       (b.holds ≠ [] ∨ b.snacks ≠ [] → t.basket st =
         { b with
           snacks := after, summary := none, stale := false,
           lapse := some ⟨s.timeBase, min (s.limits.holdTime * 1000)
             (3 * b.openHold * 1000 - (s.timeBase - b.start).toNat)⟩ }) ∧
       (s.isLost (.station st) = false → (t.line (.station st)).out = (s.line (.station st)).out ++
         [.reply tag .ok [.quantity (match b.snacks.find? (fun y => y.item = item) with
             | some y => y.qty + qty
             | none => qty),
           .snackUnits (after.map (·.qty)).sum]])) ∧
  (∀ (st : Station) (tag : Tag) (item qty : Nat) (x : Item) (line : SnackLine) (s : State),
     let b := s.basket st
     let left := (b.snacks.map (fun y => if y.item = item then { y with qty := y.qty - qty } else y)).filter (fun y => 0 < y.qty)
     s.takes st .removeSnack = true → s.item item = some x → 1 ≤ qty → qty ≤ 9 → s.payIdle st = true →
     b.snacks.find? (fun y => y.item = item) = some line → qty ≤ line.qty →
     ∃ t, exec (.removeSnack st tag item qty) s = .next t ∧
       (∃ armed, t.item item = some { x with reserved := x.reserved - qty, armed := armed }) ∧
       (∀ code, code ≠ item → t.item code = s.item code) ∧
       (b.holds ≠ [] ∨ left ≠ [] →
         t = { s with items := t.items, baskets := s.baskets.set st (t.basket st), lines := t.lines } ∧
         t.basket st =
           { b with
             snacks := left, summary := none, stale := false,
             lapse := some ⟨s.timeBase, min (s.limits.holdTime * 1000)
               (3 * b.openHold * 1000 - (s.timeBase - b.start).toNat)⟩ }) ∧
       (b.holds = [] → left = [] →
         t = { s with
           screenings := t.screenings, holds := t.holds, items := t.items, baskets := s.baskets.set st Basket.vacant,
           lines := t.lines } ∧
         GatheringDropped st s t ∧ (s.gathering st = none → t.screenings = s.screenings ∧ t.holds = s.holds)) ∧
       (s.isLost (.station st) = false → (t.line (.station st)).out = (s.line (.station st)).out ++
         [.reply tag .ok [.quantity (match left.find? (fun y => y.item = item) with
             | some y => y.qty
             | none => 0),
           .snackUnits (left.map (·.qty)).sum]]))

/-- ABANDON, and the lapse deadline of a basket with no payment in flight, empty the basket: every hold of its list and the
GATHERING hold are freed, their seats released, the reserved units of its snack lines returned, and the basket is EMPTY; no other
hold, seat, item or basket, no sale, payment, lane or journal record changes (R59, R56, R58, R35).
The lapse deadline reached while a payment is in flight sets the overdue mark, discards the deadline and releases nothing
(R57). -/
def Obligations.EmptyingAndLapse : Prop :=
  (∀ (st : Station) (tag : Tag) (s : State), s.payIdle st = true →
     let after (t : State) : Prop :=
       t = { s with
         screenings := t.screenings, holds := t.holds, items := t.items, baskets := s.baskets.set st Basket.vacant,
         lines := t.lines } ∧
       BasketEmptied st s t ∧ GatheringDropped st s t ∧ EmptyingKeepsOthers st s t ∧
       ∀ e, s.gathering st = some e → t.hold e.1 = none
     (s.takes st .abandon = true → ∃ t, exec (.abandon st tag) s = .next t ∧ after t ∧
       (s.isLost (.station st) = false → (t.line (.station st)).out = (s.line (.station st)).out ++
         [.reply tag .ok [.seatsReleased (s.seatsToRelease st), .unitsReturned (unitsOf (s.basket st).snacks)]])) ∧
     ((s.basket st).lapse.isSome = true → ∃ t, exec (.lapseDeadlineReached st) s = .next t ∧ after t ∧
       (s.isLost (.station st) = false → (t.line (.station st)).out = (s.line (.station st)).out ++
         [.basketLapsed .lapsed (s.seatsToRelease st) (unitsOf (s.basket st).snacks)]))) ∧
  (∀ (st : Station) (s : State), s.payIdle st = false → (s.basket st).lapse.isSome = true →
     exec (.lapseDeadlineReached st) s = .next (setBasket st { s.basket st with overdue := true, lapse := none } s))

/-! ### Prices -/

/-- The stages of a seat fare: the exact product rounded half-up to the cent, then half-up to the step, then the ceiling with its
mark; for every step a tariff may hold, the fare is a multiple of the step and at most 20,000 (R71, R72, R73).
Each seat line is priced from the class fare of its seat in its screening, the screening's band factor, the factor of its category and
the tariff's step, with the booking fee unless the category is fee-exempt or the fare 0, and their sum its total (R68, R74); each
snack line at the item's unit price times its quantity, and the subtotal is the sum of these amounts (R75).
The totals of a pricing: the total is the seat part plus the snack net; the discount is rounded down and applies only with a
fare above 0; each tax is rounded half-up and never exceeds its amount (R76, R77, R78). -/
def Obligations.PriceArithmetic : Prop :=
  (∀ f m p r : Nat, r ∈ [1, 5, 10, 25, 50, 100] →
     let c := (f * m * p + 500000) / 1000000
     let stepped := if r ≤ 2 * (c % r) then c - c % r + r else c - c % r
     seatFare f m p r = (min stepped 20000, decide (20000 < stepped)) ∧ (seatFare f m p r).1 % r = 0 ∧
       (seatFare f m p r).1 ≤ 20000) ∧
  (∀ (t : Tariff) (lines : List SeatLine) (snacks : List SnackLine) (s : State),
     let m := pricing t lines snacks s
     m.seats = lines.map (priceSeat t s) ∧ m.snacks = snacks.map (priceSnack s) ∧ m.tariffId = s.tariffId ∧
       m.subtotal = (m.snacks.map (·.amount)).sum ∧ (∀ x ∈ m.seats, x.total = x.fare + x.fee) ∧
       m.total = m.seatPart + m.snackNet ∧ m.seatPart = (m.seats.map (fun x => x.fare + x.fee)).sum ∧
       m.snackNet = m.subtotal - m.discount ∧ m.discount = m.subtotal * m.effD / 1000 ∧
       ((∃ x ∈ m.seats, 0 < x.fare) → m.effD = t.combo) ∧ ((∀ x ∈ m.seats, x.fare = 0) → m.effD = 0) ∧
       m.ticketTax = (m.seatPart * t.ticketTax + (10000 + t.ticketTax) / 2) / (10000 + t.ticketTax) ∧
       m.snackTax = (m.snackNet * t.snackTax + (10000 + t.snackTax) / 2) / (10000 + t.snackTax) ∧
       m.ticketTax ≤ m.seatPart ∧ m.snackTax ≤ m.snackNet) ∧
  (∀ (t : Tariff) (l : SeatLine) (sc : Screening) (x : Seat) (c : Category) (s : State),
     s.screening l.ref.slot = some sc → s.seat l.ref.slot ⟨l.ref.row, l.ref.num⟩ = some x →
     t.cats.find? (fun d => d.num = l.cat) = some c →
     let fare := seatFare sc.fares[x.cls] sc.band c.factor t.step
     let fee := if c.feeExempt = true ∨ fare.1 = 0 then 0 else t.bookingFee
     priceSeat t s l = { ref := l.ref, cat := l.cat, fare := fare.1, fee := fee, total := fare.1 + fee, clamped := fare.2 }) ∧
  (∀ (l : SnackLine) (x : Item) (s : State), s.item l.item = some x →
     priceSnack s l = { item := l.item, qty := l.qty, price := x.price, amount := x.price * l.qty })

/-- The charged values of a pricing's units: the units in snack-line order, each its unit price times 1000 less the effective D over
1000, rounded down, and the residue of the snack net, which lies between 0 and the number of units, to the first.  They are one per
unit and sum to the snack net (R80). -/
def Obligations.ChargedValuesSumToSnackNet : Prop :=
  ∀ (t : Tariff) (lines : List SeatLine) (snacks : List SnackLine) (s : State), t.combo ≤ 500 →
    let m := pricing t lines snacks s
    let units := m.snacks.flatMap (fun l => List.replicate l.qty (l.item, l.price * (1000 - m.effD) / 1000))
    let shared := (units.map (·.2)).sum
    chargedValues m = (match units with
      | [] => []
      | (item, v) :: rest => (item, v + (m.snackNet - shared)) :: rest) ∧
    shared ≤ m.snackNet ∧ m.snackNet - shared ≤ units.length ∧
    ((chargedValues m).map (·.2)).sum = m.snackNet ∧ (chargedValues m).length = (snacks.map (·.qty)).sum

/-- LOAD-TARIFF and LOAD-SNACKS past their checks are taken whole; an idle station's basket loses its summary and is marked
stale, and a PAYING one keeps it under the payment-load mark (R67, R164, R61).  Each idle station whose summary is removed is sent
PRICE-STALE with the kind of the load (R61), and the reply is OK with the new tariff identity (R67) or the count of items changed
(R164); no other line is sent anything. -/
def Obligations.LoadsTaken : Prop :=
  let told (s : State) (k : LoadKind) (reply : OutRec) (t : State) : Prop :=
    ∀ l, t.line l = if s.isLost l then s.line l else { s.line l with out := (s.line l).out ++ (match l with
      | .site => [reply]
      | .station st => if (s.basket st).summary.isSome = true ∧ s.payIdle st = true then [.priceStale k] else []
      | .terminal _ | .printer _ => []) }
  (∀ (tag : Tag) (f : Tariff) (s : State), tariffFault f = none → ∃ t, exec (.loadTariff tag f) s = .next t ∧
    t = { s with
      tariff := t.tariff, tariffId := if s.tariffId < 4294967295 then s.tariffId + 1 else 1, baskets := t.baskets,
      lines := t.lines } ∧
    told s .tariff (.reply tag .ok [.tariffId t.tariffId]) t ∧
    (∃ g, t.tariff = some { f with cats := g } ∧ g.Perm f.cats ∧ g.Pairwise (fun a b => a.num < b.num)) ∧
    (∀ st, t.basket st =
      if s.basketState st = .paying then { s.basket st with payLoad := some .tariff }
      else if (s.basket st).summary.isSome = true ∧ s.payIdle st = true then
        { s.basket st with summary := none, stale := true }
      else s.basket st)) ∧
  ∀ (tag : Tag) (entries : List SnackEntry) (s : State), 1 ≤ entries.length → entries.length ≤ 24 →
    (∀ e ∈ entries, 1 ≤ e.item ∧ e.item ≤ 24 ∧ e.price ≤ 5000) → (entries.map (·.item)).Nodup →
    ∃ t, exec (.loadSnacks tag entries) s = .next t ∧ t = { s with items := t.items, baskets := t.baskets, lines := t.lines } ∧
      told s .snacks (.reply tag .ok [.itemsChanged entries.length]) t ∧
      (∀ e ∈ entries, ∀ x, s.item e.item = some x → t.item e.item = some { x with name := e.name, price := e.price }) ∧
      (∀ code, (∀ e ∈ entries, e.item ≠ code) → t.item code = s.item code) ∧
      ∀ st, t.basket st =
        if s.basketState st = .paying then { s.basket st with payLoad := some .snacks }
        else if (s.basket st).summary.isSome = true ∧ s.payIdle st = true then
          { s.basket st with summary := none, stale := true }
        else s.basket st

/-! ### Payment -/

/-- PAY past the checks of R87: the reservation set is taken, the payment count rises, the holds of the basket become PAYING,
SELECT leaves for the terminal with the 2 s step deadline, the context is SELECTING, and the PAY is in progress without a reply
(R85, R88, R89, R183). -/
def Obligations.PayAccepted : Prop :=
  ∀ (st : Station) (tag : Tag) (m : Summary) (s : State),
    let b := s.basket st
    let chain := b.seatLines.length + (b.snacks.map (·.qty)).sum + 1
    s.takes st .pay = true → s.payIdle st = true → s.gathering st = none → b.hollow = false → b.summary = some m →
    m.total ≠ 0 → b.attempts ≠ 3 → s.isLost (.terminal st) = false → s.sales.length + s.salesReserved < 2048 →
    s.journal.length + s.journalReserved < 512 →
    (s.lane st).queue.length + (s.lane st).reservedRoom + chain ≤ 32 →
    ∃ t, exec (.pay st tag) s = .next t ∧
      t = { s with
        salesReserved := s.salesReserved + 1, journalReserved := s.journalReserved + 1, journalArmed := t.journalArmed,
        lanes := s.lanes.set st { s.lane st with reservedRoom := (s.lane st).reservedRoom + chain },
        pays := s.pays.set st
          { count := if (s.pay st).count < 65535 then (s.pay st).count + 1 else 1,
            current := some
              { phase := .selecting, amount := m.total, limit := none, step := some ⟨s.timeBase, 2000⟩, asked := false,
                cause := none, auth := none, sale := none, resSale := true, resJournal := true, resLane := chain,
                reported := false } },
        holds := t.holds, requests := s.requests.set st (some ⟨.pay, tag⟩), lines := t.lines } ∧
      (∀ n, t.hold n = if n ∈ b.holds then (s.hold n).map (fun h => { h with phase := .paying }) else s.hold n) ∧
      (t.line (.terminal st)).out = (s.line (.terminal st)).out ++ [.select (s.station st).addr] ∧
      (t.line (.station st)).out = (s.line (.station st)).out

/-- SELECTED with the terminal's address and READY: with no cancel asked, AUTHORISE leaves with amount and sale reference, the
time limit runs, the context is AUTHORISING, and the PAY is answered STARTED; after a cancel, ABORT leaves in its place with the 10 s
step deadline, the context is ABORTING with its outcome reported, and the PAY is answered CANCELLED (R90).
A selection that does not succeed, by another address, a terminal not READY, or the 2 s step deadline, answers the PAY and
ends the payment without a sale: the reservations return, the context is IDLE, no attempt is counted (R91, R94), and the basket is
settled by the first case of Table 3-6 that holds: emptied when overdue or with its link lost, without its summary after a load,
else as it was; the notice of the settling follows the reply (R62).  That the reply carries the sale reference before the fields of
Table 5-7 is read from R85 (log 24). -/
def Obligations.SelectionJudged : Prop :=
  (∀ (st : Station) (p : Payment) (r : Request) (s : State), s.payment st = some p → p.phase = .selecting →
     s.request st = some r →
     let ref : SaleRef := ⟨st, (s.pay st).count⟩
     (p.cause = none → exec (.selected st (s.station st).addr .ready) s = .next
       (setRequest st none
         (emit (.station st) (.reply r.tag .started [.saleRef ref, .amount p.amount, .timeLimit s.limits.payTime])
           (emit (.terminal st) (.authorise p.amount ref)
             (setPayment st (some { p with
               phase := .authorising, step := none, asked := true,
               limit := some ⟨s.timeBase, s.limits.payTime * 1000⟩ }) s))))) ∧
     (p.cause.isSome = true → exec (.selected st (s.station st).addr .ready) s = .next
       (setRequest st none
         (emit (.station st) (.reply r.tag .cancelled [.saleRef ref])
           (emit (.terminal st) .abort
             (setPayment st (some { p with
               phase := .aborting, limit := none, step := some ⟨s.timeBase, 10000⟩, reported := true }) s)))))) ∧
  (∀ (st : Station) (p : Payment) (r : Request) (s : State), s.payment st = some p → p.phase = .selecting → p.asked = false →
     p.resSale = true → p.resJournal = true → s.request st = some r →
     let after (c : Code) (vs : List Val) (t : State) : Prop :=
       t = { s with
         screenings := t.screenings, holds := t.holds, items := t.items, baskets := s.baskets.set st (t.basket st),
         salesReserved := s.salesReserved - 1, journalReserved := s.journalReserved - 1, journalArmed := t.journalArmed,
         lanes := s.lanes.set st { s.lane st with reservedRoom := (s.lane st).reservedRoom - p.resLane },
         pays := s.pays.set st { s.pay st with current := none }, requests := s.requests.set st none, lines := t.lines } ∧
       BasketSettled st false s t ∧ EndTold st [.reply r.tag c (.saleRef ⟨st, (s.pay st).count⟩ :: vs)] [] s t
     (∀ echo status, echo ≠ (s.station st).addr → ∃ t, exec (.selected st echo status) s = .next t ∧
       after .wrongTerminal [.echo echo] t) ∧
     (∀ status, status ≠ .ready → ∃ t, exec (.selected st (s.station st).addr status) s = .next t ∧
       after .terminalBusy [.selectStatus status] t) ∧
     (p.step.isSome = true → ∃ t, exec (.selectStepDeadline st) s = .next t ∧ after .lineDown [] t))

/-- A PROGRESS record taken in AUTHORISING is relayed to the station with the sale reference and the stage, and changes nothing
else; in every other state it is discarded (R92, R83).
OUTCOME DECLINED, CANCELLED or ERROR taken in AUTHORISING ends the payment without a sale and without a journal record, counts
an attempt, settles the basket, and tells the station the outcome behind the notice of the settling (R95, R94, R105, R62). -/
def Obligations.AuthorisationReports : Prop :=
  (∀ (st : Station) (stage : PayStage) (s : State),
     (∀ p, s.payment st = some p → p.phase = .authorising → exec (.progress st stage) s = .next
       (emit (.station st) (.payProgress ⟨st, (s.pay st).count⟩ stage) s)) ∧
     ((∀ p, s.payment st = some p → p.phase ≠ .authorising) → exec (.progress st stage) s = .next s)) ∧
  (∀ (st : Station) (o : TermOutcome) (told : PayOutcome) (p : Payment) (s : State),
     s.payment st = some p → p.phase = .authorising → p.asked = true → p.reported = false → p.resSale = true →
     p.resJournal = true →
     (∃ r, o = .declined r ∧ told = .declined r) ∨ (o = .cancelled ∧ told = .cancelled) ∨ (o = .error ∧ told = .error) →
     ∃ t, exec (.outcome st o) s = .next t ∧
       t = { s with
         screenings := t.screenings, holds := t.holds, items := t.items, baskets := s.baskets.set st (t.basket st),
         salesReserved := s.salesReserved - 1, journalReserved := s.journalReserved - 1, journalArmed := t.journalArmed,
         lanes := s.lanes.set st { s.lane st with reservedRoom := (s.lane st).reservedRoom - p.resLane },
         pays := s.pays.set st { s.pay st with current := none }, lines := t.lines } ∧
       BasketSettled st true s t ∧ EndTold st [] [.payOutcome ⟨st, (s.pay st).count⟩ told] s t)

/-- OUTCOME APPROVED taken in AUTHORISING commits the basket: a sale record with the summary's seat lines, snack lines and amounts
under a fresh number, beside the other sales, in the slot of the basket's holds; the seats SOLD, the holds freed, no other seat or
hold touched; one PRINT_PENDING voucher per unit, each unit passing from the reserved to the issued count, no other voucher touched
(that a serial is free needs records below 1,000,000); the chain queued in the reserved room, the outstanding count its length, the
basket EMPTY; CAPTURE leaves for the terminal with the 10 s step deadline, the context is CAPTURING with the sale number, and the
station is sent PAY-OUTCOME APPROVED with sale reference, sale number and card tail (R93, R112, R166, R170, R80).  A seat line takes
its category's label while the tariff of the summary is in force; after a load it is a free value (log 6).
The lane may then come to request the mover, which in BURST leaves the chain as it is and when IDLE grants in the same step
(R134). -/
def Obligations.ApprovalCommits : Prop :=
  ∀ (st : Station) (code : Chars 6) (tail : Fin 10000) (p : Payment) (m : Summary) (s : State),
    s.payment st = some p → p.phase = .authorising → (s.basket st).summary = some m → s.sales.wf = true →
    s.sales.length ≤ 2048 → 1 ≤ s.nextSale → s.nextSale ≤ 65535 →
    ∃ t n x, exec (.outcome st (.approved code tail)) s = .next t ∧
      s.sale n = none ∧ 1 ≤ n ∧ n ≤ 65535 ∧ t.nextSale = (if n < 65535 then n + 1 else 1) ∧
      t.sale n = some x ∧ x.origin = .station st ∧ x.total = m.total ∧ x.seatPart = m.seatPart ∧ x.snackNet = m.snackNet ∧
      x.subtotal = m.subtotal ∧ x.discount = m.discount ∧ x.effD = m.effD ∧ x.ticketTax = m.ticketTax ∧
      x.snackTax = m.snackTax ∧ x.tariffId = m.tariffId ∧ x.ref = some ⟨st, (s.pay st).count⟩ ∧ x.auth = some ⟨code, tail⟩ ∧
      x.capture = .pending ∧ x.booking = none ∧ x.state = .active ∧ x.snacks = m.snacks ∧
      x.seats.map (fun l => (⟨l.ref, l.cat, l.fare, l.fee, l.total, l.clamped⟩ : PricedSeat)) = m.seats ∧
      (∀ f c, m.tariffId = s.tariffId → s.tariff = some f → ∀ l ∈ x.seats,
        f.cats.find? (fun d => d.num = l.cat) = some c → l.label = c.label) ∧
      ((s.basket st).holds = [] → x.slot = none) ∧
      (∀ h r, (s.basket st).holds.head? = some h → s.hold h = some r → x.slot = some r.slot) ∧
      x.serials.length = (chargedValues m).length ∧
      t = { s with
        screenings := t.screenings, holds := t.holds, baskets := s.baskets.set st Basket.vacant, sales := t.sales,
        salesReserved := s.salesReserved - 1, nextSale := t.nextSale, draws := t.draws, lanes := t.lanes, mover := t.mover,
        items := t.items, vouchers := t.vouchers, nextSerial := t.nextSerial,
        pays := s.pays.set st { s.pay st with current := some { p with
          phase := .capturing, limit := none, step := some ⟨s.timeBase, 10000⟩, auth := some ⟨code, tail⟩, sale := some n,
          resSale := false, resLane := 0, reported := true } },
        lines := t.lines } ∧
      (∀ h ∈ (s.basket st).holds, t.hold h = none) ∧
      (∀ h ∈ (s.basket st).holds, ∀ r, s.hold h = some r → ∀ q ∈ r.seats, ∀ y, s.seat r.slot q = some y →
        ∃ gen, t.seat r.slot q = some { y with state := .sold n, mark := false, gen := gen }) ∧
      (∀ v ∈ x.serials, ∃ y, t.voucher v = some y ∧ y.sale = n ∧ y.state = .printPending) ∧
      (s.isLost (.terminal st) = false →
        (t.line (.terminal st)).out = (s.line (.terminal st)).out ++ [.capture (some code)]) ∧
      ∃ u, ComesToRequest st u t ∧ u.mover = s.mover ∧
        u.lanes = s.lanes.set st { s.lane st with
          reservedRoom := (s.lane st).reservedRoom - p.resLane, queue := (s.lane st).queue ++ chainOf n x true } ∧
        u = { t with
          screenings := u.screenings, sales := s.sales.put n { x with outstanding := (chainOf n x true).length },
          lanes := u.lanes, mover := s.mover, vouchers := u.vouchers, lines := u.lines } ∧
        (∀ h, h ∉ (s.basket st).holds → u.hold h = s.hold h) ∧
        (∀ h ∈ (s.basket st).holds, ∀ r, s.hold h = some r → ∀ q ∈ r.seats, ∀ y, s.seat r.slot q = some y →
          u.seat r.slot q = some { y with state := .sold n, mark := false }) ∧
        (∀ slot q, (∀ h ∈ (s.basket st).holds, ∀ r, s.hold h = some r → r.slot = slot → q ∉ r.seats) →
          u.seat slot q = s.seat slot q) ∧
        (∀ item i, s.item item = some i →
          let units := (chargedValues m).countP (fun e => e.1 = item)
          u.item item = some { i with reserved := i.reserved - units, issued := i.issued + units }) ∧
        (s.vouchers.length + (chargedValues m).length ≤ 999999 → VouchersMade n x.slot (chargedValues m) x.serials s u) ∧
        (∀ l, l ≠ .terminal st → l ≠ .station st → u.line l = s.line l) ∧
        (s.isLost (.station st) = false →
          (u.line (.station st)).out =
            (s.line (.station st)).out ++ [.payOutcome ⟨st, (s.pay st).count⟩ (.approved n tail)] ∧
          ∃ behind, (t.line (.station st)).out = (u.line (.station st)).out ++ behind)

/-- CANCEL-PAY by the state of the context (Table 5-8): in IDLE it is answered NONE and changes nothing; in SELECTING it sets the
abort cause CANCEL, unless a cause is set, and is answered ABORTING; in ABORTING and REVERSING it is answered ABORTING and changes
nothing; in CAPTURING it is answered TOO_LATE with the sale number and changes nothing (R96).
CANCEL-PAY in AUTHORISING, and the time limit reached there, send ABORT with the 10 s step deadline and make the context
ABORTING under their cause; the first is answered ABORTING, and at the second the station is told TIMED_OUT (R96, R98).
An OUTCOME taken in ABORTING: an approval is sent back with REVERSE and the context becomes REVERSING, with no sale; any other
ends the payment without a sale and without a journal record, counts an attempt when an AUTHORISE was sent, settles the basket, and
the station is told CANCELLED only for the cause CANCEL and only once (R99, R100, R94, R105, R62). -/
def Obligations.AbortAskedAndSettled : Prop :=
  (∀ (st : Station) (tag : Tag) (s : State), s.takes st .cancelPay = true →
     let answer (c : Code) (vs : List Val) (t : State) : State := emit (.station st) (.reply tag c vs) t
     (s.payment st = none → exec (.cancelPay st tag) s = .next (answer .noPayment [] s)) ∧
     ∀ p, s.payment st = some p →
       (p.phase = .selecting → p.cause = none →
         exec (.cancelPay st tag) s = .next (answer .aborting [] (setPayment st (some { p with cause := some .cancel }) s))) ∧
       (p.phase = .selecting → p.cause.isSome = true → exec (.cancelPay st tag) s = .next (answer .aborting [] s)) ∧
       (p.phase = .aborting ∨ p.phase = .reversing → exec (.cancelPay st tag) s = .next (answer .aborting [] s)) ∧
       ∀ n, p.phase = .capturing → p.sale = some n →
         exec (.cancelPay st tag) s = .next (answer .tooLate [.saleNumber n] s)) ∧
  (∀ (st : Station) (tag : Tag) (p : Payment) (s : State), s.payment st = some p → p.phase = .authorising →
     let aborted (c : AbortCause) (told : Bool) : State :=
       emit (.terminal st) .abort (setPayment st (some { p with
         phase := .aborting, limit := none, cause := some c, step := some ⟨s.timeBase, 10000⟩, reported := told }) s)
     (s.takes st .cancelPay = true → exec (.cancelPay st tag) s = .next
       (emit (.station st) (.reply tag .aborting []) (aborted .cancel p.reported))) ∧
     (p.limit.isSome = true → ∃ t, exec (.timeLimit st) s = .next t ∧
       t.payment st = (aborted .timeLimit true).payment st ∧ t = { s with pays := t.pays, lines := t.lines } ∧
       (s.isLost (.terminal st) = false → (t.line (.terminal st)).out = (s.line (.terminal st)).out ++ [.abort]) ∧
       (s.isLost (.station st) = false → (t.line (.station st)).out = (s.line (.station st)).out ++
         [.payOutcome ⟨st, (s.pay st).count⟩ .timedOut]))) ∧
  (∀ (st : Station) (p : Payment) (s : State), s.payment st = some p → p.phase = .aborting →
     (∀ code tail, exec (.abortOutcome st (.approved code tail)) s = .next
       (emit (.terminal st) (.reverse (some code)) (setPayment st (some { p with
         phase := .reversing, auth := some ⟨code, tail⟩, step := some ⟨s.timeBase, 10000⟩ }) s))) ∧
     (∀ o, (∀ code tail, o ≠ .approved code tail) → p.resJournal = true →
       ∃ t, exec (.abortOutcome st o) s = .next t ∧
         t = { s with
           screenings := t.screenings, holds := t.holds, items := t.items, baskets := s.baskets.set st (t.basket st),
           salesReserved := if p.resSale then s.salesReserved - 1 else s.salesReserved,
           journalReserved := s.journalReserved - 1, journalArmed := t.journalArmed,
           lanes := s.lanes.set st { s.lane st with reservedRoom := (s.lane st).reservedRoom - p.resLane },
           pays := s.pays.set st { s.pay st with current := none }, lines := t.lines } ∧
         BasketSettled st p.asked s t ∧
         EndTold st []
           (if p.cause = some .cancel ∧ p.reported = false then [.payOutcome ⟨st, (s.pay st).count⟩ .cancelled] else []) s t))

/-- Silence in ABORTING after an AUTHORISE, and the end of REVERSING by REVERSED or by silence, write one REVERSAL record from the
reserved entry, with confirmed yes only for REVERSED, and end the payment without a sale: an attempt is counted, the basket is
settled, and the station is told CANCELLED when the abort cause is CANCEL and it has not been told (R101, R102, R103, R94, R105).
Silence in ABORTING with no AUTHORISE sent writes no record, counts no attempt and tells the station nothing of the payment (R101).
CAPTURED, or 10 s of silence, ends CAPTURING: the sale's capture state becomes CONFIRMED or UNCONFIRMED, its SALE record is
written from the reserved entry with that state, and the context is IDLE; nothing else changes (R104, R122). -/
def Obligations.ReversalAndCaptureRecorded : Prop :=
  (∀ (st : Station) (p : Payment) (s : State), s.payment st = some p → p.asked = true →
     let wrote (confirmed : Bool) (reason : ReversalReason) (t : State) : Prop :=
       t = { s with
         screenings := t.screenings, holds := t.holds, items := t.items, baskets := s.baskets.set st (t.basket st),
         salesReserved := if p.resSale then s.salesReserved - 1 else s.salesReserved,
         journal := s.journal ++ [{
           seq := s.nextSeq, time := s.timeBase, sale := none, amount := p.amount,
           body := .reversal st ⟨st, (s.pay st).count⟩ confirmed reason p.auth }],
         nextSeq := if s.nextSeq < 4294967295 then s.nextSeq + 1 else 1,
         journalReserved := s.journalReserved - 1, journalArmed := t.journalArmed,
         lanes := s.lanes.set st { s.lane st with reservedRoom := (s.lane st).reservedRoom - p.resLane },
         pays := s.pays.set st { s.pay st with current := none }, lines := t.lines } ∧
       BasketSettled st true s t ∧
       EndTold st []
         (if p.cause = some .cancel ∧ p.reported = false then [.payOutcome ⟨st, (s.pay st).count⟩ .cancelled] else []) s t
     let reason : ReversalReason := if p.cause = some .timeLimit then .timedOut else .cancelled
     (p.phase = .aborting → p.step.isSome = true →
       ∃ t, exec (.abortStepDeadline st) s = .next t ∧ wrote false .noAnswer t) ∧
     (p.phase = .reversing → ∃ t, exec (.reversed st) s = .next t ∧ wrote true reason t) ∧
     (p.phase = .reversing → p.step.isSome = true → ∃ t, exec (.reverseStepDeadline st) s = .next t ∧ wrote false reason t)) ∧
  (∀ (st : Station) (p : Payment) (s : State), s.payment st = some p → p.phase = .aborting → p.asked = false →
     p.resJournal = true → p.step.isSome = true → ∃ t, exec (.abortStepDeadline st) s = .next t ∧
       t = { s with
         screenings := t.screenings, holds := t.holds, items := t.items, baskets := s.baskets.set st (t.basket st),
         salesReserved := if p.resSale then s.salesReserved - 1 else s.salesReserved,
         journalReserved := s.journalReserved - 1, journalArmed := t.journalArmed,
         lanes := s.lanes.set st { s.lane st with reservedRoom := (s.lane st).reservedRoom - p.resLane },
         pays := s.pays.set st { s.pay st with current := none }, lines := t.lines } ∧
       BasketSettled st false s t ∧ EndTold st [] [] s t) ∧
  (∀ (st : Station) (p : Payment) (n : Nat) (x : Sale) (s : State), s.payment st = some p → p.phase = .capturing →
     p.sale = some n → s.sale n = some x →
     let after (c : CaptureState) : State :=
       setPayment st none
         { putSale n { x with capture := c } s with
           journal := s.journal ++ [{
             seq := s.nextSeq, time := s.timeBase, sale := some n, amount := x.total,
             body := saleEntry { x with capture := c } }],
           nextSeq := if s.nextSeq < 4294967295 then s.nextSeq + 1 else 1, journalReserved := s.journalReserved - 1 }
     exec (.captured st) s = .next (after .confirmed) ∧
     (p.step.isSome = true → exec (.captureStepDeadline st) s = .next (after .unconfirmed)))

/-! ### Sales and the journal -/

/-- SITE-SELL past the checks of R113 makes a remote sale under a fresh number, with the summary's seat lines, snack lines and
amounts and the labels of the tariff in force, and its vouchers with their charged values; each voucher raises its item's issued
count, the low notice judged and armed again (R167), sells the seats, frees the hold, touches no other sale, seat, hold, item or
voucher, writes the SALE record from a free entry, and is answered OK with the sale number, the serials and the summary (R114, R166,
R170, R80).  That LOW-STOCK and JOURNAL-HIGH stand before the reply is log 11, and the order of its fields log 34. -/
def Obligations.SiteSellTaken : Prop :=
  ∀ (tag : Tag) (n : Nat) (ref : Chars 8) (cats : List Nat) (snacks : List SnackLine) (h : Hold) (t : Tariff) (s : State),
    let lines : List SeatLine := List.zipWith (fun p c => ⟨⟨h.slot, p.row, p.num⟩, c⟩) h.seats cats
    let m := pricing t lines snacks s
    n < 64 → (∀ c ∈ cats, c < 8) → (∀ l ∈ snacks, 1 ≤ l.item ∧ l.item ≤ 24 ∧ 1 ≤ l.qty ∧ l.qty ≤ 9) →
    (snacks.map (·.item)).Nodup → s.hold n = some h → h.owner = .site → h.ref = some ref → cats.length = h.seats.length →
    snacks.length ≤ 6 → (snacks.map (·.qty)).sum ≤ 12 → s.tariff = some t →
    (∀ l ∈ lines, ∃ c, t.cats.find? (fun d => d.num = l.cat) = some c ∧
      (c.companionOnly = true ↔ s.kindOf l.ref = .companion)) →
    s.sales.length + s.salesReserved < 2048 → s.journal.length + s.journalReserved < 512 →
    (∀ l ∈ snacks, ∀ x, s.item l.item = some x → x.issued + x.reserved + l.qty ≤ x.allowance) →
    s.vouchers.length + s.reservedUnits + (snacks.map (·.qty)).sum ≤ 2048 → 1 ≤ s.nextSale → s.nextSale ≤ 65535 →
    ∃ u k x, exec (.siteSell tag n ref cats snacks) s = .next u ∧ s.sale k = none ∧ u.sale k = some x ∧
      x.origin = .remote ∧ x.slot = some h.slot ∧ x.total = m.total ∧ x.seatPart = m.seatPart ∧ x.snackNet = m.snackNet ∧
      x.subtotal = m.subtotal ∧ x.discount = m.discount ∧ x.effD = m.effD ∧ x.ticketTax = m.ticketTax ∧
      x.snackTax = m.snackTax ∧ x.tariffId = m.tariffId ∧ x.booking = some ref ∧ x.ref = none ∧ x.auth = none ∧
      x.capture = .notApplicable ∧ x.state = .active ∧ x.outstanding = 0 ∧ x.snacks = m.snacks ∧
      x.seats.map (fun l => (⟨l.ref, l.cat, l.fare, l.fee, l.total, l.clamped⟩ : PricedSeat)) = m.seats ∧
      (∀ l ∈ x.seats, ∀ c, t.cats.find? (fun d => d.num = l.cat) = some c → l.label = c.label) ∧
      x.serials.length = (chargedValues m).length ∧
      u = { s with
        screenings := u.screenings, holds := u.holds, sales := u.sales, nextSale := u.nextSale, draws := u.draws,
        items := u.items, vouchers := u.vouchers, nextSerial := u.nextSerial,
        journal := s.journal ++ [{
          seq := s.nextSeq, time := s.timeBase, sale := some k, amount := m.total, body := saleEntry x }],
        nextSeq := if s.nextSeq < 4294967295 then s.nextSeq + 1 else 1, journalArmed := u.journalArmed, lines := u.lines } ∧
      u.hold n = none ∧ (∀ j, j ≠ n → u.hold j = s.hold j) ∧ (∀ j, j ≠ k → u.sale j = s.sale j) ∧
      u.nextSale = (if k < 65535 then k + 1 else 1) ∧
      (∀ q ∈ h.seats, ∀ y, s.seat h.slot q = some y → u.seat h.slot q = some { y with state := .sold k, mark := false }) ∧
      (∀ slot q, slot ≠ h.slot ∨ q ∉ h.seats → u.seat slot q = s.seat slot q) ∧
      (∀ v ∈ x.serials, ∃ y, u.voucher v = some y ∧ y.sale = k ∧ y.state = .printPending ∧ y.gen = 0) ∧
      VouchersMade k (some h.slot) (chargedValues m) x.serials s u ∧
      u.vouchers.length ≤ s.vouchers.length + (snacks.map (·.qty)).sum ∧
      (∀ item i, s.item item = some i →
        let units := (chargedValues m).countP (fun e => e.1 = item)
        u.item item = some { i with
          issued := i.issued + units,
          armed := if units = 0 then i.armed else decide (i.lowMark < i.allowance - (i.issued + units) - i.reserved) }) ∧
      (∀ l, l ≠ .site → u.line l = s.line l) ∧
      (s.isLost .site = false → ∃ mid, (u.line .site).out = (s.line .site).out ++ mid ++
        [.reply tag .ok [.saleNumber k, .serials x.serials, .summary m]])

/-- REFUND past the checks of R116 answers a next state: the amount is the seat part and the charged values of the vouchers not
REDEEMED; a REFUND record with the counts of vouchers voided and left REDEEMED is written from a free entry; the sale is
REFUNDED and its outstanding count falls by its unstarted orders; its seats are FREE with generation 0; its vouchers that were
PRINT_PENDING, ISSUED or LOCKED are VOID without the counted mark, and the REDEEMED and VOID ones stay; each item's issued count falls by
its vouchers voided that carried the mark, its low notice judged and armed again; the lanes lose the sale's unstarted orders and no
others; no other sale, seat or voucher changes; the reply is OK with the amount and the two counts (R117, R118, R81, R178, R167).
That LOW-STOCK and JOURNAL-HIGH stand before the reply is log 11, and the order of its fields log 34. -/
def Obligations.RefundTaken : Prop :=
  ∀ (tag : Tag) (n : Nat) (x : Sale) (s : State), n ≠ 0 → s.sale n = some x → x.state = .active → x.capture ≠ .pending →
    s.journal.length + s.journalReserved < 512 →
    let amount := x.seatPart + (x.serials.map (fun v => match s.voucher v with
      | some y => (match y.state with
        | .redeemed _ _ => 0
        | .printPending | .issued | .void | .locked => y.value)
      | none => 0)).sum
    let voided := x.serials.countP (fun v => decide ((s.voucher v).map (fun y => y.state.name) ∈
      [some .printPending, some .issued, some .locked]))
    let redeemed := x.serials.countP (fun v => decide ((s.voucher v).map (fun y => y.state.name) = some .redeemed))
    let unstarted := ((List.finRange 8).map (fun st =>
      (s.lane st).queue.countP (fun o => decide (o.status = .queued) && decide (o.sale = n)))).sum
    let counted (item : Nat) : Nat := x.serials.dedup.countP (fun v => match s.voucher v with
      | some y => y.counted && decide (y.item = item) &&
          decide (y.state = .printPending ∨ y.state = .issued ∨ y.state = .locked)
      | none => false)
    ∃ t, exec (.refund tag n) s = .next t ∧
      t.sale n = some { x with state := .refunded amount, outstanding := x.outstanding - unstarted } ∧
      (∀ k, k ≠ n → t.sale k = s.sale k) ∧
      t.journal = s.journal ++ [{
        seq := s.nextSeq, time := s.timeBase, sale := some n, amount := amount,
        body := .refund x.origin voided redeemed }] ∧
      (∀ st, t.lane st = { s.lane st with
        queue := (s.lane st).queue.filter (fun o => !(decide (o.status = .queued) && decide (o.sale = n))) }) ∧
      (∀ l ∈ x.seats, ∀ y, s.seat l.ref.slot ⟨l.ref.row, l.ref.num⟩ = some y →
        t.seat l.ref.slot ⟨l.ref.row, l.ref.num⟩ = some { y with state := .free, mark := false, gen := 0 }) ∧
      (∀ slot p, (∀ l ∈ x.seats, l.ref ≠ ⟨slot, p.row, p.num⟩) → t.seat slot p = s.seat slot p) ∧
      (∀ v ∈ x.serials, ∀ y, s.voucher v = some y → y.state = .printPending ∨ y.state = .issued ∨ y.state = .locked →
        t.voucher v = some { y with state := .void, counted := false }) ∧
      (∀ v ∈ x.serials, ∀ y till at', s.voucher v = some y → y.state = .redeemed till at' → t.voucher v = some y) ∧
      (∀ v ∈ x.serials, ∀ y, s.voucher v = some y → y.state = .void → t.voucher v = some y) ∧
      (∀ v, v ∉ x.serials → t.voucher v = s.voucher v) ∧
      (∀ item i, s.item item = some i → t.item item = some { i with
        issued := i.issued - counted item,
        armed := if counted item = 0 then i.armed
          else decide (i.lowMark < i.allowance - (i.issued - counted item) - i.reserved) }) ∧
      (∀ l, l ≠ .site → t.line l = s.line l) ∧
      (s.isLost .site = false → ∃ mid, (t.line .site).out = (s.line .site).out ++ mid ++
        [.reply tag .ok [.refundAmount amount, .voided voided, .leftRedeemed redeemed]]) ∧
      t = { s with
        screenings := t.screenings, sales := t.sales, journal := t.journal,
        nextSeq := if s.nextSeq < 4294967295 then s.nextSeq + 1 else 1, journalArmed := t.journalArmed, lanes := t.lanes,
        items := t.items, vouchers := t.vouchers, lines := t.lines }

/-- JOURNAL-READ answers OK with the records held, the reservation count and the oldest records, up to 8, and changes nothing
else (R123).
JOURNAL-RELEASE removes the record of the number given and every older one, and answers OK with the number removed and the
records held after; JOURNAL-HIGH is armed again below 448; a number no record carries is answered NOT_FOUND and removes nothing
(R124, R125). -/
def Obligations.JournalCollected : Prop :=
  (∀ (tag : Tag) (s : State), exec (.journalRead tag) s = .next
     (emit .site (.reply tag .ok
       [.recordsHeld s.journal.length, .reserved s.journalReserved, .records (s.journal.take 8)]) s)) ∧
  (∀ (tag : Tag) (seq : Nat) (s : State),
     (∀ older r newer, s.journal = older ++ r :: newer → (∀ q ∈ older, q.seq ≠ seq) → r.seq = seq →
       ∃ t, exec (.journalRelease tag seq) s = .next t ∧
         t = { s with journal := newer, journalArmed := t.journalArmed, lines := t.lines } ∧
         (s.isLost .site = false → ∃ mid, (t.line .site).out = (s.line .site).out ++ mid ++
           [.reply tag .ok [.removed (older.length + 1), .recordsHeld newer.length]]) ∧
         (newer.length + s.journalReserved < 448 → t.journalArmed = true ∧
           t = emit .site (.reply tag .ok [.removed (older.length + 1), .recordsHeld newer.length])
             { s with journal := newer, journalArmed := true })) ∧
     ((∀ q ∈ s.journal, q.seq ≠ seq) →
       exec (.journalRelease tag seq) s = .next (emit .site (.reply tag .notFound []) s)))

/-! ### Vouchers -/

/-- SET-ALLOWANCE in range, without restart: the allowance applied is the one requested, raised to issued plus reserved, and the
low mark is the one requested; with restart, the issued count becomes 0 and every voucher of the item loses its counted mark
(R165).
The low notice of an item: sent and disarmed at or below the low mark while armed, armed again above it, and nothing
otherwise (R167). -/
def Obligations.AllowanceAndLowNotice : Prop :=
  (∀ (tag : Tag) (code a low : Nat) (restart : Bool) (x : Item) (s : State), s.item code = some x → a ≤ 9999 → low ≤ 9999 →
     let issued := if restart then 0 else x.issued
     ∃ t armed, exec (.setAllowance tag code a low restart) s = .next t ∧
       t = { s with items := t.items, vouchers := t.vouchers, lines := t.lines } ∧
       t.item code = some { x with allowance := max a (issued + x.reserved), issued := issued, lowMark := low, armed := armed } ∧
       (∀ c, c ≠ code → t.item c = s.item c) ∧
       t.vouchers = (if restart then
           s.vouchers.map (fun e => if e.2.item = code then (e.1, { e.2 with counted := false }) else e)
         else s.vouchers)) ∧
  (∀ (code : Nat) (x : Item) (s : State), s.item code = some x →
     let available := x.allowance - x.issued - x.reserved
     (available ≤ x.lowMark → x.armed = true → judgeLow code s =
       emit .site (.lowStock code x.name x.allowance x.issued x.reserved available) (setItem code { x with armed := false } s)) ∧
     (available ≤ x.lowMark → x.armed = false → judgeLow code s = s) ∧
     (x.lowMark < available → judgeLow code s = setItem code { x with armed := true } s))

/-- LOAD-SEED: refused BAD_FIELD above 65535 and BUSY while any voucher record is held; else the seed is replaced (R172).
UNLOCK-VOUCHER of a LOCKED voucher with no order of it in any lane makes it ISSUED with a wrong-code count of 0; a voucher that
is not LOCKED is refused NOT_LOCKED with its state (R176). -/
def Obligations.SeedAndUnlock : Prop :=
  (∀ (tag : Tag) (seed : Nat) (s : State),
     (65535 < seed → exec (.loadSeed tag seed) s = .next (emit .site (.reply tag .badField []) s)) ∧
     (seed ≤ 65535 → s.vouchers ≠ [] →
       exec (.loadSeed tag seed) s = .next (emit .site (.reply tag .busy [.recordsHeld s.vouchers.length]) s)) ∧
     (seed ≤ 65535 → s.vouchers = [] →
       exec (.loadSeed tag seed) s = .next (emit .site (.reply tag .ok []) { s with seed := seed }))) ∧
  (∀ (tag : Tag) (serial : Nat) (v : Voucher) (s : State), 1 ≤ serial → serial ≤ 999999 → s.voucher serial = some v →
     (v.state = .locked → (∀ st, ∀ o ∈ (s.lane st).queue, o.item ≠ .stub serial) →
       exec (.unlockVoucher tag serial) s = .next
         (emit .site (.reply tag .ok [.generation v.gen]) (putVoucher serial { v with state := .issued, wrong := 0 } s))) ∧
     (v.state ≠ .locked → exec (.unlockVoucher tag serial) s = .next
       (emit .site (.reply tag .notLocked [.voucherStateName v.state.name]) s)))

/-- REDEEM of an ISSUED voucher with its code, while a journal entry is free: the voucher is REDEEMED by the till, and a
REDEMPTION record is written with the charged value (R173).
A wrong code raises the voucher's count, and the third locks it and tells the site server; neither the journal nor anything
else changes (R174, R175). -/
def Obligations.RedeemJudged : Prop :=
  (∀ (st : Station) (tag : Tag) (serial : Nat) (v : Voucher) (s : State), s.takes st .redeem = true → 1 ≤ serial →
     serial ≤ 999999 → v.code ≤ 9972 → s.voucher serial = some v → v.state = .issued →
     s.journal.length + s.journalReserved < 512 →
     ∃ t, exec (.redeem st tag serial v.code) s = .next t ∧
       t = { s with
         vouchers := s.vouchers.put serial { v with state := .redeemed st s.timeBase },
         journal := s.journal ++ [{ seq := s.nextSeq, time := s.timeBase, sale := some v.sale, amount := v.value,
                                    body := .redemption serial v.item st }],
         nextSeq := if s.nextSeq < 4294967295 then s.nextSeq + 1 else 1, journalArmed := t.journalArmed, lines := t.lines } ∧
       (s.isLost (.station st) = false → (t.line (.station st)).out = (s.line (.station st)).out ++
         [.reply tag .ok [.serial serial, .itemCode v.item, .itemName ((s.item v.item).map (·.name)),
           .startTime (s.startOf v.slot)]])) ∧
  (∀ (st : Station) (tag : Tag) (serial code : Nat) (v : Voucher) (s : State), s.takes st .redeem = true → 1 ≤ serial →
     serial ≤ 999999 → code ≤ 9972 → s.voucher serial = some v → v.state = .issued → code ≠ v.code →
     (v.wrong + 1 < 3 → exec (.redeem st tag serial code) s = .next
       (emit (.station st) (.reply tag .badCode [.wrongCount (v.wrong + 1)])
         (putVoucher serial { v with wrong := v.wrong + 1 } s))) ∧
     (v.wrong + 1 = 3 → exec (.redeem st tag serial code) s = .next
       (emit .site (.voucherLocked serial v.item v.sale st)
         (emit (.station st) (.reply tag .badCode [.wrongCount 3, .nowLocked])
           (putVoucher serial { v with wrong := 3, state := .locked } s)))))

/-! ### Printing -/

/-- REPRINT past the checks of R159 queues one order with its reprint flag set, raises the sale's outstanding count, and answers OK
with the generation before the reprint (R160).
COLLECT takes the collectable sale of the reference with the lowest number: its chain of tickets and stubs, without a receipt, is
queued, and its outstanding count rises by the chain's length (R161, R162).
The lane may then come to request the mover, which in BURST starts nothing and when IDLE grants to it in the same step (R134), before
the reply (log 11). -/
def Obligations.PrintRequestsTaken : Prop :=
  (∀ (tag : Tag) (n : Nat) (x : Sale) (item : ReprintItem) (st : Station) (s : State),
     let order : OrderItem := match item with
       | .seat r => .ticket r
       | .voucher v => .stub v
     n ≠ 0 →
     (match item with
       | .seat r => 1 ≤ r.slot ∧ r.slot ≤ 32 ∧ 1 ≤ r.row ∧ r.row ≤ 40 ∧ 1 ≤ r.num ∧ r.num ≤ 80 ∧ ∃ l ∈ x.seats, l.ref = r
       | .voucher v => 1 ≤ v ∧ v ≤ 999999 ∧ v ∈ x.serials ∧ s.isRedeemed v = false) →
     s.sale n = some x → x.state = .active → (s.station st).role = .kiosk ∨ (s.station st).role = .collect →
     (∀ b, ∀ o ∈ (s.lane b).queue, o.sale = n → o.item ≠ order) → s.generationOf order < 3 →
     (s.lane st).queue.length + (s.lane st).reservedRoom < 32 →
     ∃ v, ComesToRequest st
         { s with
           sales := s.sales.put n { x with outstanding := x.outstanding + 1 },
           lanes := s.lanes.set st { s.lane st with queue := (s.lane st).queue ++ [⟨order, n, true, .queued⟩] } } v ∧
       exec (.reprint tag n item st.val) s = .next (emit .site (.reply tag .ok [.generation (s.generationOf order)]) v) ∧
       SameBesidePrinting s v) ∧
  (∀ (st : Station) (tag : Tag) (ref : Chars 8) (n : Nat) (x : Sale) (before behind : Tbl Sale) (s : State),
     let chain : List Order := x.seats.map (fun l => ⟨.ticket l.ref, n, false, .queued⟩) ++
       x.serials.map (fun v => ⟨.stub v, n, false, .queued⟩)
     s.takes st .collect = true → s.booked ref = before ++ (n, x) :: behind →
     (∀ e ∈ before, s.collectable e.2 = false) → s.collectable x = true → s.sale n = some x →
     (s.lane st).queue.length + (s.lane st).reservedRoom + chain.length ≤ 32 →
     ∃ v, ComesToRequest st
         { s with
           sales := s.sales.put n { x with outstanding := x.outstanding + chain.length },
           lanes := s.lanes.set st { s.lane st with queue := (s.lane st).queue ++ chain } } v ∧
       exec (.collect st tag ref) s = .next
         (emit (.station st) (.reply tag .ok [.saleNumber n, .tickets x.seats.length, .stubs x.serials.length]) v) ∧
       SameBesidePrinting s v)

/-- RESUME-PRINT of a SUSPENDED lane whose clear flag is set: the fault kind, the clear flag and the last level are cleared; under
PAPER_OUT and HEAD_OPEN the uncertain orders become QUEUED in their places with their reprint flags set (R145, R146); under the
other kinds they are dropped with the QUEUED orders of the same sales (R147).  The outstanding count of each sale then falls by its
orders dropped (R115); for each sale with orders dropped the site server is sent PRINT-LIMIT with the sale, the lane, SUPPRESSED and
the items in queue order (R147, R158), and when its count reaches 0 the station is sent PRINT-DONE (R157); the sales follow one
another as their first orders do in the queue, which is the model's choice (log 26).  The lane may then come to request the mover,
which in BURST starts nothing and when IDLE grants to it in the same step, before the reply (R134; log 11).  It is the same from the station
and from the site server. -/
def Obligations.ResumePrintTaken : Prop :=
  ∀ (st : Station) (tag : Tag) (k : FaultKind) (s : State), (s.lane st).suspended = some k → (s.lane st).clearFlag = true →
    let q := (s.lane st).queue
    let clean : Lane := { s.lane st with suspended := none, clearFlag := false, lastLevel := 0 }
    let gone (o : Order) : Bool := decide (o.status = .uncertain) ||
      (decide (o.status = .queued) && q.any (fun u => decide (u.status = .uncertain) && decide (u.sale = o.sale)))
    let dropped := q.filter gone
    let count (n : Nat) : Nat := dropped.countP (fun o => o.sale = n)
    let limits : List OutRec := (salesOf dropped).map (fun n =>
      .printLimit n st .suppressed ((dropped.filter (fun o => o.sale = n)).map (·.item)))
    let done : List OutRec := (salesOf dropped).flatMap (fun n => match s.sale n with
      | some x =>
        if 0 < x.outstanding ∧ x.outstanding ≤ count n then
          [match x.state with
            | .active => .printDone n .active (some
                (x.seats.countP (fun l => match s.seat l.ref.slot ⟨l.ref.row, l.ref.num⟩ with
                    | some y => (match y.state with
                      | .issued _ => false
                      | .free | .pending _ | .held _ | .sold _ | .blocked => true)
                    | none => true),
                 x.serials.countP (fun v => decide ((s.voucher v).map (·.state) = some .printPending))))
            | .refunded _ => .printDone n .refunded none]
        else []
      | none => [])
    let told (l : Line) (rs : List OutRec) : LineRec :=
      if s.isLost l then s.line l else { s.line l with out := (s.line l).out ++ rs }
    ∀ (sender : ResumeSender) (link : Line),
    (sender = .site st.val ∧ link = .site) ∨ (sender = .station st ∧ link = .station st ∧ s.takes st .resumePrint = true) →
    ((k = .paperOut ∨ k = .headOpen) →
      ∃ v, ComesToRequest st
          { s with lanes := s.lanes.set st { clean with
              queue := q.map (fun o => if o.status = .uncertain then { o with status := .queued, reprint := true } else o) } } v ∧
        exec (.resumePrint sender tag) s = .next
          (emit link (.reply tag .ok [.requeued (q.countP (fun o => o.status = .uncertain)), .dropped 0]) v)) ∧
    (k = .jam ∨ k = .markMissed ∨ k = .lineLost ∨ k = .noAnswer →
      ∃ u v, ComesToRequest st u v ∧
        u = { s with
          lanes := s.lanes.set st { clean with queue := q.filter (fun o => !gone o) }, sales := u.sales, lines := u.lines } ∧
        (∀ n, u.sale n = (s.sale n).map (fun x => { x with outstanding := x.outstanding - count n })) ∧
        u.line .site = told .site limits ∧ u.line (.station st) = told (.station st) done ∧
        (∀ l, l ≠ .site → l ≠ .station st → u.line l = s.line l) ∧
        exec (.resumePrint sender tag) s = .next (emit link (.reply tag .ok [.requeued 0, .dropped dropped.length]) v) ∧
        ∃ mid, (v.line (.station st)).out = (s.line (.station st)).out ++ mid)

/-- ACCEPT for the burst in flight: the residual falls and the lines sent rise by the lines accepted, and the last level is the one
reported; when the residual is 0 the order awaits its cut under a cut deadline, CUT leaves, and no further order of the lane is
started in this step, so that the lane stays as it then is (R135, R136).  The mover then arbitrates: it becomes IDLE when no lane is
chosen, and grants to the lane chosen when one is, going on when that grant sends no burst (R137).  A lane whose order is done has
no part in that arbitration: R136 asks it, R137 does not say it, and how the two go together is the model's choice (log 25).  When
no other lane requests, the mover becomes IDLE after the last line of an order, and after a full buffer reported. -/
def Obligations.AcceptTaken : Prop :=
  ∀ (st : Station) (k : Nat) (b : Burst) (s : State), (s.station st).role = .kiosk ∨ (s.station st).role = .collect →
    s.mover.burst = some b → b.lane = st → k ≤ b.size →
    let l := s.lane st
    let partly (lvl : Nat) : State :=
      { s with
        mover := { s.mover with burst := none },
        lanes := s.lanes.set st { l with residual := l.residual - k, linesSent := l.linesSent + k, lastLevel := lvl } }
    let whole (lvl : Nat) : State :=
      setMover { s.mover with burst := none }
        (emit (.printer st) .cut (setLane st { l with
          residual := 0, linesSent := 0, lastLevel := lvl, content := none,
          queue := updateFirst Order.isStarted (fun o => { o with status := .awaitingCut }) l.queue,
          cut := if l.queue.any (fun o => o.status = .awaitingCut) then l.cut else some ⟨s.timeBase, 5000⟩ } s))
    (∀ lvl, lvl ≤ 96 → ∀ u out,
      (k < l.residual ∧ u = partly lvl ∧ out = none) ∨ (l.residual = k ∧ u = whole lvl ∧ out = some st) →
      (u.chosenLane out = none → exec (.accept st k lvl) s = .next u) ∧
      ∀ c, u.chosenLane out = some c →
        ((grant c u).2 = true → exec (.accept st k lvl) s = .next (grant c u).1) ∧
        ((grant c u).2 = false → exec (.accept st k lvl) s = .next (arbitrate out 8 (grant c u).1))) ∧
    (l.residual = k → ∀ lvl, lvl ≤ 96 → ∃ t, exec (.accept st k lvl) s = .next t ∧ t.lane st = (whole lvl).lane st) ∧
    ((∀ m, m ≠ st → s.requesting m = false) →
      (k < l.residual → exec (.accept st k 96) s = .next (partly 96)) ∧
      (l.residual = k → ∀ lvl, lvl ≤ 96 → exec (.accept st k lvl) s = .next (whole lvl)))

/-- CUT-DONE completes the oldest order that awaits its cut: it leaves the queue, and the cut deadline is set again for the next or
discarded (R139).  While its sale is ACTIVE, its ticket's SOLD seat or its stub's PRINT_PENDING or ISSUED voucher becomes ISSUED; a
seat already ISSUED and a LOCKED or REDEEMED voucher stay, as every other seat and voucher, and for a receipt, or a sale that is
REFUNDED, all of them (R155).  The sale's outstanding count falls by 1, and when it reaches 0 the station is sent PRINT-DONE with the
sale number and state, and for an ACTIVE sale the counts of its seats not ISSUED and of its vouchers PRINT_PENDING (R157).  The lane
may then come to request the mover, which in BURST starts nothing and when IDLE grants to it in the same step (R134). -/
def Obligations.CutDoneTaken : Prop :=
  ∀ (st : Station) (o : Order) (x : Sale) (s : State), (s.station st).role = .kiosk ∨ (s.station st).role = .collect →
    (s.lane st).suspended = none → (s.lane st).settling = none →
    (s.lane st).queue.find? (fun o => o.status = .awaitingCut) = some o → s.sale o.sale = some x →
    let q := removeFirst Order.isAwaiting (s.lane st).queue
    let cut : Option Deadline := if q.any (fun o => o.status = .awaitingCut) then some ⟨s.timeBase, 5000⟩ else none
    ∃ u t, exec (.cutDone st) s = .next t ∧ ComesToRequest st u t ∧ SameBesidePrinting s t ∧
      u = { s with
        screenings := u.screenings, vouchers := u.vouchers, sales := s.sales.put o.sale { x with outstanding := x.outstanding - 1 },
        lanes := s.lanes.set st { s.lane st with queue := q, cut := cut }, lines := u.lines } ∧
      (x.state ≠ .active ∨ o.item = .receipt → u.screenings = s.screenings ∧ u.vouchers = s.vouchers) ∧
      (∀ serial v, o.item = .stub serial → s.voucher serial = some v →
        (x.state = .active → v.state = .printPending ∨ v.state = .issued →
          u.voucher serial = some { v with state := .issued }) ∧
        (v.state ≠ .printPending → v.state ≠ .issued → u.voucher serial = some v)) ∧
      (∀ r y, o.item = .ticket r → s.seat r.slot ⟨r.row, r.num⟩ = some y →
        (∀ n, x.state = .active → y.state = .sold n → u.seat r.slot ⟨r.row, r.num⟩ = some { y with state := .issued n }) ∧
        ((∀ n, y.state ≠ .sold n) → u.seat r.slot ⟨r.row, r.num⟩ = some y)) ∧
      (∀ serial, o.item ≠ .stub serial → u.voucher serial = s.voucher serial) ∧
      (∀ slot p, o.item ≠ .ticket ⟨slot, p.row, p.num⟩ → u.seat slot p = s.seat slot p) ∧
      (∀ l, l ≠ .station st → u.line l = s.line l) ∧
      (s.isLost (.station st) = false → (u.line (.station st)).out = (s.line (.station st)).out ++
        (if x.outstanding = 1 then
          [match x.state with
            | .active => .printDone o.sale .active (some
                (x.seats.countP (fun l => match u.seat l.ref.slot ⟨l.ref.row, l.ref.num⟩ with
                    | some y => (match y.state with
                      | .issued _ => false
                      | .free | .pending _ | .held _ | .sold _ | .blocked => true)
                    | none => true),
                 x.serials.countP (fun v => decide ((u.voucher v).map (·.state) = some .printPending))))
            | .refunded _ => .printDone o.sale .refunded none]
        else []))

/-- A fault of a lane that is not SUSPENDED, by FAULT, by the cut deadline or by the burst deadline: the orders in flight become
UNCERTAIN in their places, the others stay, lines sent and residual are 0, no cut deadline runs, the lane is SUSPENDED under
the fault's kind, with the clear flag set for NO_ANSWER alone, and the station is sent PRINT-FAULT with the kind and the counts of
UNCERTAIN and QUEUED orders; a burst in flight for the lane ends and the mover arbitrates (R141, R138, R140).
An UNCERTAIN order of an ACTIVE sale makes its ticket's ISSUED seat SOLD and its stub's ISSUED voucher PRINT_PENDING, and leaves
every other state, as every other seat and voucher (R156).
A fault of a lane already SUSPENDED makes no order uncertain: the new kind replaces the one held unless that suppresses and the new
one requeues, the clear flag is set for NO_ANSWER and cleared for every other new kind, and PRINT-FAULT goes out again (R142). -/
def Obligations.FaultSuspends : Prop :=
  (∀ (st : Station) (s : State), (s.lane st).suspended = none →
     (∀ kind n, (s.station st).role = .kiosk ∨ (s.station st).role = .collect →
       ∃ t, exec (.fault st kind n) s = .next t ∧ FaultTaken st (faultKindOf kind) s t) ∧
     ((s.lane st).cut.isSome = true → ∃ t, exec (.cutDeadline st) s = .next t ∧ FaultTaken st .noAnswer s t) ∧
     (∀ b, s.mover.burst = some b → b.lane = st → b.deadline.isSome = true →
       ∃ t, exec .burstDeadline s = .next t ∧ FaultTaken st .noAnswer s t)) ∧
  (∀ (st : Station) (held : FaultKind) (s : State), (s.lane st).suspended = some held →
     let kept (k : FaultKind) : FaultKind :=
       if (held = .jam ∨ held = .markMissed ∨ held = .lineLost ∨ held = .noAnswer) ∧ (k = .paperOut ∨ k = .headOpen) then held
       else k
     let again (k : FaultKind) : State :=
       emit (.station st) (.printFault (kept k)
           ((s.lane st).queue.countP (fun o => o.status = .uncertain)) ((s.lane st).queue.countP (fun o => o.status = .queued)))
         (setLane st { s.lane st with suspended := some (kept k), clearFlag := decide (k = .noAnswer) } s)
     (∀ kind n, (s.station st).role = .kiosk ∨ (s.station st).role = .collect →
       exec (.fault st kind n) s = .next (again (faultKindOf kind))) ∧
     ((s.lane st).cut.isSome = true → exec (.cutDeadline st) s = .next (again .noAnswer)))

/-- A CLEAR taken for a SUSPENDED lane sets its clear flag, under every fault kind, and moves nothing else; one for a lane that is
not SUSPENDED is discarded, as is every record of a printer line that the station's role does not use (R144, R128, R127).
LEVEL sets the last level of a lane that is not SUSPENDED, and the settling deadline ends its quiet period (R128, R149); the lane
may then come to request the mover, which in BURST starts nothing and when IDLE grants to it in the same step (R134). -/
def Obligations.LaneRecordsTaken : Prop :=
  (∀ (st : Station) (s : State),
     ((s.station st).role = .kiosk ∨ (s.station st).role = .collect →
       ((s.lane st).suspended.isSome = true → exec (.clear st) s = .next (setLane st { s.lane st with clearFlag := true } s)) ∧
       ((s.lane st).suspended = none → exec (.clear st) s = .next s)) ∧
     ((s.station st).role = .off ∨ (s.station st).role = .till →
       exec (.clear st) s = .next s ∧ exec (.cutDone st) s = .next s ∧ (∀ n, exec (.level st n) s = .next s) ∧
       (∀ k n, exec (.accept st k n) s = .next s) ∧ ∀ kind n, exec (.fault st kind n) s = .next s)) ∧
  (∀ (st : Station) (s : State),
     (∀ n, (s.station st).role = .kiosk ∨ (s.station st).role = .collect → (s.lane st).suspended = none → n ≤ 96 →
       ∃ t, exec (.level st n) s = .next t ∧ ComesToRequest st (setLane st { s.lane st with lastLevel := n } s) t) ∧
     ((s.lane st).settling.isSome = true →
       ∃ t, exec (.settlingDeadline st) s = .next t ∧ ComesToRequest st (setLane st { s.lane st with settling := none } s) t))

/-- A lane requests the mover when it is not SUSPENDED, has a STARTED order with residual above 0 or a QUEUED order and fewer than 2
orders awaiting their cut, a last level below 96 and no settling deadline (R133).
The mover's choice: a lane is chosen when one requests; among the lanes requesting, an urgent one if there is one, and within
the class the first after the last lane granted in ascending station number, the last lane granted last (R137).  Where the lane
whose order is done has no part in the arbitration (R136; the model's choice, log 25), the same holds among the others.
A grant to a lane with a STARTED order sends a burst of it; else the lane's oldest QUEUED order is judged by Table 8-3 and
dropped, with the notice the table names, or started, and then a burst of it is sent; with no QUEUED order none is sent (R134,
R153, R154).  An order dropped leaves the queue and its sale's outstanding count falls by 1; an order started becomes the
current one with lines sent 0 and the residual of its line count (R131).
A burst is the least of 32, the residual and 96 less the last level, in LINES frames of three lines, the last what remains; the
lane is the last granted, and the deadline runs from the last frame's leaving (R134, R127; on a lost line it is set at once, log
8). -/
def Obligations.ArbitrationAndGrant : Prop :=
  (∀ (st : Station) (s : State),
     let l := s.lane st
     s.requesting st = true ↔
       l.suspended = none ∧
       (((∃ o ∈ l.queue, o.status = .started) ∧ 0 < l.residual) ∨
         ((∃ o ∈ l.queue, o.status = .queued) ∧ l.queue.countP (fun o => o.status = .awaitingCut) < 2)) ∧
       l.lastLevel < 96 ∧ l.settling = none) ∧
  (∀ (out : Option Station) (s : State),
     let asks (m : Station) : Prop := s.requesting m = true ∧ out ≠ some m
     ((∃ m, asks m) → (s.chosenLane out).isSome = true) ∧
     ∀ c, s.chosenLane out = some c →
       let distance (m : Station) : Nat := (m.val + 7 - s.mover.last.val) % 8
       asks c ∧
       (∀ m, asks m → (s.lane m).urgent = true → (s.lane c).urgent = true ∧ distance c ≤ distance m) ∧
       ((s.lane c).urgent = false → ∀ m, asks m → distance c ≤ distance m)) ∧
  (∀ (st : Station) (s : State),
     let queue := (s.lane st).queue
     ((∃ o ∈ queue, o.status = .started) → grant st s = (sendBurst st s, true)) ∧
     ((∀ o ∈ queue, o.status ≠ .started) →
       ((∀ o ∈ queue, o.status ≠ .queued) → grant st s = (s, false)) ∧
       ∀ o, queue.find? (fun o => o.status = .queued) = some o →
         (dropReason s o = none → grant st s = (sendBurst st (startOrder st o s), true)) ∧
         ∀ reason, dropReason s o = some reason → grant st s = grant st (dropAtStart st o reason s))) ∧
  (∀ (o : Order) (s : State),
     (∀ x amount, s.sale o.sale = some x → x.state = .refunded amount → dropReason s o = some none) ∧
     ((∀ x, s.sale o.sale = some x → x.state = .active) →
       (∀ v, o.item = .stub v → s.isRedeemed v = true → dropReason s o = some (some .redeemed)) ∧
       ((∀ v, o.item = .stub v → s.isRedeemed v = false) →
         dropReason s o = if 3 ≤ s.generationOf o.item then some (some .generation) else none))) ∧
  (∀ (st : Station) (o : Order) (reason : Option LimitReason) (x : Sale) (s : State), s.sale o.sale = some x →
     let t := dropAtStart st o reason s
     t = { s with
       lanes := s.lanes.set st { s.lane st with queue := removeFirst Order.isQueued (s.lane st).queue },
       sales := s.sales.put o.sale { x with outstanding := x.outstanding - 1 }, lines := t.lines } ∧
     (s.isLost .site = false → (t.line .site).out = (s.line .site).out ++ (match reason with
       | some r => [.printLimit o.sale st r [o.item]]
       | none => []))) ∧
  (∀ (st : Station) (o : Order) (s : State), startOrder st o s =
     setLane st { s.lane st with
       queue := updateFirst Order.isQueued (fun o => { o with status := .started }) (s.lane st).queue, linesSent := 0,
       residual := (match o.item with
         | .ticket _ => 320
         | .stub _ => 160
         | .receipt => match s.sale o.sale with
           | some x => 48 + 16 * (x.seats.length + x.snacks.length)
           | none => 48),
       content := (raiseGeneration o s).printed o } (raiseGeneration o s)) ∧
  (∀ (st : Station) (s : State),
     let l := s.lane st
     let size := min 32 (min l.residual (96 - l.lastLevel))
     sendBurst st s = setMover
       { burst := some ⟨st, size, if s.isLost (.printer st) = true then some ⟨s.timeBase, 500⟩ else none⟩, last := st }
       (if s.isLost (.printer st) = true then s
        else setLine (.printer st) { s.line (.printer st) with out := (s.line (.printer st)).out ++ burstFrames l size } s)) ∧
  (∀ (l : Lane) (size : Nat), (burstFrames l size).length = (size + 2) / 3 ∧
     ∀ i < (size + 2) / 3, ∃ dots, (burstFrames l size)[i]? = some (.lines size (3 * i) dots) ∧
       dots.length = min 3 (size - 3 * i) ∧
       ∀ j < dots.length, dots[j]? = some ⟨l.content, l.linesSent + 3 * i + j + 1⟩)

/-- The start of an order raises the generation of its seat or voucher by 1, and works the voucher's code anew with it; a receipt's
start raises none (R154, R171). -/
def Obligations.RenderStartRaisesGeneration : Prop :=
  ∀ (o : Order) (s : State),
    (∀ serial v, o.item = .stub serial → s.voucher serial = some v → raiseGeneration o s = putVoucher serial
      { v with gen := v.gen + 1, code := (serial * 1009 + v.item * 101 + (v.gen + 1) * 13 + s.seed) % 9973 } s) ∧
    (∀ r, o.item = .ticket r → ∀ x, s.seat r.slot ⟨r.row, r.num⟩ = some x →
      (raiseGeneration o s).seat r.slot ⟨r.row, r.num⟩ = some { x with gen := x.gen + 1 }) ∧
    (o.item = .receipt → raiseGeneration o s = s)
end

