-- ==== Sys2Proof/Laws/State.lean ====
section
/-! SUPPORT. One lemma per field per update: what the field holds after the update. -/

namespace Sys2Proof.Machine

/-! ### setBasket -/

@[simp] theorem setBasket_screenings (st : Station) (b : Basket) (s : State) : (setBasket st b s).screenings = s.screenings := rfl
@[simp] theorem setBasket_holds (st : Station) (b : Basket) (s : State) : (setBasket st b s).holds = s.holds := rfl
@[simp] theorem setBasket_baskets (st : Station) (b : Basket) (s : State) : (setBasket st b s).baskets = s.baskets.set st b := rfl
@[simp] theorem setBasket_tariff (st : Station) (b : Basket) (s : State) : (setBasket st b s).tariff = s.tariff := rfl
@[simp] theorem setBasket_tariffId (st : Station) (b : Basket) (s : State) : (setBasket st b s).tariffId = s.tariffId := rfl
@[simp] theorem setBasket_pays (st : Station) (b : Basket) (s : State) : (setBasket st b s).pays = s.pays := rfl
@[simp] theorem setBasket_sales (st : Station) (b : Basket) (s : State) : (setBasket st b s).sales = s.sales := rfl
@[simp] theorem setBasket_salesReserved (st : Station) (b : Basket) (s : State) : (setBasket st b s).salesReserved = s.salesReserved := rfl
@[simp] theorem setBasket_nextSale (st : Station) (b : Basket) (s : State) : (setBasket st b s).nextSale = s.nextSale := rfl
@[simp] theorem setBasket_journal (st : Station) (b : Basket) (s : State) : (setBasket st b s).journal = s.journal := rfl
@[simp] theorem setBasket_journalReserved (st : Station) (b : Basket) (s : State) : (setBasket st b s).journalReserved = s.journalReserved := rfl
@[simp] theorem setBasket_nextSeq (st : Station) (b : Basket) (s : State) : (setBasket st b s).nextSeq = s.nextSeq := rfl
@[simp] theorem setBasket_journalArmed (st : Station) (b : Basket) (s : State) : (setBasket st b s).journalArmed = s.journalArmed := rfl
@[simp] theorem setBasket_lanes (st : Station) (b : Basket) (s : State) : (setBasket st b s).lanes = s.lanes := rfl
@[simp] theorem setBasket_mover (st : Station) (b : Basket) (s : State) : (setBasket st b s).mover = s.mover := rfl
@[simp] theorem setBasket_items (st : Station) (b : Basket) (s : State) : (setBasket st b s).items = s.items := rfl
@[simp] theorem setBasket_vouchers (st : Station) (b : Basket) (s : State) : (setBasket st b s).vouchers = s.vouchers := rfl
@[simp] theorem setBasket_nextSerial (st : Station) (b : Basket) (s : State) : (setBasket st b s).nextSerial = s.nextSerial := rfl
@[simp] theorem setBasket_seed (st : Station) (b : Basket) (s : State) : (setBasket st b s).seed = s.seed := rfl
@[simp] theorem setBasket_stations (st : Station) (b : Basket) (s : State) : (setBasket st b s).stations = s.stations := rfl
@[simp] theorem setBasket_limits (st : Station) (b : Basket) (s : State) : (setBasket st b s).limits = s.limits := rfl
@[simp] theorem setBasket_requests (st : Station) (b : Basket) (s : State) : (setBasket st b s).requests = s.requests := rfl
@[simp] theorem setBasket_lines (st : Station) (b : Basket) (s : State) : (setBasket st b s).lines = s.lines := rfl
@[simp] theorem setBasket_timeBase (st : Station) (b : Basket) (s : State) : (setBasket st b s).timeBase = s.timeBase := rfl
@[simp] theorem setBasket_wires (st : Station) (b : Basket) (s : State) : (setBasket st b s).wires = s.wires := rfl
@[simp] theorem setBasket_sent (st : Station) (b : Basket) (s : State) : (setBasket st b s).sent = s.sent := rfl
@[simp] theorem setBasket_draws (st : Station) (b : Basket) (s : State) : (setBasket st b s).draws = s.draws := rfl
@[simp] theorem setBasket_pending (st : Station) (b : Basket) (s : State) : (setBasket st b s).pending = s.pending := rfl

/-! ### setPay -/

@[simp] theorem setPay_screenings (st : Station) (p : PayContext) (s : State) : (setPay st p s).screenings = s.screenings := rfl
@[simp] theorem setPay_holds (st : Station) (p : PayContext) (s : State) : (setPay st p s).holds = s.holds := rfl
@[simp] theorem setPay_baskets (st : Station) (p : PayContext) (s : State) : (setPay st p s).baskets = s.baskets := rfl
@[simp] theorem setPay_tariff (st : Station) (p : PayContext) (s : State) : (setPay st p s).tariff = s.tariff := rfl
@[simp] theorem setPay_tariffId (st : Station) (p : PayContext) (s : State) : (setPay st p s).tariffId = s.tariffId := rfl
@[simp] theorem setPay_pays (st : Station) (p : PayContext) (s : State) : (setPay st p s).pays = s.pays.set st p := rfl
@[simp] theorem setPay_sales (st : Station) (p : PayContext) (s : State) : (setPay st p s).sales = s.sales := rfl
@[simp] theorem setPay_salesReserved (st : Station) (p : PayContext) (s : State) : (setPay st p s).salesReserved = s.salesReserved := rfl
@[simp] theorem setPay_nextSale (st : Station) (p : PayContext) (s : State) : (setPay st p s).nextSale = s.nextSale := rfl
@[simp] theorem setPay_journal (st : Station) (p : PayContext) (s : State) : (setPay st p s).journal = s.journal := rfl
@[simp] theorem setPay_journalReserved (st : Station) (p : PayContext) (s : State) : (setPay st p s).journalReserved = s.journalReserved := rfl
@[simp] theorem setPay_nextSeq (st : Station) (p : PayContext) (s : State) : (setPay st p s).nextSeq = s.nextSeq := rfl
@[simp] theorem setPay_journalArmed (st : Station) (p : PayContext) (s : State) : (setPay st p s).journalArmed = s.journalArmed := rfl
@[simp] theorem setPay_lanes (st : Station) (p : PayContext) (s : State) : (setPay st p s).lanes = s.lanes := rfl
@[simp] theorem setPay_mover (st : Station) (p : PayContext) (s : State) : (setPay st p s).mover = s.mover := rfl
@[simp] theorem setPay_items (st : Station) (p : PayContext) (s : State) : (setPay st p s).items = s.items := rfl
@[simp] theorem setPay_vouchers (st : Station) (p : PayContext) (s : State) : (setPay st p s).vouchers = s.vouchers := rfl
@[simp] theorem setPay_nextSerial (st : Station) (p : PayContext) (s : State) : (setPay st p s).nextSerial = s.nextSerial := rfl
@[simp] theorem setPay_seed (st : Station) (p : PayContext) (s : State) : (setPay st p s).seed = s.seed := rfl
@[simp] theorem setPay_stations (st : Station) (p : PayContext) (s : State) : (setPay st p s).stations = s.stations := rfl
@[simp] theorem setPay_limits (st : Station) (p : PayContext) (s : State) : (setPay st p s).limits = s.limits := rfl
@[simp] theorem setPay_requests (st : Station) (p : PayContext) (s : State) : (setPay st p s).requests = s.requests := rfl
@[simp] theorem setPay_lines (st : Station) (p : PayContext) (s : State) : (setPay st p s).lines = s.lines := rfl
@[simp] theorem setPay_timeBase (st : Station) (p : PayContext) (s : State) : (setPay st p s).timeBase = s.timeBase := rfl
@[simp] theorem setPay_wires (st : Station) (p : PayContext) (s : State) : (setPay st p s).wires = s.wires := rfl
@[simp] theorem setPay_sent (st : Station) (p : PayContext) (s : State) : (setPay st p s).sent = s.sent := rfl
@[simp] theorem setPay_draws (st : Station) (p : PayContext) (s : State) : (setPay st p s).draws = s.draws := rfl
@[simp] theorem setPay_pending (st : Station) (p : PayContext) (s : State) : (setPay st p s).pending = s.pending := rfl

/-! ### setPayment -/

@[simp] theorem setPayment_screenings (st : Station) (p : Option Payment) (s : State) : (setPayment st p s).screenings = s.screenings := rfl
@[simp] theorem setPayment_holds (st : Station) (p : Option Payment) (s : State) : (setPayment st p s).holds = s.holds := rfl
@[simp] theorem setPayment_baskets (st : Station) (p : Option Payment) (s : State) : (setPayment st p s).baskets = s.baskets := rfl
@[simp] theorem setPayment_tariff (st : Station) (p : Option Payment) (s : State) : (setPayment st p s).tariff = s.tariff := rfl
@[simp] theorem setPayment_tariffId (st : Station) (p : Option Payment) (s : State) : (setPayment st p s).tariffId = s.tariffId := rfl
@[simp] theorem setPayment_pays (st : Station) (p : Option Payment) (s : State) : (setPayment st p s).pays = s.pays.set st { s.pay st with current := p } := rfl
@[simp] theorem setPayment_sales (st : Station) (p : Option Payment) (s : State) : (setPayment st p s).sales = s.sales := rfl
@[simp] theorem setPayment_salesReserved (st : Station) (p : Option Payment) (s : State) : (setPayment st p s).salesReserved = s.salesReserved := rfl
@[simp] theorem setPayment_nextSale (st : Station) (p : Option Payment) (s : State) : (setPayment st p s).nextSale = s.nextSale := rfl
@[simp] theorem setPayment_journal (st : Station) (p : Option Payment) (s : State) : (setPayment st p s).journal = s.journal := rfl
@[simp] theorem setPayment_journalReserved (st : Station) (p : Option Payment) (s : State) : (setPayment st p s).journalReserved = s.journalReserved := rfl
@[simp] theorem setPayment_nextSeq (st : Station) (p : Option Payment) (s : State) : (setPayment st p s).nextSeq = s.nextSeq := rfl
@[simp] theorem setPayment_journalArmed (st : Station) (p : Option Payment) (s : State) : (setPayment st p s).journalArmed = s.journalArmed := rfl
@[simp] theorem setPayment_lanes (st : Station) (p : Option Payment) (s : State) : (setPayment st p s).lanes = s.lanes := rfl
@[simp] theorem setPayment_mover (st : Station) (p : Option Payment) (s : State) : (setPayment st p s).mover = s.mover := rfl
@[simp] theorem setPayment_items (st : Station) (p : Option Payment) (s : State) : (setPayment st p s).items = s.items := rfl
@[simp] theorem setPayment_vouchers (st : Station) (p : Option Payment) (s : State) : (setPayment st p s).vouchers = s.vouchers := rfl
@[simp] theorem setPayment_nextSerial (st : Station) (p : Option Payment) (s : State) : (setPayment st p s).nextSerial = s.nextSerial := rfl
@[simp] theorem setPayment_seed (st : Station) (p : Option Payment) (s : State) : (setPayment st p s).seed = s.seed := rfl
@[simp] theorem setPayment_stations (st : Station) (p : Option Payment) (s : State) : (setPayment st p s).stations = s.stations := rfl
@[simp] theorem setPayment_limits (st : Station) (p : Option Payment) (s : State) : (setPayment st p s).limits = s.limits := rfl
@[simp] theorem setPayment_requests (st : Station) (p : Option Payment) (s : State) : (setPayment st p s).requests = s.requests := rfl
@[simp] theorem setPayment_lines (st : Station) (p : Option Payment) (s : State) : (setPayment st p s).lines = s.lines := rfl
@[simp] theorem setPayment_timeBase (st : Station) (p : Option Payment) (s : State) : (setPayment st p s).timeBase = s.timeBase := rfl
@[simp] theorem setPayment_wires (st : Station) (p : Option Payment) (s : State) : (setPayment st p s).wires = s.wires := rfl
@[simp] theorem setPayment_sent (st : Station) (p : Option Payment) (s : State) : (setPayment st p s).sent = s.sent := rfl
@[simp] theorem setPayment_draws (st : Station) (p : Option Payment) (s : State) : (setPayment st p s).draws = s.draws := rfl
@[simp] theorem setPayment_pending (st : Station) (p : Option Payment) (s : State) : (setPayment st p s).pending = s.pending := rfl

/-! ### setLane -/

@[simp] theorem setLane_screenings (st : Station) (l : Lane) (s : State) : (setLane st l s).screenings = s.screenings := rfl
@[simp] theorem setLane_holds (st : Station) (l : Lane) (s : State) : (setLane st l s).holds = s.holds := rfl
@[simp] theorem setLane_baskets (st : Station) (l : Lane) (s : State) : (setLane st l s).baskets = s.baskets := rfl
@[simp] theorem setLane_tariff (st : Station) (l : Lane) (s : State) : (setLane st l s).tariff = s.tariff := rfl
@[simp] theorem setLane_tariffId (st : Station) (l : Lane) (s : State) : (setLane st l s).tariffId = s.tariffId := rfl
@[simp] theorem setLane_pays (st : Station) (l : Lane) (s : State) : (setLane st l s).pays = s.pays := rfl
@[simp] theorem setLane_sales (st : Station) (l : Lane) (s : State) : (setLane st l s).sales = s.sales := rfl
@[simp] theorem setLane_salesReserved (st : Station) (l : Lane) (s : State) : (setLane st l s).salesReserved = s.salesReserved := rfl
@[simp] theorem setLane_nextSale (st : Station) (l : Lane) (s : State) : (setLane st l s).nextSale = s.nextSale := rfl
@[simp] theorem setLane_journal (st : Station) (l : Lane) (s : State) : (setLane st l s).journal = s.journal := rfl
@[simp] theorem setLane_journalReserved (st : Station) (l : Lane) (s : State) : (setLane st l s).journalReserved = s.journalReserved := rfl
@[simp] theorem setLane_nextSeq (st : Station) (l : Lane) (s : State) : (setLane st l s).nextSeq = s.nextSeq := rfl
@[simp] theorem setLane_journalArmed (st : Station) (l : Lane) (s : State) : (setLane st l s).journalArmed = s.journalArmed := rfl
@[simp] theorem setLane_lanes (st : Station) (l : Lane) (s : State) : (setLane st l s).lanes = s.lanes.set st l := rfl
@[simp] theorem setLane_mover (st : Station) (l : Lane) (s : State) : (setLane st l s).mover = s.mover := rfl
@[simp] theorem setLane_items (st : Station) (l : Lane) (s : State) : (setLane st l s).items = s.items := rfl
@[simp] theorem setLane_vouchers (st : Station) (l : Lane) (s : State) : (setLane st l s).vouchers = s.vouchers := rfl
@[simp] theorem setLane_nextSerial (st : Station) (l : Lane) (s : State) : (setLane st l s).nextSerial = s.nextSerial := rfl
@[simp] theorem setLane_seed (st : Station) (l : Lane) (s : State) : (setLane st l s).seed = s.seed := rfl
@[simp] theorem setLane_stations (st : Station) (l : Lane) (s : State) : (setLane st l s).stations = s.stations := rfl
@[simp] theorem setLane_limits (st : Station) (l : Lane) (s : State) : (setLane st l s).limits = s.limits := rfl
@[simp] theorem setLane_requests (st : Station) (l : Lane) (s : State) : (setLane st l s).requests = s.requests := rfl
@[simp] theorem setLane_lines (st : Station) (l : Lane) (s : State) : (setLane st l s).lines = s.lines := rfl
@[simp] theorem setLane_timeBase (st : Station) (l : Lane) (s : State) : (setLane st l s).timeBase = s.timeBase := rfl
@[simp] theorem setLane_wires (st : Station) (l : Lane) (s : State) : (setLane st l s).wires = s.wires := rfl
@[simp] theorem setLane_sent (st : Station) (l : Lane) (s : State) : (setLane st l s).sent = s.sent := rfl
@[simp] theorem setLane_draws (st : Station) (l : Lane) (s : State) : (setLane st l s).draws = s.draws := rfl
@[simp] theorem setLane_pending (st : Station) (l : Lane) (s : State) : (setLane st l s).pending = s.pending := rfl

/-! ### setStation -/

@[simp] theorem setStation_screenings (st : Station) (c : StationConfig) (s : State) : (setStation st c s).screenings = s.screenings := rfl
@[simp] theorem setStation_holds (st : Station) (c : StationConfig) (s : State) : (setStation st c s).holds = s.holds := rfl
@[simp] theorem setStation_baskets (st : Station) (c : StationConfig) (s : State) : (setStation st c s).baskets = s.baskets := rfl
@[simp] theorem setStation_tariff (st : Station) (c : StationConfig) (s : State) : (setStation st c s).tariff = s.tariff := rfl
@[simp] theorem setStation_tariffId (st : Station) (c : StationConfig) (s : State) : (setStation st c s).tariffId = s.tariffId := rfl
@[simp] theorem setStation_pays (st : Station) (c : StationConfig) (s : State) : (setStation st c s).pays = s.pays := rfl
@[simp] theorem setStation_sales (st : Station) (c : StationConfig) (s : State) : (setStation st c s).sales = s.sales := rfl
@[simp] theorem setStation_salesReserved (st : Station) (c : StationConfig) (s : State) : (setStation st c s).salesReserved = s.salesReserved := rfl
@[simp] theorem setStation_nextSale (st : Station) (c : StationConfig) (s : State) : (setStation st c s).nextSale = s.nextSale := rfl
@[simp] theorem setStation_journal (st : Station) (c : StationConfig) (s : State) : (setStation st c s).journal = s.journal := rfl
@[simp] theorem setStation_journalReserved (st : Station) (c : StationConfig) (s : State) : (setStation st c s).journalReserved = s.journalReserved := rfl
@[simp] theorem setStation_nextSeq (st : Station) (c : StationConfig) (s : State) : (setStation st c s).nextSeq = s.nextSeq := rfl
@[simp] theorem setStation_journalArmed (st : Station) (c : StationConfig) (s : State) : (setStation st c s).journalArmed = s.journalArmed := rfl
@[simp] theorem setStation_lanes (st : Station) (c : StationConfig) (s : State) : (setStation st c s).lanes = s.lanes := rfl
@[simp] theorem setStation_mover (st : Station) (c : StationConfig) (s : State) : (setStation st c s).mover = s.mover := rfl
@[simp] theorem setStation_items (st : Station) (c : StationConfig) (s : State) : (setStation st c s).items = s.items := rfl
@[simp] theorem setStation_vouchers (st : Station) (c : StationConfig) (s : State) : (setStation st c s).vouchers = s.vouchers := rfl
@[simp] theorem setStation_nextSerial (st : Station) (c : StationConfig) (s : State) : (setStation st c s).nextSerial = s.nextSerial := rfl
@[simp] theorem setStation_seed (st : Station) (c : StationConfig) (s : State) : (setStation st c s).seed = s.seed := rfl
@[simp] theorem setStation_stations (st : Station) (c : StationConfig) (s : State) : (setStation st c s).stations = s.stations.set st c := rfl
@[simp] theorem setStation_limits (st : Station) (c : StationConfig) (s : State) : (setStation st c s).limits = s.limits := rfl
@[simp] theorem setStation_requests (st : Station) (c : StationConfig) (s : State) : (setStation st c s).requests = s.requests := rfl
@[simp] theorem setStation_lines (st : Station) (c : StationConfig) (s : State) : (setStation st c s).lines = s.lines := rfl
@[simp] theorem setStation_timeBase (st : Station) (c : StationConfig) (s : State) : (setStation st c s).timeBase = s.timeBase := rfl
@[simp] theorem setStation_wires (st : Station) (c : StationConfig) (s : State) : (setStation st c s).wires = s.wires := rfl
@[simp] theorem setStation_sent (st : Station) (c : StationConfig) (s : State) : (setStation st c s).sent = s.sent := rfl
@[simp] theorem setStation_draws (st : Station) (c : StationConfig) (s : State) : (setStation st c s).draws = s.draws := rfl
@[simp] theorem setStation_pending (st : Station) (c : StationConfig) (s : State) : (setStation st c s).pending = s.pending := rfl

/-! ### setRequest -/

@[simp] theorem setRequest_screenings (st : Station) (r : Option Request) (s : State) : (setRequest st r s).screenings = s.screenings := rfl
@[simp] theorem setRequest_holds (st : Station) (r : Option Request) (s : State) : (setRequest st r s).holds = s.holds := rfl
@[simp] theorem setRequest_baskets (st : Station) (r : Option Request) (s : State) : (setRequest st r s).baskets = s.baskets := rfl
@[simp] theorem setRequest_tariff (st : Station) (r : Option Request) (s : State) : (setRequest st r s).tariff = s.tariff := rfl
@[simp] theorem setRequest_tariffId (st : Station) (r : Option Request) (s : State) : (setRequest st r s).tariffId = s.tariffId := rfl
@[simp] theorem setRequest_pays (st : Station) (r : Option Request) (s : State) : (setRequest st r s).pays = s.pays := rfl
@[simp] theorem setRequest_sales (st : Station) (r : Option Request) (s : State) : (setRequest st r s).sales = s.sales := rfl
@[simp] theorem setRequest_salesReserved (st : Station) (r : Option Request) (s : State) : (setRequest st r s).salesReserved = s.salesReserved := rfl
@[simp] theorem setRequest_nextSale (st : Station) (r : Option Request) (s : State) : (setRequest st r s).nextSale = s.nextSale := rfl
@[simp] theorem setRequest_journal (st : Station) (r : Option Request) (s : State) : (setRequest st r s).journal = s.journal := rfl
@[simp] theorem setRequest_journalReserved (st : Station) (r : Option Request) (s : State) : (setRequest st r s).journalReserved = s.journalReserved := rfl
@[simp] theorem setRequest_nextSeq (st : Station) (r : Option Request) (s : State) : (setRequest st r s).nextSeq = s.nextSeq := rfl
@[simp] theorem setRequest_journalArmed (st : Station) (r : Option Request) (s : State) : (setRequest st r s).journalArmed = s.journalArmed := rfl
@[simp] theorem setRequest_lanes (st : Station) (r : Option Request) (s : State) : (setRequest st r s).lanes = s.lanes := rfl
@[simp] theorem setRequest_mover (st : Station) (r : Option Request) (s : State) : (setRequest st r s).mover = s.mover := rfl
@[simp] theorem setRequest_items (st : Station) (r : Option Request) (s : State) : (setRequest st r s).items = s.items := rfl
@[simp] theorem setRequest_vouchers (st : Station) (r : Option Request) (s : State) : (setRequest st r s).vouchers = s.vouchers := rfl
@[simp] theorem setRequest_nextSerial (st : Station) (r : Option Request) (s : State) : (setRequest st r s).nextSerial = s.nextSerial := rfl
@[simp] theorem setRequest_seed (st : Station) (r : Option Request) (s : State) : (setRequest st r s).seed = s.seed := rfl
@[simp] theorem setRequest_stations (st : Station) (r : Option Request) (s : State) : (setRequest st r s).stations = s.stations := rfl
@[simp] theorem setRequest_limits (st : Station) (r : Option Request) (s : State) : (setRequest st r s).limits = s.limits := rfl
@[simp] theorem setRequest_requests (st : Station) (r : Option Request) (s : State) : (setRequest st r s).requests = s.requests.set st r := rfl
@[simp] theorem setRequest_lines (st : Station) (r : Option Request) (s : State) : (setRequest st r s).lines = s.lines := rfl
@[simp] theorem setRequest_timeBase (st : Station) (r : Option Request) (s : State) : (setRequest st r s).timeBase = s.timeBase := rfl
@[simp] theorem setRequest_wires (st : Station) (r : Option Request) (s : State) : (setRequest st r s).wires = s.wires := rfl
@[simp] theorem setRequest_sent (st : Station) (r : Option Request) (s : State) : (setRequest st r s).sent = s.sent := rfl
@[simp] theorem setRequest_draws (st : Station) (r : Option Request) (s : State) : (setRequest st r s).draws = s.draws := rfl
@[simp] theorem setRequest_pending (st : Station) (r : Option Request) (s : State) : (setRequest st r s).pending = s.pending := rfl

/-! ### setLine -/

@[simp] theorem setLine_screenings (l : Line) (r : LineRec) (s : State) : (setLine l r s).screenings = s.screenings := rfl
@[simp] theorem setLine_holds (l : Line) (r : LineRec) (s : State) : (setLine l r s).holds = s.holds := rfl
@[simp] theorem setLine_baskets (l : Line) (r : LineRec) (s : State) : (setLine l r s).baskets = s.baskets := rfl
@[simp] theorem setLine_tariff (l : Line) (r : LineRec) (s : State) : (setLine l r s).tariff = s.tariff := rfl
@[simp] theorem setLine_tariffId (l : Line) (r : LineRec) (s : State) : (setLine l r s).tariffId = s.tariffId := rfl
@[simp] theorem setLine_pays (l : Line) (r : LineRec) (s : State) : (setLine l r s).pays = s.pays := rfl
@[simp] theorem setLine_sales (l : Line) (r : LineRec) (s : State) : (setLine l r s).sales = s.sales := rfl
@[simp] theorem setLine_salesReserved (l : Line) (r : LineRec) (s : State) : (setLine l r s).salesReserved = s.salesReserved := rfl
@[simp] theorem setLine_nextSale (l : Line) (r : LineRec) (s : State) : (setLine l r s).nextSale = s.nextSale := rfl
@[simp] theorem setLine_journal (l : Line) (r : LineRec) (s : State) : (setLine l r s).journal = s.journal := rfl
@[simp] theorem setLine_journalReserved (l : Line) (r : LineRec) (s : State) : (setLine l r s).journalReserved = s.journalReserved := rfl
@[simp] theorem setLine_nextSeq (l : Line) (r : LineRec) (s : State) : (setLine l r s).nextSeq = s.nextSeq := rfl
@[simp] theorem setLine_journalArmed (l : Line) (r : LineRec) (s : State) : (setLine l r s).journalArmed = s.journalArmed := rfl
@[simp] theorem setLine_lanes (l : Line) (r : LineRec) (s : State) : (setLine l r s).lanes = s.lanes := rfl
@[simp] theorem setLine_mover (l : Line) (r : LineRec) (s : State) : (setLine l r s).mover = s.mover := rfl
@[simp] theorem setLine_items (l : Line) (r : LineRec) (s : State) : (setLine l r s).items = s.items := rfl
@[simp] theorem setLine_vouchers (l : Line) (r : LineRec) (s : State) : (setLine l r s).vouchers = s.vouchers := rfl
@[simp] theorem setLine_nextSerial (l : Line) (r : LineRec) (s : State) : (setLine l r s).nextSerial = s.nextSerial := rfl
@[simp] theorem setLine_seed (l : Line) (r : LineRec) (s : State) : (setLine l r s).seed = s.seed := rfl
@[simp] theorem setLine_stations (l : Line) (r : LineRec) (s : State) : (setLine l r s).stations = s.stations := rfl
@[simp] theorem setLine_limits (l : Line) (r : LineRec) (s : State) : (setLine l r s).limits = s.limits := rfl
@[simp] theorem setLine_requests (l : Line) (r : LineRec) (s : State) : (setLine l r s).requests = s.requests := rfl
@[simp] theorem setLine_lines (l : Line) (r : LineRec) (s : State) : (setLine l r s).lines = s.lines.set l.idx r := rfl
@[simp] theorem setLine_timeBase (l : Line) (r : LineRec) (s : State) : (setLine l r s).timeBase = s.timeBase := rfl
@[simp] theorem setLine_wires (l : Line) (r : LineRec) (s : State) : (setLine l r s).wires = s.wires := rfl
@[simp] theorem setLine_sent (l : Line) (r : LineRec) (s : State) : (setLine l r s).sent = s.sent := rfl
@[simp] theorem setLine_draws (l : Line) (r : LineRec) (s : State) : (setLine l r s).draws = s.draws := rfl
@[simp] theorem setLine_pending (l : Line) (r : LineRec) (s : State) : (setLine l r s).pending = s.pending := rfl

/-! ### setWire -/

@[simp] theorem setWire_screenings (l : Line) (w : List WireByte) (s : State) : (setWire l w s).screenings = s.screenings := rfl
@[simp] theorem setWire_holds (l : Line) (w : List WireByte) (s : State) : (setWire l w s).holds = s.holds := rfl
@[simp] theorem setWire_baskets (l : Line) (w : List WireByte) (s : State) : (setWire l w s).baskets = s.baskets := rfl
@[simp] theorem setWire_tariff (l : Line) (w : List WireByte) (s : State) : (setWire l w s).tariff = s.tariff := rfl
@[simp] theorem setWire_tariffId (l : Line) (w : List WireByte) (s : State) : (setWire l w s).tariffId = s.tariffId := rfl
@[simp] theorem setWire_pays (l : Line) (w : List WireByte) (s : State) : (setWire l w s).pays = s.pays := rfl
@[simp] theorem setWire_sales (l : Line) (w : List WireByte) (s : State) : (setWire l w s).sales = s.sales := rfl
@[simp] theorem setWire_salesReserved (l : Line) (w : List WireByte) (s : State) : (setWire l w s).salesReserved = s.salesReserved := rfl
@[simp] theorem setWire_nextSale (l : Line) (w : List WireByte) (s : State) : (setWire l w s).nextSale = s.nextSale := rfl
@[simp] theorem setWire_journal (l : Line) (w : List WireByte) (s : State) : (setWire l w s).journal = s.journal := rfl
@[simp] theorem setWire_journalReserved (l : Line) (w : List WireByte) (s : State) : (setWire l w s).journalReserved = s.journalReserved := rfl
@[simp] theorem setWire_nextSeq (l : Line) (w : List WireByte) (s : State) : (setWire l w s).nextSeq = s.nextSeq := rfl
@[simp] theorem setWire_journalArmed (l : Line) (w : List WireByte) (s : State) : (setWire l w s).journalArmed = s.journalArmed := rfl
@[simp] theorem setWire_lanes (l : Line) (w : List WireByte) (s : State) : (setWire l w s).lanes = s.lanes := rfl
@[simp] theorem setWire_mover (l : Line) (w : List WireByte) (s : State) : (setWire l w s).mover = s.mover := rfl
@[simp] theorem setWire_items (l : Line) (w : List WireByte) (s : State) : (setWire l w s).items = s.items := rfl
@[simp] theorem setWire_vouchers (l : Line) (w : List WireByte) (s : State) : (setWire l w s).vouchers = s.vouchers := rfl
@[simp] theorem setWire_nextSerial (l : Line) (w : List WireByte) (s : State) : (setWire l w s).nextSerial = s.nextSerial := rfl
@[simp] theorem setWire_seed (l : Line) (w : List WireByte) (s : State) : (setWire l w s).seed = s.seed := rfl
@[simp] theorem setWire_stations (l : Line) (w : List WireByte) (s : State) : (setWire l w s).stations = s.stations := rfl
@[simp] theorem setWire_limits (l : Line) (w : List WireByte) (s : State) : (setWire l w s).limits = s.limits := rfl
@[simp] theorem setWire_requests (l : Line) (w : List WireByte) (s : State) : (setWire l w s).requests = s.requests := rfl
@[simp] theorem setWire_lines (l : Line) (w : List WireByte) (s : State) : (setWire l w s).lines = s.lines := rfl
@[simp] theorem setWire_timeBase (l : Line) (w : List WireByte) (s : State) : (setWire l w s).timeBase = s.timeBase := rfl
@[simp] theorem setWire_wires (l : Line) (w : List WireByte) (s : State) : (setWire l w s).wires = s.wires.set l.idx w := rfl
@[simp] theorem setWire_sent (l : Line) (w : List WireByte) (s : State) : (setWire l w s).sent = s.sent := rfl
@[simp] theorem setWire_draws (l : Line) (w : List WireByte) (s : State) : (setWire l w s).draws = s.draws := rfl
@[simp] theorem setWire_pending (l : Line) (w : List WireByte) (s : State) : (setWire l w s).pending = s.pending := rfl

/-! ### setSent -/

@[simp] theorem setSent_screenings (l : Line) (fs : List (List Byte)) (s : State) : (setSent l fs s).screenings = s.screenings := rfl
@[simp] theorem setSent_holds (l : Line) (fs : List (List Byte)) (s : State) : (setSent l fs s).holds = s.holds := rfl
@[simp] theorem setSent_baskets (l : Line) (fs : List (List Byte)) (s : State) : (setSent l fs s).baskets = s.baskets := rfl
@[simp] theorem setSent_tariff (l : Line) (fs : List (List Byte)) (s : State) : (setSent l fs s).tariff = s.tariff := rfl
@[simp] theorem setSent_tariffId (l : Line) (fs : List (List Byte)) (s : State) : (setSent l fs s).tariffId = s.tariffId := rfl
@[simp] theorem setSent_pays (l : Line) (fs : List (List Byte)) (s : State) : (setSent l fs s).pays = s.pays := rfl
@[simp] theorem setSent_sales (l : Line) (fs : List (List Byte)) (s : State) : (setSent l fs s).sales = s.sales := rfl
@[simp] theorem setSent_salesReserved (l : Line) (fs : List (List Byte)) (s : State) : (setSent l fs s).salesReserved = s.salesReserved := rfl
@[simp] theorem setSent_nextSale (l : Line) (fs : List (List Byte)) (s : State) : (setSent l fs s).nextSale = s.nextSale := rfl
@[simp] theorem setSent_journal (l : Line) (fs : List (List Byte)) (s : State) : (setSent l fs s).journal = s.journal := rfl
@[simp] theorem setSent_journalReserved (l : Line) (fs : List (List Byte)) (s : State) : (setSent l fs s).journalReserved = s.journalReserved := rfl
@[simp] theorem setSent_nextSeq (l : Line) (fs : List (List Byte)) (s : State) : (setSent l fs s).nextSeq = s.nextSeq := rfl
@[simp] theorem setSent_journalArmed (l : Line) (fs : List (List Byte)) (s : State) : (setSent l fs s).journalArmed = s.journalArmed := rfl
@[simp] theorem setSent_lanes (l : Line) (fs : List (List Byte)) (s : State) : (setSent l fs s).lanes = s.lanes := rfl
@[simp] theorem setSent_mover (l : Line) (fs : List (List Byte)) (s : State) : (setSent l fs s).mover = s.mover := rfl
@[simp] theorem setSent_items (l : Line) (fs : List (List Byte)) (s : State) : (setSent l fs s).items = s.items := rfl
@[simp] theorem setSent_vouchers (l : Line) (fs : List (List Byte)) (s : State) : (setSent l fs s).vouchers = s.vouchers := rfl
@[simp] theorem setSent_nextSerial (l : Line) (fs : List (List Byte)) (s : State) : (setSent l fs s).nextSerial = s.nextSerial := rfl
@[simp] theorem setSent_seed (l : Line) (fs : List (List Byte)) (s : State) : (setSent l fs s).seed = s.seed := rfl
@[simp] theorem setSent_stations (l : Line) (fs : List (List Byte)) (s : State) : (setSent l fs s).stations = s.stations := rfl
@[simp] theorem setSent_limits (l : Line) (fs : List (List Byte)) (s : State) : (setSent l fs s).limits = s.limits := rfl
@[simp] theorem setSent_requests (l : Line) (fs : List (List Byte)) (s : State) : (setSent l fs s).requests = s.requests := rfl
@[simp] theorem setSent_lines (l : Line) (fs : List (List Byte)) (s : State) : (setSent l fs s).lines = s.lines := rfl
@[simp] theorem setSent_timeBase (l : Line) (fs : List (List Byte)) (s : State) : (setSent l fs s).timeBase = s.timeBase := rfl
@[simp] theorem setSent_wires (l : Line) (fs : List (List Byte)) (s : State) : (setSent l fs s).wires = s.wires := rfl
@[simp] theorem setSent_sent (l : Line) (fs : List (List Byte)) (s : State) : (setSent l fs s).sent = s.sent.set l.idx fs := rfl
@[simp] theorem setSent_draws (l : Line) (fs : List (List Byte)) (s : State) : (setSent l fs s).draws = s.draws := rfl
@[simp] theorem setSent_pending (l : Line) (fs : List (List Byte)) (s : State) : (setSent l fs s).pending = s.pending := rfl

/-! ### setMover -/

@[simp] theorem setMover_screenings (m : Mover) (s : State) : (setMover m s).screenings = s.screenings := rfl
@[simp] theorem setMover_holds (m : Mover) (s : State) : (setMover m s).holds = s.holds := rfl
@[simp] theorem setMover_baskets (m : Mover) (s : State) : (setMover m s).baskets = s.baskets := rfl
@[simp] theorem setMover_tariff (m : Mover) (s : State) : (setMover m s).tariff = s.tariff := rfl
@[simp] theorem setMover_tariffId (m : Mover) (s : State) : (setMover m s).tariffId = s.tariffId := rfl
@[simp] theorem setMover_pays (m : Mover) (s : State) : (setMover m s).pays = s.pays := rfl
@[simp] theorem setMover_sales (m : Mover) (s : State) : (setMover m s).sales = s.sales := rfl
@[simp] theorem setMover_salesReserved (m : Mover) (s : State) : (setMover m s).salesReserved = s.salesReserved := rfl
@[simp] theorem setMover_nextSale (m : Mover) (s : State) : (setMover m s).nextSale = s.nextSale := rfl
@[simp] theorem setMover_journal (m : Mover) (s : State) : (setMover m s).journal = s.journal := rfl
@[simp] theorem setMover_journalReserved (m : Mover) (s : State) : (setMover m s).journalReserved = s.journalReserved := rfl
@[simp] theorem setMover_nextSeq (m : Mover) (s : State) : (setMover m s).nextSeq = s.nextSeq := rfl
@[simp] theorem setMover_journalArmed (m : Mover) (s : State) : (setMover m s).journalArmed = s.journalArmed := rfl
@[simp] theorem setMover_lanes (m : Mover) (s : State) : (setMover m s).lanes = s.lanes := rfl
@[simp] theorem setMover_mover (m : Mover) (s : State) : (setMover m s).mover = m := rfl
@[simp] theorem setMover_items (m : Mover) (s : State) : (setMover m s).items = s.items := rfl
@[simp] theorem setMover_vouchers (m : Mover) (s : State) : (setMover m s).vouchers = s.vouchers := rfl
@[simp] theorem setMover_nextSerial (m : Mover) (s : State) : (setMover m s).nextSerial = s.nextSerial := rfl
@[simp] theorem setMover_seed (m : Mover) (s : State) : (setMover m s).seed = s.seed := rfl
@[simp] theorem setMover_stations (m : Mover) (s : State) : (setMover m s).stations = s.stations := rfl
@[simp] theorem setMover_limits (m : Mover) (s : State) : (setMover m s).limits = s.limits := rfl
@[simp] theorem setMover_requests (m : Mover) (s : State) : (setMover m s).requests = s.requests := rfl
@[simp] theorem setMover_lines (m : Mover) (s : State) : (setMover m s).lines = s.lines := rfl
@[simp] theorem setMover_timeBase (m : Mover) (s : State) : (setMover m s).timeBase = s.timeBase := rfl
@[simp] theorem setMover_wires (m : Mover) (s : State) : (setMover m s).wires = s.wires := rfl
@[simp] theorem setMover_sent (m : Mover) (s : State) : (setMover m s).sent = s.sent := rfl
@[simp] theorem setMover_draws (m : Mover) (s : State) : (setMover m s).draws = s.draws := rfl
@[simp] theorem setMover_pending (m : Mover) (s : State) : (setMover m s).pending = s.pending := rfl

/-! ### setLimits -/

@[simp] theorem setLimits_screenings (l : Limits) (s : State) : (setLimits l s).screenings = s.screenings := rfl
@[simp] theorem setLimits_holds (l : Limits) (s : State) : (setLimits l s).holds = s.holds := rfl
@[simp] theorem setLimits_baskets (l : Limits) (s : State) : (setLimits l s).baskets = s.baskets := rfl
@[simp] theorem setLimits_tariff (l : Limits) (s : State) : (setLimits l s).tariff = s.tariff := rfl
@[simp] theorem setLimits_tariffId (l : Limits) (s : State) : (setLimits l s).tariffId = s.tariffId := rfl
@[simp] theorem setLimits_pays (l : Limits) (s : State) : (setLimits l s).pays = s.pays := rfl
@[simp] theorem setLimits_sales (l : Limits) (s : State) : (setLimits l s).sales = s.sales := rfl
@[simp] theorem setLimits_salesReserved (l : Limits) (s : State) : (setLimits l s).salesReserved = s.salesReserved := rfl
@[simp] theorem setLimits_nextSale (l : Limits) (s : State) : (setLimits l s).nextSale = s.nextSale := rfl
@[simp] theorem setLimits_journal (l : Limits) (s : State) : (setLimits l s).journal = s.journal := rfl
@[simp] theorem setLimits_journalReserved (l : Limits) (s : State) : (setLimits l s).journalReserved = s.journalReserved := rfl
@[simp] theorem setLimits_nextSeq (l : Limits) (s : State) : (setLimits l s).nextSeq = s.nextSeq := rfl
@[simp] theorem setLimits_journalArmed (l : Limits) (s : State) : (setLimits l s).journalArmed = s.journalArmed := rfl
@[simp] theorem setLimits_lanes (l : Limits) (s : State) : (setLimits l s).lanes = s.lanes := rfl
@[simp] theorem setLimits_mover (l : Limits) (s : State) : (setLimits l s).mover = s.mover := rfl
@[simp] theorem setLimits_items (l : Limits) (s : State) : (setLimits l s).items = s.items := rfl
@[simp] theorem setLimits_vouchers (l : Limits) (s : State) : (setLimits l s).vouchers = s.vouchers := rfl
@[simp] theorem setLimits_nextSerial (l : Limits) (s : State) : (setLimits l s).nextSerial = s.nextSerial := rfl
@[simp] theorem setLimits_seed (l : Limits) (s : State) : (setLimits l s).seed = s.seed := rfl
@[simp] theorem setLimits_stations (l : Limits) (s : State) : (setLimits l s).stations = s.stations := rfl
@[simp] theorem setLimits_limits (l : Limits) (s : State) : (setLimits l s).limits = l := rfl
@[simp] theorem setLimits_requests (l : Limits) (s : State) : (setLimits l s).requests = s.requests := rfl
@[simp] theorem setLimits_lines (l : Limits) (s : State) : (setLimits l s).lines = s.lines := rfl
@[simp] theorem setLimits_timeBase (l : Limits) (s : State) : (setLimits l s).timeBase = s.timeBase := rfl
@[simp] theorem setLimits_wires (l : Limits) (s : State) : (setLimits l s).wires = s.wires := rfl
@[simp] theorem setLimits_sent (l : Limits) (s : State) : (setLimits l s).sent = s.sent := rfl
@[simp] theorem setLimits_draws (l : Limits) (s : State) : (setLimits l s).draws = s.draws := rfl
@[simp] theorem setLimits_pending (l : Limits) (s : State) : (setLimits l s).pending = s.pending := rfl

/-! ### putScreening -/

@[simp] theorem putScreening_screenings (slot : Nat) (x : Screening) (s : State) : (putScreening slot x s).screenings = s.screenings.put slot x := rfl
@[simp] theorem putScreening_holds (slot : Nat) (x : Screening) (s : State) : (putScreening slot x s).holds = s.holds := rfl
@[simp] theorem putScreening_baskets (slot : Nat) (x : Screening) (s : State) : (putScreening slot x s).baskets = s.baskets := rfl
@[simp] theorem putScreening_tariff (slot : Nat) (x : Screening) (s : State) : (putScreening slot x s).tariff = s.tariff := rfl
@[simp] theorem putScreening_tariffId (slot : Nat) (x : Screening) (s : State) : (putScreening slot x s).tariffId = s.tariffId := rfl
@[simp] theorem putScreening_pays (slot : Nat) (x : Screening) (s : State) : (putScreening slot x s).pays = s.pays := rfl
@[simp] theorem putScreening_sales (slot : Nat) (x : Screening) (s : State) : (putScreening slot x s).sales = s.sales := rfl
@[simp] theorem putScreening_salesReserved (slot : Nat) (x : Screening) (s : State) : (putScreening slot x s).salesReserved = s.salesReserved := rfl
@[simp] theorem putScreening_nextSale (slot : Nat) (x : Screening) (s : State) : (putScreening slot x s).nextSale = s.nextSale := rfl
@[simp] theorem putScreening_journal (slot : Nat) (x : Screening) (s : State) : (putScreening slot x s).journal = s.journal := rfl
@[simp] theorem putScreening_journalReserved (slot : Nat) (x : Screening) (s : State) : (putScreening slot x s).journalReserved = s.journalReserved := rfl
@[simp] theorem putScreening_nextSeq (slot : Nat) (x : Screening) (s : State) : (putScreening slot x s).nextSeq = s.nextSeq := rfl
@[simp] theorem putScreening_journalArmed (slot : Nat) (x : Screening) (s : State) : (putScreening slot x s).journalArmed = s.journalArmed := rfl
@[simp] theorem putScreening_lanes (slot : Nat) (x : Screening) (s : State) : (putScreening slot x s).lanes = s.lanes := rfl
@[simp] theorem putScreening_mover (slot : Nat) (x : Screening) (s : State) : (putScreening slot x s).mover = s.mover := rfl
@[simp] theorem putScreening_items (slot : Nat) (x : Screening) (s : State) : (putScreening slot x s).items = s.items := rfl
@[simp] theorem putScreening_vouchers (slot : Nat) (x : Screening) (s : State) : (putScreening slot x s).vouchers = s.vouchers := rfl
@[simp] theorem putScreening_nextSerial (slot : Nat) (x : Screening) (s : State) : (putScreening slot x s).nextSerial = s.nextSerial := rfl
@[simp] theorem putScreening_seed (slot : Nat) (x : Screening) (s : State) : (putScreening slot x s).seed = s.seed := rfl
@[simp] theorem putScreening_stations (slot : Nat) (x : Screening) (s : State) : (putScreening slot x s).stations = s.stations := rfl
@[simp] theorem putScreening_limits (slot : Nat) (x : Screening) (s : State) : (putScreening slot x s).limits = s.limits := rfl
@[simp] theorem putScreening_requests (slot : Nat) (x : Screening) (s : State) : (putScreening slot x s).requests = s.requests := rfl
@[simp] theorem putScreening_lines (slot : Nat) (x : Screening) (s : State) : (putScreening slot x s).lines = s.lines := rfl
@[simp] theorem putScreening_timeBase (slot : Nat) (x : Screening) (s : State) : (putScreening slot x s).timeBase = s.timeBase := rfl
@[simp] theorem putScreening_wires (slot : Nat) (x : Screening) (s : State) : (putScreening slot x s).wires = s.wires := rfl
@[simp] theorem putScreening_sent (slot : Nat) (x : Screening) (s : State) : (putScreening slot x s).sent = s.sent := rfl
@[simp] theorem putScreening_draws (slot : Nat) (x : Screening) (s : State) : (putScreening slot x s).draws = s.draws := rfl
@[simp] theorem putScreening_pending (slot : Nat) (x : Screening) (s : State) : (putScreening slot x s).pending = s.pending := rfl

/-! ### delScreening -/

@[simp] theorem delScreening_screenings (slot : Nat) (s : State) : (delScreening slot s).screenings = s.screenings.del slot := rfl
@[simp] theorem delScreening_holds (slot : Nat) (s : State) : (delScreening slot s).holds = s.holds := rfl
@[simp] theorem delScreening_baskets (slot : Nat) (s : State) : (delScreening slot s).baskets = s.baskets := rfl
@[simp] theorem delScreening_tariff (slot : Nat) (s : State) : (delScreening slot s).tariff = s.tariff := rfl
@[simp] theorem delScreening_tariffId (slot : Nat) (s : State) : (delScreening slot s).tariffId = s.tariffId := rfl
@[simp] theorem delScreening_pays (slot : Nat) (s : State) : (delScreening slot s).pays = s.pays := rfl
@[simp] theorem delScreening_sales (slot : Nat) (s : State) : (delScreening slot s).sales = s.sales := rfl
@[simp] theorem delScreening_salesReserved (slot : Nat) (s : State) : (delScreening slot s).salesReserved = s.salesReserved := rfl
@[simp] theorem delScreening_nextSale (slot : Nat) (s : State) : (delScreening slot s).nextSale = s.nextSale := rfl
@[simp] theorem delScreening_journal (slot : Nat) (s : State) : (delScreening slot s).journal = s.journal := rfl
@[simp] theorem delScreening_journalReserved (slot : Nat) (s : State) : (delScreening slot s).journalReserved = s.journalReserved := rfl
@[simp] theorem delScreening_nextSeq (slot : Nat) (s : State) : (delScreening slot s).nextSeq = s.nextSeq := rfl
@[simp] theorem delScreening_journalArmed (slot : Nat) (s : State) : (delScreening slot s).journalArmed = s.journalArmed := rfl
@[simp] theorem delScreening_lanes (slot : Nat) (s : State) : (delScreening slot s).lanes = s.lanes := rfl
@[simp] theorem delScreening_mover (slot : Nat) (s : State) : (delScreening slot s).mover = s.mover := rfl
@[simp] theorem delScreening_items (slot : Nat) (s : State) : (delScreening slot s).items = s.items := rfl
@[simp] theorem delScreening_vouchers (slot : Nat) (s : State) : (delScreening slot s).vouchers = s.vouchers := rfl
@[simp] theorem delScreening_nextSerial (slot : Nat) (s : State) : (delScreening slot s).nextSerial = s.nextSerial := rfl
@[simp] theorem delScreening_seed (slot : Nat) (s : State) : (delScreening slot s).seed = s.seed := rfl
@[simp] theorem delScreening_stations (slot : Nat) (s : State) : (delScreening slot s).stations = s.stations := rfl
@[simp] theorem delScreening_limits (slot : Nat) (s : State) : (delScreening slot s).limits = s.limits := rfl
@[simp] theorem delScreening_requests (slot : Nat) (s : State) : (delScreening slot s).requests = s.requests := rfl
@[simp] theorem delScreening_lines (slot : Nat) (s : State) : (delScreening slot s).lines = s.lines := rfl
@[simp] theorem delScreening_timeBase (slot : Nat) (s : State) : (delScreening slot s).timeBase = s.timeBase := rfl
@[simp] theorem delScreening_wires (slot : Nat) (s : State) : (delScreening slot s).wires = s.wires := rfl
@[simp] theorem delScreening_sent (slot : Nat) (s : State) : (delScreening slot s).sent = s.sent := rfl
@[simp] theorem delScreening_draws (slot : Nat) (s : State) : (delScreening slot s).draws = s.draws := rfl
@[simp] theorem delScreening_pending (slot : Nat) (s : State) : (delScreening slot s).pending = s.pending := rfl

/-! ### putHold -/

@[simp] theorem putHold_screenings (n : Nat) (x : Hold) (s : State) : (putHold n x s).screenings = s.screenings := rfl
@[simp] theorem putHold_holds (n : Nat) (x : Hold) (s : State) : (putHold n x s).holds = s.holds.put n x := rfl
@[simp] theorem putHold_baskets (n : Nat) (x : Hold) (s : State) : (putHold n x s).baskets = s.baskets := rfl
@[simp] theorem putHold_tariff (n : Nat) (x : Hold) (s : State) : (putHold n x s).tariff = s.tariff := rfl
@[simp] theorem putHold_tariffId (n : Nat) (x : Hold) (s : State) : (putHold n x s).tariffId = s.tariffId := rfl
@[simp] theorem putHold_pays (n : Nat) (x : Hold) (s : State) : (putHold n x s).pays = s.pays := rfl
@[simp] theorem putHold_sales (n : Nat) (x : Hold) (s : State) : (putHold n x s).sales = s.sales := rfl
@[simp] theorem putHold_salesReserved (n : Nat) (x : Hold) (s : State) : (putHold n x s).salesReserved = s.salesReserved := rfl
@[simp] theorem putHold_nextSale (n : Nat) (x : Hold) (s : State) : (putHold n x s).nextSale = s.nextSale := rfl
@[simp] theorem putHold_journal (n : Nat) (x : Hold) (s : State) : (putHold n x s).journal = s.journal := rfl
@[simp] theorem putHold_journalReserved (n : Nat) (x : Hold) (s : State) : (putHold n x s).journalReserved = s.journalReserved := rfl
@[simp] theorem putHold_nextSeq (n : Nat) (x : Hold) (s : State) : (putHold n x s).nextSeq = s.nextSeq := rfl
@[simp] theorem putHold_journalArmed (n : Nat) (x : Hold) (s : State) : (putHold n x s).journalArmed = s.journalArmed := rfl
@[simp] theorem putHold_lanes (n : Nat) (x : Hold) (s : State) : (putHold n x s).lanes = s.lanes := rfl
@[simp] theorem putHold_mover (n : Nat) (x : Hold) (s : State) : (putHold n x s).mover = s.mover := rfl
@[simp] theorem putHold_items (n : Nat) (x : Hold) (s : State) : (putHold n x s).items = s.items := rfl
@[simp] theorem putHold_vouchers (n : Nat) (x : Hold) (s : State) : (putHold n x s).vouchers = s.vouchers := rfl
@[simp] theorem putHold_nextSerial (n : Nat) (x : Hold) (s : State) : (putHold n x s).nextSerial = s.nextSerial := rfl
@[simp] theorem putHold_seed (n : Nat) (x : Hold) (s : State) : (putHold n x s).seed = s.seed := rfl
@[simp] theorem putHold_stations (n : Nat) (x : Hold) (s : State) : (putHold n x s).stations = s.stations := rfl
@[simp] theorem putHold_limits (n : Nat) (x : Hold) (s : State) : (putHold n x s).limits = s.limits := rfl
@[simp] theorem putHold_requests (n : Nat) (x : Hold) (s : State) : (putHold n x s).requests = s.requests := rfl
@[simp] theorem putHold_lines (n : Nat) (x : Hold) (s : State) : (putHold n x s).lines = s.lines := rfl
@[simp] theorem putHold_timeBase (n : Nat) (x : Hold) (s : State) : (putHold n x s).timeBase = s.timeBase := rfl
@[simp] theorem putHold_wires (n : Nat) (x : Hold) (s : State) : (putHold n x s).wires = s.wires := rfl
@[simp] theorem putHold_sent (n : Nat) (x : Hold) (s : State) : (putHold n x s).sent = s.sent := rfl
@[simp] theorem putHold_draws (n : Nat) (x : Hold) (s : State) : (putHold n x s).draws = s.draws := rfl
@[simp] theorem putHold_pending (n : Nat) (x : Hold) (s : State) : (putHold n x s).pending = s.pending := rfl

/-! ### delHold -/

@[simp] theorem delHold_screenings (n : Nat) (s : State) : (delHold n s).screenings = s.screenings := rfl
@[simp] theorem delHold_holds (n : Nat) (s : State) : (delHold n s).holds = s.holds.del n := rfl
@[simp] theorem delHold_baskets (n : Nat) (s : State) : (delHold n s).baskets = s.baskets := rfl
@[simp] theorem delHold_tariff (n : Nat) (s : State) : (delHold n s).tariff = s.tariff := rfl
@[simp] theorem delHold_tariffId (n : Nat) (s : State) : (delHold n s).tariffId = s.tariffId := rfl
@[simp] theorem delHold_pays (n : Nat) (s : State) : (delHold n s).pays = s.pays := rfl
@[simp] theorem delHold_sales (n : Nat) (s : State) : (delHold n s).sales = s.sales := rfl
@[simp] theorem delHold_salesReserved (n : Nat) (s : State) : (delHold n s).salesReserved = s.salesReserved := rfl
@[simp] theorem delHold_nextSale (n : Nat) (s : State) : (delHold n s).nextSale = s.nextSale := rfl
@[simp] theorem delHold_journal (n : Nat) (s : State) : (delHold n s).journal = s.journal := rfl
@[simp] theorem delHold_journalReserved (n : Nat) (s : State) : (delHold n s).journalReserved = s.journalReserved := rfl
@[simp] theorem delHold_nextSeq (n : Nat) (s : State) : (delHold n s).nextSeq = s.nextSeq := rfl
@[simp] theorem delHold_journalArmed (n : Nat) (s : State) : (delHold n s).journalArmed = s.journalArmed := rfl
@[simp] theorem delHold_lanes (n : Nat) (s : State) : (delHold n s).lanes = s.lanes := rfl
@[simp] theorem delHold_mover (n : Nat) (s : State) : (delHold n s).mover = s.mover := rfl
@[simp] theorem delHold_items (n : Nat) (s : State) : (delHold n s).items = s.items := rfl
@[simp] theorem delHold_vouchers (n : Nat) (s : State) : (delHold n s).vouchers = s.vouchers := rfl
@[simp] theorem delHold_nextSerial (n : Nat) (s : State) : (delHold n s).nextSerial = s.nextSerial := rfl
@[simp] theorem delHold_seed (n : Nat) (s : State) : (delHold n s).seed = s.seed := rfl
@[simp] theorem delHold_stations (n : Nat) (s : State) : (delHold n s).stations = s.stations := rfl
@[simp] theorem delHold_limits (n : Nat) (s : State) : (delHold n s).limits = s.limits := rfl
@[simp] theorem delHold_requests (n : Nat) (s : State) : (delHold n s).requests = s.requests := rfl
@[simp] theorem delHold_lines (n : Nat) (s : State) : (delHold n s).lines = s.lines := rfl
@[simp] theorem delHold_timeBase (n : Nat) (s : State) : (delHold n s).timeBase = s.timeBase := rfl
@[simp] theorem delHold_wires (n : Nat) (s : State) : (delHold n s).wires = s.wires := rfl
@[simp] theorem delHold_sent (n : Nat) (s : State) : (delHold n s).sent = s.sent := rfl
@[simp] theorem delHold_draws (n : Nat) (s : State) : (delHold n s).draws = s.draws := rfl
@[simp] theorem delHold_pending (n : Nat) (s : State) : (delHold n s).pending = s.pending := rfl

/-! ### putSale -/

@[simp] theorem putSale_screenings (n : Nat) (x : Sale) (s : State) : (putSale n x s).screenings = s.screenings := rfl
@[simp] theorem putSale_holds (n : Nat) (x : Sale) (s : State) : (putSale n x s).holds = s.holds := rfl
@[simp] theorem putSale_baskets (n : Nat) (x : Sale) (s : State) : (putSale n x s).baskets = s.baskets := rfl
@[simp] theorem putSale_tariff (n : Nat) (x : Sale) (s : State) : (putSale n x s).tariff = s.tariff := rfl
@[simp] theorem putSale_tariffId (n : Nat) (x : Sale) (s : State) : (putSale n x s).tariffId = s.tariffId := rfl
@[simp] theorem putSale_pays (n : Nat) (x : Sale) (s : State) : (putSale n x s).pays = s.pays := rfl
@[simp] theorem putSale_sales (n : Nat) (x : Sale) (s : State) : (putSale n x s).sales = s.sales.put n x := rfl
@[simp] theorem putSale_salesReserved (n : Nat) (x : Sale) (s : State) : (putSale n x s).salesReserved = s.salesReserved := rfl
@[simp] theorem putSale_nextSale (n : Nat) (x : Sale) (s : State) : (putSale n x s).nextSale = s.nextSale := rfl
@[simp] theorem putSale_journal (n : Nat) (x : Sale) (s : State) : (putSale n x s).journal = s.journal := rfl
@[simp] theorem putSale_journalReserved (n : Nat) (x : Sale) (s : State) : (putSale n x s).journalReserved = s.journalReserved := rfl
@[simp] theorem putSale_nextSeq (n : Nat) (x : Sale) (s : State) : (putSale n x s).nextSeq = s.nextSeq := rfl
@[simp] theorem putSale_journalArmed (n : Nat) (x : Sale) (s : State) : (putSale n x s).journalArmed = s.journalArmed := rfl
@[simp] theorem putSale_lanes (n : Nat) (x : Sale) (s : State) : (putSale n x s).lanes = s.lanes := rfl
@[simp] theorem putSale_mover (n : Nat) (x : Sale) (s : State) : (putSale n x s).mover = s.mover := rfl
@[simp] theorem putSale_items (n : Nat) (x : Sale) (s : State) : (putSale n x s).items = s.items := rfl
@[simp] theorem putSale_vouchers (n : Nat) (x : Sale) (s : State) : (putSale n x s).vouchers = s.vouchers := rfl
@[simp] theorem putSale_nextSerial (n : Nat) (x : Sale) (s : State) : (putSale n x s).nextSerial = s.nextSerial := rfl
@[simp] theorem putSale_seed (n : Nat) (x : Sale) (s : State) : (putSale n x s).seed = s.seed := rfl
@[simp] theorem putSale_stations (n : Nat) (x : Sale) (s : State) : (putSale n x s).stations = s.stations := rfl
@[simp] theorem putSale_limits (n : Nat) (x : Sale) (s : State) : (putSale n x s).limits = s.limits := rfl
@[simp] theorem putSale_requests (n : Nat) (x : Sale) (s : State) : (putSale n x s).requests = s.requests := rfl
@[simp] theorem putSale_lines (n : Nat) (x : Sale) (s : State) : (putSale n x s).lines = s.lines := rfl
@[simp] theorem putSale_timeBase (n : Nat) (x : Sale) (s : State) : (putSale n x s).timeBase = s.timeBase := rfl
@[simp] theorem putSale_wires (n : Nat) (x : Sale) (s : State) : (putSale n x s).wires = s.wires := rfl
@[simp] theorem putSale_sent (n : Nat) (x : Sale) (s : State) : (putSale n x s).sent = s.sent := rfl
@[simp] theorem putSale_draws (n : Nat) (x : Sale) (s : State) : (putSale n x s).draws = s.draws := rfl
@[simp] theorem putSale_pending (n : Nat) (x : Sale) (s : State) : (putSale n x s).pending = s.pending := rfl

/-! ### putVoucher -/

@[simp] theorem putVoucher_screenings (n : Nat) (x : Voucher) (s : State) : (putVoucher n x s).screenings = s.screenings := rfl
@[simp] theorem putVoucher_holds (n : Nat) (x : Voucher) (s : State) : (putVoucher n x s).holds = s.holds := rfl
@[simp] theorem putVoucher_baskets (n : Nat) (x : Voucher) (s : State) : (putVoucher n x s).baskets = s.baskets := rfl
@[simp] theorem putVoucher_tariff (n : Nat) (x : Voucher) (s : State) : (putVoucher n x s).tariff = s.tariff := rfl
@[simp] theorem putVoucher_tariffId (n : Nat) (x : Voucher) (s : State) : (putVoucher n x s).tariffId = s.tariffId := rfl
@[simp] theorem putVoucher_pays (n : Nat) (x : Voucher) (s : State) : (putVoucher n x s).pays = s.pays := rfl
@[simp] theorem putVoucher_sales (n : Nat) (x : Voucher) (s : State) : (putVoucher n x s).sales = s.sales := rfl
@[simp] theorem putVoucher_salesReserved (n : Nat) (x : Voucher) (s : State) : (putVoucher n x s).salesReserved = s.salesReserved := rfl
@[simp] theorem putVoucher_nextSale (n : Nat) (x : Voucher) (s : State) : (putVoucher n x s).nextSale = s.nextSale := rfl
@[simp] theorem putVoucher_journal (n : Nat) (x : Voucher) (s : State) : (putVoucher n x s).journal = s.journal := rfl
@[simp] theorem putVoucher_journalReserved (n : Nat) (x : Voucher) (s : State) : (putVoucher n x s).journalReserved = s.journalReserved := rfl
@[simp] theorem putVoucher_nextSeq (n : Nat) (x : Voucher) (s : State) : (putVoucher n x s).nextSeq = s.nextSeq := rfl
@[simp] theorem putVoucher_journalArmed (n : Nat) (x : Voucher) (s : State) : (putVoucher n x s).journalArmed = s.journalArmed := rfl
@[simp] theorem putVoucher_lanes (n : Nat) (x : Voucher) (s : State) : (putVoucher n x s).lanes = s.lanes := rfl
@[simp] theorem putVoucher_mover (n : Nat) (x : Voucher) (s : State) : (putVoucher n x s).mover = s.mover := rfl
@[simp] theorem putVoucher_items (n : Nat) (x : Voucher) (s : State) : (putVoucher n x s).items = s.items := rfl
@[simp] theorem putVoucher_vouchers (n : Nat) (x : Voucher) (s : State) : (putVoucher n x s).vouchers = s.vouchers.put n x := rfl
@[simp] theorem putVoucher_nextSerial (n : Nat) (x : Voucher) (s : State) : (putVoucher n x s).nextSerial = s.nextSerial := rfl
@[simp] theorem putVoucher_seed (n : Nat) (x : Voucher) (s : State) : (putVoucher n x s).seed = s.seed := rfl
@[simp] theorem putVoucher_stations (n : Nat) (x : Voucher) (s : State) : (putVoucher n x s).stations = s.stations := rfl
@[simp] theorem putVoucher_limits (n : Nat) (x : Voucher) (s : State) : (putVoucher n x s).limits = s.limits := rfl
@[simp] theorem putVoucher_requests (n : Nat) (x : Voucher) (s : State) : (putVoucher n x s).requests = s.requests := rfl
@[simp] theorem putVoucher_lines (n : Nat) (x : Voucher) (s : State) : (putVoucher n x s).lines = s.lines := rfl
@[simp] theorem putVoucher_timeBase (n : Nat) (x : Voucher) (s : State) : (putVoucher n x s).timeBase = s.timeBase := rfl
@[simp] theorem putVoucher_wires (n : Nat) (x : Voucher) (s : State) : (putVoucher n x s).wires = s.wires := rfl
@[simp] theorem putVoucher_sent (n : Nat) (x : Voucher) (s : State) : (putVoucher n x s).sent = s.sent := rfl
@[simp] theorem putVoucher_draws (n : Nat) (x : Voucher) (s : State) : (putVoucher n x s).draws = s.draws := rfl
@[simp] theorem putVoucher_pending (n : Nat) (x : Voucher) (s : State) : (putVoucher n x s).pending = s.pending := rfl

/-! ### setItem, emit and the records of one line -/

@[simp] theorem setItem_screenings (code : Nat) (x : Item) (s : State) : (setItem code x s).screenings = s.screenings := by
  unfold setItem; split <;> rfl
@[simp] theorem setItem_holds (code : Nat) (x : Item) (s : State) : (setItem code x s).holds = s.holds := by
  unfold setItem; split <;> rfl
@[simp] theorem setItem_baskets (code : Nat) (x : Item) (s : State) : (setItem code x s).baskets = s.baskets := by
  unfold setItem; split <;> rfl
@[simp] theorem setItem_tariff (code : Nat) (x : Item) (s : State) : (setItem code x s).tariff = s.tariff := by
  unfold setItem; split <;> rfl
@[simp] theorem setItem_tariffId (code : Nat) (x : Item) (s : State) : (setItem code x s).tariffId = s.tariffId := by
  unfold setItem; split <;> rfl
@[simp] theorem setItem_pays (code : Nat) (x : Item) (s : State) : (setItem code x s).pays = s.pays := by
  unfold setItem; split <;> rfl
@[simp] theorem setItem_sales (code : Nat) (x : Item) (s : State) : (setItem code x s).sales = s.sales := by
  unfold setItem; split <;> rfl
@[simp] theorem setItem_salesReserved (code : Nat) (x : Item) (s : State) : (setItem code x s).salesReserved = s.salesReserved := by
  unfold setItem; split <;> rfl
@[simp] theorem setItem_nextSale (code : Nat) (x : Item) (s : State) : (setItem code x s).nextSale = s.nextSale := by
  unfold setItem; split <;> rfl
@[simp] theorem setItem_journal (code : Nat) (x : Item) (s : State) : (setItem code x s).journal = s.journal := by
  unfold setItem; split <;> rfl
@[simp] theorem setItem_journalReserved (code : Nat) (x : Item) (s : State) : (setItem code x s).journalReserved = s.journalReserved := by
  unfold setItem; split <;> rfl
@[simp] theorem setItem_nextSeq (code : Nat) (x : Item) (s : State) : (setItem code x s).nextSeq = s.nextSeq := by
  unfold setItem; split <;> rfl
@[simp] theorem setItem_journalArmed (code : Nat) (x : Item) (s : State) : (setItem code x s).journalArmed = s.journalArmed := by
  unfold setItem; split <;> rfl
@[simp] theorem setItem_lanes (code : Nat) (x : Item) (s : State) : (setItem code x s).lanes = s.lanes := by
  unfold setItem; split <;> rfl
@[simp] theorem setItem_mover (code : Nat) (x : Item) (s : State) : (setItem code x s).mover = s.mover := by
  unfold setItem; split <;> rfl
@[simp] theorem setItem_vouchers (code : Nat) (x : Item) (s : State) : (setItem code x s).vouchers = s.vouchers := by
  unfold setItem; split <;> rfl
@[simp] theorem setItem_nextSerial (code : Nat) (x : Item) (s : State) : (setItem code x s).nextSerial = s.nextSerial := by
  unfold setItem; split <;> rfl
@[simp] theorem setItem_seed (code : Nat) (x : Item) (s : State) : (setItem code x s).seed = s.seed := by
  unfold setItem; split <;> rfl
@[simp] theorem setItem_stations (code : Nat) (x : Item) (s : State) : (setItem code x s).stations = s.stations := by
  unfold setItem; split <;> rfl
@[simp] theorem setItem_limits (code : Nat) (x : Item) (s : State) : (setItem code x s).limits = s.limits := by
  unfold setItem; split <;> rfl
@[simp] theorem setItem_requests (code : Nat) (x : Item) (s : State) : (setItem code x s).requests = s.requests := by
  unfold setItem; split <;> rfl
@[simp] theorem setItem_lines (code : Nat) (x : Item) (s : State) : (setItem code x s).lines = s.lines := by
  unfold setItem; split <;> rfl
@[simp] theorem setItem_timeBase (code : Nat) (x : Item) (s : State) : (setItem code x s).timeBase = s.timeBase := by
  unfold setItem; split <;> rfl
@[simp] theorem setItem_wires (code : Nat) (x : Item) (s : State) : (setItem code x s).wires = s.wires := by
  unfold setItem; split <;> rfl
@[simp] theorem setItem_sent (code : Nat) (x : Item) (s : State) : (setItem code x s).sent = s.sent := by
  unfold setItem; split <;> rfl
@[simp] theorem setItem_draws (code : Nat) (x : Item) (s : State) : (setItem code x s).draws = s.draws := by
  unfold setItem; split <;> rfl
@[simp] theorem setItem_pending (code : Nat) (x : Item) (s : State) : (setItem code x s).pending = s.pending := by
  unfold setItem; split <;> rfl
@[simp] theorem emit_screenings (l : Line) (r : OutRec) (s : State) : (emit l r s).screenings = s.screenings := by
  unfold emit; split <;> rfl
@[simp] theorem emit_holds (l : Line) (r : OutRec) (s : State) : (emit l r s).holds = s.holds := by
  unfold emit; split <;> rfl
@[simp] theorem emit_baskets (l : Line) (r : OutRec) (s : State) : (emit l r s).baskets = s.baskets := by
  unfold emit; split <;> rfl
@[simp] theorem emit_tariff (l : Line) (r : OutRec) (s : State) : (emit l r s).tariff = s.tariff := by
  unfold emit; split <;> rfl
@[simp] theorem emit_tariffId (l : Line) (r : OutRec) (s : State) : (emit l r s).tariffId = s.tariffId := by
  unfold emit; split <;> rfl
@[simp] theorem emit_pays (l : Line) (r : OutRec) (s : State) : (emit l r s).pays = s.pays := by
  unfold emit; split <;> rfl
@[simp] theorem emit_sales (l : Line) (r : OutRec) (s : State) : (emit l r s).sales = s.sales := by
  unfold emit; split <;> rfl
@[simp] theorem emit_salesReserved (l : Line) (r : OutRec) (s : State) : (emit l r s).salesReserved = s.salesReserved := by
  unfold emit; split <;> rfl
@[simp] theorem emit_nextSale (l : Line) (r : OutRec) (s : State) : (emit l r s).nextSale = s.nextSale := by
  unfold emit; split <;> rfl
@[simp] theorem emit_journal (l : Line) (r : OutRec) (s : State) : (emit l r s).journal = s.journal := by
  unfold emit; split <;> rfl
@[simp] theorem emit_journalReserved (l : Line) (r : OutRec) (s : State) : (emit l r s).journalReserved = s.journalReserved := by
  unfold emit; split <;> rfl
@[simp] theorem emit_nextSeq (l : Line) (r : OutRec) (s : State) : (emit l r s).nextSeq = s.nextSeq := by
  unfold emit; split <;> rfl
@[simp] theorem emit_journalArmed (l : Line) (r : OutRec) (s : State) : (emit l r s).journalArmed = s.journalArmed := by
  unfold emit; split <;> rfl
@[simp] theorem emit_lanes (l : Line) (r : OutRec) (s : State) : (emit l r s).lanes = s.lanes := by
  unfold emit; split <;> rfl
@[simp] theorem emit_mover (l : Line) (r : OutRec) (s : State) : (emit l r s).mover = s.mover := by
  unfold emit; split <;> rfl
@[simp] theorem emit_items (l : Line) (r : OutRec) (s : State) : (emit l r s).items = s.items := by
  unfold emit; split <;> rfl
@[simp] theorem emit_vouchers (l : Line) (r : OutRec) (s : State) : (emit l r s).vouchers = s.vouchers := by
  unfold emit; split <;> rfl
@[simp] theorem emit_nextSerial (l : Line) (r : OutRec) (s : State) : (emit l r s).nextSerial = s.nextSerial := by
  unfold emit; split <;> rfl
@[simp] theorem emit_seed (l : Line) (r : OutRec) (s : State) : (emit l r s).seed = s.seed := by
  unfold emit; split <;> rfl
@[simp] theorem emit_stations (l : Line) (r : OutRec) (s : State) : (emit l r s).stations = s.stations := by
  unfold emit; split <;> rfl
@[simp] theorem emit_limits (l : Line) (r : OutRec) (s : State) : (emit l r s).limits = s.limits := by
  unfold emit; split <;> rfl
@[simp] theorem emit_requests (l : Line) (r : OutRec) (s : State) : (emit l r s).requests = s.requests := by
  unfold emit; split <;> rfl
@[simp] theorem emit_timeBase (l : Line) (r : OutRec) (s : State) : (emit l r s).timeBase = s.timeBase := by
  unfold emit; split <;> rfl
@[simp] theorem emit_wires (l : Line) (r : OutRec) (s : State) : (emit l r s).wires = s.wires := by
  unfold emit; split <;> rfl
@[simp] theorem emit_sent (l : Line) (r : OutRec) (s : State) : (emit l r s).sent = s.sent := by
  unfold emit; split <;> rfl
@[simp] theorem emit_draws (l : Line) (r : OutRec) (s : State) : (emit l r s).draws = s.draws := by
  unfold emit; split <;> rfl
@[simp] theorem emit_pending (l : Line) (r : OutRec) (s : State) : (emit l r s).pending = s.pending := by
  unfold emit; split <;> rfl

end Sys2Proof.Machine
end

