-- ==== Sys2Proof/Laws/Table.lean ====
section
/-! SUPPORT. Keyed tables: what find answers after put and del, and that both keep the canonical form. -/

namespace Sys2Proof

variable {α : Type}

@[simp] theorem Tbl.find_nil (n : Nat) : Tbl.find ([] : Tbl α) n = none := rfl

@[simp] theorem Tbl.find_put_self (t : Tbl α) (n : Nat) (v : α) : Tbl.find (Tbl.put t n v) n = some v := by
  induction t with
  | nil => simp [Tbl.put, Tbl.find]
  | cons e t ih =>
    obtain ⟨k, w⟩ := e
    simp only [Tbl.put]
    split
    · simp [Tbl.find]
    · split
      · simp [Tbl.find]
      · next h => simp [Tbl.find, ih, Ne.symm h]

theorem Tbl.find_put_of_ne (t : Tbl α) {m n : Nat} (h : m ≠ n) (v : α) : Tbl.find (Tbl.put t n v) m = Tbl.find t m := by
  induction t with
  | nil => simp [Tbl.put, Tbl.find, Ne.symm h]
  | cons e t ih =>
    obtain ⟨k, w⟩ := e
    simp only [Tbl.put]
    split
    · simp [Tbl.find, Ne.symm h]
    · split
      · next hk => subst hk; simp [Tbl.find, Ne.symm h]
      · simp [Tbl.find, ih]

@[simp] theorem Tbl.find_del_self (t : Tbl α) (n : Nat) : Tbl.find (Tbl.del t n) n = none := by
  induction t with
  | nil => rfl
  | cons e t ih =>
    obtain ⟨k, w⟩ := e
    by_cases h : k = n <;> simp_all [Tbl.del, Tbl.find]

theorem Tbl.find_del_of_ne (t : Tbl α) {m n : Nat} (h : m ≠ n) : Tbl.find (Tbl.del t n) m = Tbl.find t m := by
  induction t with
  | nil => rfl
  | cons e t ih =>
    obtain ⟨k, w⟩ := e
    by_cases hk : k = n
    · subst hk; simp_all [Tbl.del, Tbl.find, Ne.symm h]
    · simp_all [Tbl.del, Tbl.find]

theorem Tbl.find_mem {t : Tbl α} {n : Nat} {v : α} (h : Tbl.find t n = some v) : (n, v) ∈ t := by
  induction t with
  | nil => simp at h
  | cons e t ih =>
    obtain ⟨k, w⟩ := e
    by_cases hk : k = n
    · simp_all [Tbl.find]
    · simp [Tbl.find, hk] at h; exact List.mem_cons_of_mem _ (ih h)

theorem Tbl.mem_put {t : Tbl α} {n : Nat} {v : α} {e : Nat × α} (h : e ∈ Tbl.put t n v) : e = (n, v) ∨ e ∈ t := by
  induction t with
  | nil => simp [Tbl.put] at h; exact .inl h
  | cons a t ih =>
    obtain ⟨k, w⟩ := a
    simp only [Tbl.put] at h
    split at h
    · simpa using h
    · split at h
      · rcases List.mem_cons.mp h with h | h
        · exact .inl h
        · exact .inr (List.mem_cons_of_mem _ h)
      · rcases List.mem_cons.mp h with h | h
        · exact .inr (h ▸ List.mem_cons_self ..)
        · exact (ih h).imp id (List.mem_cons_of_mem _)

@[simp] theorem Tbl.wf_nil : Tbl.wf ([] : Tbl α) = true := rfl

theorem Tbl.wf_iff (t : Tbl α) : t.wf = true ↔ t.Pairwise (fun a b => a.1 < b.1) := by simp [Tbl.wf]

theorem Tbl.wf_put {t : Tbl α} (h : t.wf = true) (n : Nat) (v : α) : (Tbl.put t n v).wf = true := by
  rw [Tbl.wf_iff] at *
  induction t with
  | nil => simp [Tbl.put]
  | cons e t ih =>
    obtain ⟨k, w⟩ := e
    rw [List.pairwise_cons] at h
    simp only [Tbl.put]
    split
    · next hn =>
      refine List.pairwise_cons.mpr ⟨fun b hb => ?_, List.pairwise_cons.mpr h⟩
      rcases List.mem_cons.mp hb with rfl | hb
      · exact hn
      · exact lt_trans hn (h.1 b hb)
    · split
      · next hk => subst hk; exact List.pairwise_cons.mpr ⟨h.1, h.2⟩
      · next h1 h2 =>
        refine List.pairwise_cons.mpr ⟨fun b hb => ?_, ih h.2⟩
        rcases Tbl.mem_put hb with rfl | hb
        · show k < n; omega
        · exact h.1 b hb

theorem Tbl.wf_filter {t : Tbl α} (h : t.wf = true) (p : Nat × α → Bool) : Tbl.wf (t.filter p) = true := by
  rw [Tbl.wf_iff] at *
  exact h.filter _

theorem Tbl.wf_del {t : Tbl α} (h : t.wf = true) (n : Nat) : (Tbl.del t n).wf = true := Tbl.wf_filter h _

theorem Tbl.wf_map {t : Tbl α} (h : t.wf = true) (f : Nat × α → Nat × α) (hf : ∀ e, (f e).1 = e.1) :
    Tbl.wf (t.map f) = true := by
  rw [Tbl.wf_iff] at *
  exact List.pairwise_map.mpr (h.imp (by simp [hf]))

/-- A record put under a number that is in use takes the place of the one there. -/
theorem Tbl.length_put_of_find {t : Tbl α} (h : t.wf = true) {n : Nat} {w : α} (hf : Tbl.find t n = some w) (v : α) :
    (Tbl.put t n v).length = t.length := by
  rw [Tbl.wf_iff] at h
  induction t with
  | nil => simp at hf
  | cons e t ih =>
    obtain ⟨k, u⟩ := e
    rw [List.pairwise_cons] at h
    by_cases hk : k = n
    · subst hk; simp [Tbl.put]
    · simp [Tbl.find, hk] at hf
      have hlt : k < n := h.1 _ (Tbl.find_mem hf)
      simp [Tbl.put, show ¬ n < k by omega, Ne.symm hk, ih h.2 hf]

theorem Tbl.length_put_le (t : Tbl α) (n : Nat) (v : α) : (Tbl.put t n v).length ≤ t.length + 1 := by
  induction t with
  | nil => simp [Tbl.put]
  | cons e t ih =>
    simp only [Tbl.put]
    split
    · simp
    · split <;> simp_all

end Sys2Proof
end

