-- ==== Sys2Proof/Laws/Ops.lean ====
section
/-! SUPPORT. What each shared operation does and leaves: registers read after an update, records put out, and one frame lemma per
operation, which writes its result as the state before with the fields it can change. -/

namespace Sys2Proof

theorem Line.idx_injective : Function.Injective Line.idx := by
  intro a b h
  have h := congrArg Fin.val h
  cases a <;> cases b <;> simp only [Line.idx, Fin.val_zero, Line.station.injEq, Line.terminal.injEq, Line.printer.injEq] at h ⊢ <;>
    first | omega | (apply Fin.ext; omega)

theorem Line.idx_ne {a b : Line} (h : a ≠ b) : a.idx ≠ b.idx := fun e => h (Line.idx_injective e)

namespace Machine

/-! ### Registers after an update -/

@[simp] theorem basket_setBasket (st : Station) (b : Basket) (s : State) : (setBasket st b s).basket st = b := by
  simp [State.basket]

theorem basket_setBasket_ne {st st' : Station} (h : st' ≠ st) (b : Basket) (s : State) :
    (setBasket st b s).basket st' = s.basket st' := by
  simp only [State.basket, setBasket_baskets, Fin.getElem_fin]
  exact Vector.getElem_set_ne _ _ (by intro e; exact h (Fin.ext e.symm))

@[simp] theorem pay_setPay (st : Station) (p : PayContext) (s : State) : (setPay st p s).pay st = p := by simp [State.pay]

@[simp] theorem payment_setPayment (st : Station) (p : Option Payment) (s : State) : (setPayment st p s).payment st = p := by
  simp [State.payment, State.pay]

theorem pay_setPayment_ne {st st' : Station} (h : st' ≠ st) (p : Option Payment) (s : State) :
    (setPayment st p s).pay st' = s.pay st' := by
  simp only [State.pay, setPayment_pays, Fin.getElem_fin]
  exact Vector.getElem_set_ne _ _ (by intro e; exact h (Fin.ext e.symm))

@[simp] theorem lane_setLane (st : Station) (l : Lane) (s : State) : (setLane st l s).lane st = l := by simp [State.lane]

theorem lane_setLane_ne {st st' : Station} (h : st' ≠ st) (l : Lane) (s : State) : (setLane st l s).lane st' = s.lane st' := by
  simp only [State.lane, setLane_lanes, Fin.getElem_fin]
  exact Vector.getElem_set_ne _ _ (by intro e; exact h (Fin.ext e.symm))

@[simp] theorem request_setRequest (st : Station) (r : Option Request) (s : State) : (setRequest st r s).request st = r := by
  simp [State.request]

theorem request_setRequest_ne {st st' : Station} (h : st' ≠ st) (r : Option Request) (s : State) :
    (setRequest st r s).request st' = s.request st' := by
  simp only [State.request, setRequest_requests, Fin.getElem_fin]
  exact Vector.getElem_set_ne _ _ (by intro e; exact h (Fin.ext e.symm))

@[simp] theorem line_setLine (l : Line) (r : LineRec) (s : State) : (setLine l r s).line l = r := by simp [State.line]

theorem line_setLine_ne {l m : Line} (h : m ≠ l) (r : LineRec) (s : State) : (setLine l r s).line m = s.line m := by
  simp only [State.line, setLine_lines, Fin.getElem_fin]
  exact Vector.getElem_set_ne _ _ (by intro e; exact Line.idx_ne h (Fin.ext e.symm))

@[simp] theorem wire_setWire (l : Line) (w : List WireByte) (s : State) : (setWire l w s).wire l = w := by simp [State.wire]

theorem wire_setWire_ne {l m : Line} (h : m ≠ l) (w : List WireByte) (s : State) : (setWire l w s).wire m = s.wire m := by
  simp only [State.wire, setWire_wires, Fin.getElem_fin]
  exact Vector.getElem_set_ne _ _ (by intro e; exact Line.idx_ne h (Fin.ext e.symm))

@[simp] theorem sentOn_setSent (l : Line) (fs : List (List Byte)) (s : State) : (setSent l fs s).sentOn l = fs := by
  simp [State.sentOn]

theorem sentOn_setSent_ne {l m : Line} (h : m ≠ l) (fs : List (List Byte)) (s : State) :
    (setSent l fs s).sentOn m = s.sentOn m := by
  simp only [State.sentOn, setSent_sent, Fin.getElem_fin]
  exact Vector.getElem_set_ne _ _ (by intro e; exact Line.idx_ne h (Fin.ext e.symm))

@[simp] theorem screening_putScreening (slot : Nat) (x : Screening) (s : State) :
    (putScreening slot x s).screening slot = some x := by simp [State.screening]

@[simp] theorem hold_putHold (n : Nat) (x : Hold) (s : State) : (putHold n x s).hold n = some x := by simp [State.hold]

theorem hold_putHold_ne {m n : Nat} (h : m ≠ n) (x : Hold) (s : State) : (putHold n x s).hold m = s.hold m := by
  simp [State.hold, Tbl.find_put_of_ne _ h]

@[simp] theorem hold_delHold (n : Nat) (s : State) : (delHold n s).hold n = none := by simp [State.hold]

theorem hold_delHold_ne {m n : Nat} (h : m ≠ n) (s : State) : (delHold n s).hold m = s.hold m := by
  simp [State.hold, Tbl.find_del_of_ne _ h]

@[simp] theorem sale_putSale (n : Nat) (x : Sale) (s : State) : (putSale n x s).sale n = some x := by simp [State.sale]

theorem sale_putSale_ne {m n : Nat} (h : m ≠ n) (x : Sale) (s : State) : (putSale n x s).sale m = s.sale m := by
  simp [State.sale, Tbl.find_put_of_ne _ h]

@[simp] theorem voucher_putVoucher (n : Nat) (x : Voucher) (s : State) : (putVoucher n x s).voucher n = some x := by
  simp [State.voucher]

theorem voucher_putVoucher_ne {m n : Nat} (h : m ≠ n) (x : Voucher) (s : State) :
    (putVoucher n x s).voucher m = s.voucher m := by
  simp [State.voucher, Tbl.find_put_of_ne _ h]

theorem item_setItem {code : Nat} (h : 1 ≤ code ∧ code ≤ 24) (x : Item) (s : State) : (setItem code x s).item code = some x := by
  simp [State.item, setItem, h]

theorem item_setItem_ne {c code : Nat} (hc : c ≠ code) (x : Item) (s : State) : (setItem code x s).item c = s.item c := by
  unfold State.item setItem
  split
  · next h =>
    split
    · next h' => simp [show ¬ (code - 1 = c - 1) by omega]
    · rfl
  · rfl

/-! ### Records put out (R184) -/

theorem emit_of_lost {l : Line} {s : State} (h : s.isLost l = true) (r : OutRec) : emit l r s = s := by simp [emit, h]

theorem emit_of_up {l : Line} {s : State} (h : s.isLost l = false) (r : OutRec) :
    emit l r s = setLine l { s.line l with out := (s.line l).out ++ [r] } s := by simp [emit, h, modifyLine]

theorem line_emit_ne {l m : Line} (h : m ≠ l) (r : OutRec) (s : State) : (emit l r s).line m = s.line m := by
  unfold emit; split
  · rfl
  · exact line_setLine_ne h _ _

@[simp] theorem state_line_emit (l m : Line) (r : OutRec) (s : State) : ((emit l r s).line m).state = (s.line m).state := by
  by_cases h : m = l
  · subst h; unfold emit; split
    · rfl
    · simp [modifyLine]
  · rw [line_emit_ne h]

@[simp] theorem isLost_emit (l m : Line) (r : OutRec) (s : State) : (emit l r s).isLost m = s.isLost m := by
  simp [State.isLost]

@[simp] theorem errors_line_emit (l m : Line) (r : OutRec) (s : State) : ((emit l r s).line m).errors = (s.line m).errors := by
  by_cases h : m = l
  · subst h; unfold emit; split
    · rfl
    · simp [modifyLine]
  · rw [line_emit_ne h]

theorem out_emit {l : Line} {s : State} (h : s.isLost l = false) (r : OutRec) :
    ((emit l r s).line l).out = (s.line l).out ++ [r] := by rw [emit_of_up h]; simp

/-- A record put out reaches the lines alone. -/
theorem emit_frame (l : Line) (r : OutRec) (s : State) : emit l r s = { s with lines := (emit l r s).lines } := by
  unfold emit; split <;> rfl

/-! ### Folds -/

/-- What each step of a fold leaves, the fold leaves. -/
theorem foldl_keeps {α β : Type} (f : State → β) (op : State → α → State) (h : ∀ s a, f (op s a) = f s) (l : List α) (s : State) :
    f (l.foldl op s) = f s := by
  induction l generalizing s with
  | nil => rfl
  | cons a t ih => rw [List.foldl_cons, ih, h]

/-- What each step of a fold preserves, the fold preserves. -/
theorem foldl_preserves {α : Type} (P : State → Prop) (op : State → α → State) (h : ∀ s a, P s → P (op s a)) (l : List α)
    (s : State) (hs : P s) : P (l.foldl op s) := by
  induction l generalizing s with
  | nil => exact hs
  | cons a t ih => exact ih _ (h _ _ hs)

/-! ### Frames of the shared operations -/

theorem mapSeats_frame (slot : Nat) (ps : List SeatPos) (f : Seat → Seat) (s : State) :
    mapSeats slot ps f s = { s with screenings := (mapSeats slot ps f s).screenings } := by
  unfold mapSeats; split <;> rfl

theorem modifySale_frame (n : Nat) (f : Sale → Sale) (s : State) : modifySale n f s = { s with sales := (modifySale n f s).sales } := by
  unfold modifySale; split <;> rfl

theorem modifyVoucher_frame (n : Nat) (f : Voucher → Voucher) (s : State) :
    modifyVoucher n f s = { s with vouchers := (modifyVoucher n f s).vouchers } := by
  unfold modifyVoucher; split <;> rfl

theorem setItem_frame (code : Nat) (x : Item) (s : State) : setItem code x s = { s with items := (setItem code x s).items } := by
  unfold setItem; split <;> rfl

theorem modifyItem_frame (code : Nat) (f : Item → Item) (s : State) :
    modifyItem code f s = { s with items := (modifyItem code f s).items } := by
  unfold modifyItem; split
  · exact setItem_frame ..
  · rfl

theorem judgeLow_frame (code : Nat) (s : State) :
    judgeLow code s = { s with items := (judgeLow code s).items, lines := (judgeLow code s).lines } := by
  unfold judgeLow; split
  · rfl
  · split
    · split
      · rw [emit_frame, setItem_frame]
      · rfl
    · rw [setItem_frame]

theorem item_code_range {s : State} {code : Nat} {x : Item} (h : s.item code = some x) : 1 ≤ code ∧ code ≤ 24 := by
  unfold State.item at h
  split at h
  · assumption
  · cases h

theorem item_modifyItem (code k : Nat) (f : Item → Item) (s : State) :
    (modifyItem code f s).item k = if k = code then (s.item k).map f else s.item k := by
  unfold modifyItem
  split
  · next x hx =>
    split
    · next e => subst e; rw [item_setItem (item_code_range hx), hx]; rfl
    · next e => exact item_setItem_ne e _ _
  · next hx =>
    split
    · next e => subst e; rw [hx]; rfl
    · rfl

/-- What the judging of a low notice leaves of the items: the armed flag says whether the item lies above its low mark. -/
theorem item_judgeLow (code k : Nat) (s : State) : (judgeLow code s).item k =
    if k = code then (s.item k).map (fun i => { i with armed := decide (i.lowMark < i.available) }) else s.item k := by
  have set (x : Item) (hx : s.item code = some x) (b : Bool) : (setItem code { x with armed := b } s).item k =
      if k = code then (s.item k).map (fun i => { i with armed := b }) else s.item k := by
    split
    · next e => subst e; rw [item_setItem (item_code_range hx), hx]; rfl
    · next e => exact item_setItem_ne e _ _
  unfold judgeLow
  split
  · next hx =>
    split
    · next e => subst e; rw [hx]; rfl
    · rfl
  · next x hx =>
    split
    · next hle =>
      split
      · rw [emit_frame]
        refine (set x hx false).trans ?_
        split
        · next e => subst e; rw [hx]; simp [Nat.not_lt.mpr hle]
        · rfl
      · next ha =>
        split
        · next e =>
          subst e
          rw [hx]
          have : x.armed = false := by simpa using ha
          simp [Nat.not_lt.mpr hle, ← this]
        · rfl
    · next hlt =>
      refine (set x hx true).trans ?_
      split
      · next e => subst e; rw [hx]; simp [Nat.lt_of_not_le hlt]
      · rfl

theorem judgeJournal_frame (s : State) :
    judgeJournal s = { s with journalArmed := (judgeJournal s).journalArmed, lines := (judgeJournal s).lines } := by
  unfold judgeJournal; split
  · split
    · rw [emit_frame]
    · rfl
  · rfl

theorem releaseHold_frame (n : Nat) (s : State) :
    releaseHold n s = { s with holds := (releaseHold n s).holds, screenings := (releaseHold n s).screenings } := by
  unfold releaseHold; split
  · rw [mapSeats_frame]; rfl
  · rfl

theorem returnUnits_frame (code qty : Nat) (s : State) :
    returnUnits code qty s = { s with items := (returnUnits code qty s).items, lines := (returnUnits code qty s).lines } := by
  unfold returnUnits
  rw [judgeLow_frame, modifyItem_frame]

theorem reserveUnits_frame (code qty : Nat) (s : State) :
    reserveUnits code qty s = { s with items := (reserveUnits code qty s).items, lines := (reserveUnits code qty s).lines } := by
  unfold reserveUnits
  rw [judgeLow_frame, modifyItem_frame]

/-- A frame for a fold, from the frame of its step. -/
theorem foldl_frame {α : Type} (op : State → α → State) (up : State → State → State)
    (h : ∀ s a, up s (op s a) = op s a) (refl : ∀ s, up s s = s)
    (trans : ∀ s t u, up s t = t → up t u = u → up s u = u) (l : List α) (s : State) : up s (l.foldl op s) = l.foldl op s := by
  induction l generalizing s with
  | nil => exact refl s
  | cons a t ih => exact trans _ _ _ (h s a) (ih _)

/-- Emptying reaches the seats, holds, items, lines and the one basket (R58). -/
theorem emptyBasket_frame (st : Station) (s : State) :
    emptyBasket st s = { s with
      screenings := (emptyBasket st s).screenings, holds := (emptyBasket st s).holds, items := (emptyBasket st s).items,
      baskets := s.baskets.set st Basket.vacant, lines := (emptyBasket st s).lines } := by
  have h1 : ∀ (l : List Nat) (s : State), { s with
      holds := (l.foldl (fun s n => releaseHold n s) s).holds,
      screenings := (l.foldl (fun s n => releaseHold n s) s).screenings } = l.foldl (fun s n => releaseHold n s) s :=
    foldl_frame _ (fun s t => { s with holds := t.holds, screenings := t.screenings })
      (fun s n => (releaseHold_frame n s).symm) (fun _ => rfl) (by rintro s t u h1 h2; rw [← h2, ← h1])
  have h2 : ∀ (l : List SnackLine) (s : State), { s with
      items := (l.foldl (fun s x => returnUnits x.item x.qty s) s).items,
      lines := (l.foldl (fun s x => returnUnits x.item x.qty s) s).lines } = l.foldl (fun s x => returnUnits x.item x.qty s) s :=
    foldl_frame _ (fun s t => { s with items := t.items, lines := t.lines })
      (fun s x => (returnUnits_frame x.item x.qty s).symm) (fun _ => rfl) (by rintro s t u h1 h2; rw [← h2, ← h1])
  unfold emptyBasket
  dsimp only [setBasket]
  rw [← h2, ← h1]

/-- Past the link unit's checks the owning block acts (R182). -/
theorem stationRequest_of_takes {st : Station} {k : ReqKind} {s : State} (h : s.takes st k = true) (tag : Tag)
    (act : State → State) : stationRequest st tag k act s = act s := by
  unfold stationRequest
  simp only [State.takes, Bool.and_eq_true, Bool.or_eq_true, decide_eq_true_eq] at h
  cases hr : s.request st with
  | none => simp [h.2]
  | some r =>
    have : k = .status ∨ k = .cancelPay := by
      rcases h.1 with h | h
      · simp [hr] at h
      · exact h
    simp [this, h.2]

/-- A byte taken reaches its line and wire, the queue and the count of free values drawn alone. -/
theorem receiveByte_frame (l : Line) (s : State) :
    receiveByte l s = { s with
      lines := (receiveByte l s).lines, wires := (receiveByte l s).wires, draws := (receiveByte l s).draws,
      pending := (receiveByte l s).pending } := by
  unfold receiveByte; split <;> rfl

/-- An idle step reaches the clocks, the lines and wires, the queue and the count of free values drawn alone. -/
theorem idle_frame (s : State) :
    idle s = { s with
      timeBase := (idle s).timeBase, lines := (idle s).lines, wires := (idle s).wires, draws := (idle s).draws,
      pending := (idle s).pending } := by
  cases hd : firstDue (Config.dueRank s.draws) s.due with
  | some c => simp only [idle, hd]
  | none => cases hw : firstDue (Config.wireRank s.draws) (Line.all.filter s.byteArrived) with
    | some l =>
      have ht : (receiveByte l s).timeBase = s.timeBase := by unfold receiveByte; split <;> rfl
      simp only [idle, hd, hw, ht]; exact receiveByte_frame l s
    | none => simp only [idle, hd, hw, advance]

/-- What is taken first is one of those due. -/
theorem firstDue_mem {α : Type} (rank : α → Nat) {l : List α} {c : α} (h : firstDue rank l = some c) : c ∈ l := by
  induction l generalizing c with
  | nil => simp [firstDue] at h
  | cons a t ih =>
    simp only [firstDue] at h
    split at h
    · cases h; exact List.mem_cons_self ..
    · next d hd =>
      split at h <;> cases h
      · exact List.mem_cons_self ..
      · exact List.mem_cons_of_mem _ (ih hd)

theorem firstDue_none {α : Type} (rank : α → Nat) {l : List α} (h : firstDue rank l = none) : l = [] := by
  cases l with
  | nil => rfl
  | cons a t => simp only [firstDue] at h; split at h <;> cases h

end Machine

end Sys2Proof
end

