-- ==== Sys2Proof/Laws/Frames.lean ====
section
/-! SUPPORT. Frames of the operations that several commands share: payments, commits, refunds, loads, and printing.  Each is
written as the state before with the fields the operation can change.  The vouchers made and voided, and the counts of their items. -/

namespace Sys2Proof.Machine

/-! ### Payments -/

theorem setHoldPhases_frame (st : Station) (ph : HoldPhase) (s : State) :
    setHoldPhases st ph s = { s with holds := (setHoldPhases st ph s).holds } := by
  unfold setHoldPhases
  generalize (s.basket st).holds = l
  exact (foldl_frame _ (fun s t => { s with holds := t.holds }) (fun s n => by split <;> rfl) (fun _ => rfl)
    (by rintro s t u h1 h2; rw [← h2, ← h1]) l s).symm

/-- The holds of the basket's list take the phase; every other hold stays (R38). -/
theorem hold_setHoldPhases (st : Station) (ph : HoldPhase) (n : Nat) (s : State) :
    (setHoldPhases st ph s).hold n =
      if n ∈ (s.basket st).holds then (s.hold n).map (fun h => { h with phase := ph }) else s.hold n := by
  unfold setHoldPhases
  generalize (s.basket st).holds = l
  induction l generalizing s with
  | nil => simp
  | cons a t ih =>
    rw [List.foldl_cons, ih]
    by_cases ha : n = a
    · subst ha
      cases hh : s.hold n with
      | none => simp [hh]
      | some x => simp
    · cases hh : s.hold a with
      | none => simp [ha]
      | some x => simp [ha, hold_putHold_ne ha]

theorem appendJournal_frame (sale : Option Nat) (amount : Nat) (body : JournalBody) (s : State) :
    appendJournal sale amount body s = { s with
      journal := s.journal ++ [⟨s.nextSeq, s.timeBase, sale, amount, body⟩],
      nextSeq := succWrap Config.maxSequence s.nextSeq } := rfl

/-- A record written from a free entry (R122, R125). -/
theorem writeFree_frame (sale : Option Nat) (amount : Nat) (body : JournalBody) (s : State) :
    writeFree sale amount body s = { s with
      journal := s.journal ++ [⟨s.nextSeq, s.timeBase, sale, amount, body⟩],
      nextSeq := succWrap Config.maxSequence s.nextSeq,
      journalArmed := (writeFree sale amount body s).journalArmed, lines := (writeFree sale amount body s).lines } := by
  unfold writeFree; rw [judgeJournal_frame]; rfl

theorem releaseReservations_frame (st : Station) (p : Payment) (s : State) :
    releaseReservations st p s = { s with
      salesReserved := if p.resSale then s.salesReserved - 1 else s.salesReserved,
      lanes := s.lanes.set st { s.lane st with reservedRoom := (s.lane st).reservedRoom - p.resLane },
      journalReserved := if p.resJournal then s.journalReserved - 1 else s.journalReserved,
      journalArmed := (releaseReservations st p s).journalArmed, lines := (releaseReservations st p s).lines } := by
  unfold releaseReservations
  cases p.resSale <;> cases p.resJournal <;> simp only [Bool.false_eq_true, if_true, if_false] <;>
    first | rfl | (rw [judgeJournal_frame]; rfl)

/-- The end of a payment without a sale reaches no other basket (R62). -/
theorem settleBasket_frame (st : Station) (s : State) :
    settleBasket st s = { s with
      screenings := (settleBasket st s).screenings, holds := (settleBasket st s).holds, items := (settleBasket st s).items,
      baskets := s.baskets.set st ((settleBasket st s).basket st), lines := (settleBasket st s).lines } := by
  have same : s.baskets.set st (s.basket st) = s.baskets := by
    ext i hi; simp only [State.basket, Vector.getElem_set, Fin.getElem_fin]; split <;> simp_all
  have vacant : (emptyBasket st s).basket st = Basket.vacant := by rw [emptyBasket_frame]; simp [State.basket]
  unfold settleBasket
  dsimp only
  split
  · rw [emit_frame, emptyBasket_frame]
    simp [State.basket]
  · split
    · rw [emptyBasket_frame]; simp [State.basket]
    · split
      · rw [emit_frame]
        simp only [modifyBasket, setBasket]
        simp [State.basket]
      · simp [same]

theorem tellOutcome_frame (st : Station) (p : Payment) (o : Option PayOutcome) (s : State) :
    tellOutcome st p o s = { s with lines := (tellOutcome st p o s).lines } := by
  unfold tellOutcome; split
  · split
    · rfl
    · exact emit_frame _ _ _
  · rfl

theorem set_self {α : Type} {n : Nat} (v : Vector α n) (i : Fin n) : v.set i v[i] = v := by
  ext j hj; simp only [Vector.getElem_set, Fin.getElem_fin]; split <;> simp_all

theorem set_set {α : Type} {n : Nat} (v : Vector α n) (i : Fin n) (a b : α) : (v.set i a).set i b = v.set i b := by
  ext j hj; simp only [Vector.getElem_set]; split <;> rfl

/-- Every field that the end of a payment without a sale can change (R94). -/
theorem endWithoutSale_frame (st : Station) (p : Payment) (o : Option PayOutcome) (s : State) :
    endWithoutSale st p o s = { s with
      screenings := (endWithoutSale st p o s).screenings, holds := (endWithoutSale st p o s).holds,
      items := (endWithoutSale st p o s).items, baskets := s.baskets.set st ((endWithoutSale st p o s).basket st),
      salesReserved := if p.resSale then s.salesReserved - 1 else s.salesReserved,
      lanes := s.lanes.set st { s.lane st with reservedRoom := (s.lane st).reservedRoom - p.resLane },
      journalReserved := if p.resJournal then s.journalReserved - 1 else s.journalReserved,
      journalArmed := (endWithoutSale st p o s).journalArmed, pays := s.pays.set st { s.pay st with current := none },
      lines := (endWithoutSale st p o s).lines } := by
  unfold endWithoutSale
  dsimp only
  generalize h1 : releaseReservations st p s = s1
  generalize h2 : (if p.asked = true then modifyBasket st (fun b => { b with attempts := b.attempts + 1 }) s1 else s1) = s2
  generalize h3 : setHoldPhases st .standing s2 = s3
  generalize h4 : settleBasket st s3 = s4
  generalize h5 : tellOutcome st p o s4 = s5
  have e1 := releaseReservations_frame st p s
  have e2 : s2 = { s1 with baskets := s1.baskets.set st (s2.basket st) } := by
    subst h2; split
    · simp [modifyBasket, setBasket, State.basket]
    · simp [State.basket]
  have e3 := setHoldPhases_frame st .standing s2
  have e4 := settleBasket_frame st s3
  have e5 := tellOutcome_frame st p o s4
  rw [h1] at e1; rw [h3] at e3; rw [h4] at e4; rw [h5] at e5
  clear h1 h2 h3 h4 h5
  rw [e5, e4, e3, e2, e1]
  simp [setPayment, setPay, State.pay, State.basket]

theorem writeReserved_frame (sale : Option Nat) (amount : Nat) (body : JournalBody) (s : State) :
    writeReserved sale amount body s = { s with
      journal := s.journal ++ [⟨s.nextSeq, s.timeBase, sale, amount, body⟩],
      nextSeq := succWrap Config.maxSequence s.nextSeq, journalReserved := s.journalReserved - 1 } := rfl

/-- A REVERSAL record from the reserved entry, then the end without a sale (R103, R94). -/
theorem reverseAndEnd_frame (st : Station) (p : Payment) (confirmed : Bool) (reason : ReversalReason) (o : Option PayOutcome)
    (s : State) :
    reverseAndEnd st p confirmed reason o s = { s with
      screenings := (reverseAndEnd st p confirmed reason o s).screenings,
      holds := (reverseAndEnd st p confirmed reason o s).holds, items := (reverseAndEnd st p confirmed reason o s).items,
      baskets := s.baskets.set st ((reverseAndEnd st p confirmed reason o s).basket st),
      salesReserved := if p.resSale then s.salesReserved - 1 else s.salesReserved,
      lanes := s.lanes.set st { s.lane st with reservedRoom := (s.lane st).reservedRoom - p.resLane },
      journal := s.journal ++ [⟨s.nextSeq, s.timeBase, none, p.amount, .reversal st (s.saleRef st) confirmed reason p.auth⟩],
      nextSeq := succWrap Config.maxSequence s.nextSeq, journalReserved := s.journalReserved - 1,
      journalArmed := (reverseAndEnd st p confirmed reason o s).journalArmed,
      pays := s.pays.set st { s.pay st with current := none }, lines := (reverseAndEnd st p confirmed reason o s).lines } := by
  unfold reverseAndEnd
  dsimp only
  generalize h1 : writeReserved none p.amount (.reversal st (s.saleRef st) confirmed reason p.auth) s = s1
  generalize h2 : endWithoutSale st { p with resJournal := false } o s1 = s2
  have e2 := endWithoutSale_frame st { p with resJournal := false } o s1
  rw [h2] at e2
  subst h1
  rw [e2]
  simp [writeReserved, appendJournal, State.lane, State.pay, State.basket]

theorem answerPay_frame (st : Station) (c : Code) (vs : List Val) (s : State) :
    answerPay st c vs s = { s with
      requests := s.requests.set st none, lines := (answerPay st c vs s).lines } := by
  unfold answerPay
  split
  · dsimp only [setRequest, replyStation]; rw [emit_frame]
  · next h =>
    have : s.requests.set st none = s.requests := by
      have : s.requests[st] = none := h
      rw [← this]; exact set_self _ _
    rw [this]

/-- ABORT leaves the payment ABORTING (R90, R96, R98). -/
theorem sendAbort_frame (st : Station) (cause : AbortCause) (s : State) :
    sendAbort st cause s = { s with
      pays := s.pays.set st { s.pay st with current := (s.payment st).map (fun p =>
        { p with phase := .aborting, limit := none, cause := some cause, step := some ⟨s.timeBase, 10000⟩ }) },
      lines := (sendAbort st cause s).lines } := by
  unfold sendAbort; rw [emit_frame]; rfl

/-- The end of a capture for a sale that stands (R104). -/
theorem endCapture_of_sale {st : Station} {p : Payment} {n : Nat} {x : Sale} {s : State} (hp : p.sale = some n)
    (hx : s.sale n = some x) (c : CaptureState) :
    endCapture st p c s = setPayment st none
      (writeReserved (some n) x.total (saleEntry { x with capture := c }) (putSale n { x with capture := c } s)) := by
  unfold endCapture; simp [hp, hx]

/-! ### Printing -/

theorem SameBesidePrinting.refl (s : State) : SameBesidePrinting s s := rfl

theorem SameBesidePrinting.trans {s t u : State} (h1 : SameBesidePrinting s t) (h2 : SameBesidePrinting t u) :
    SameBesidePrinting s u := by
  unfold SameBesidePrinting at *; rw [h2, h1]

theorem sameBesidePrinting_emit (l : Line) (r : OutRec) (s : State) : SameBesidePrinting s (emit l r s) := by
  unfold SameBesidePrinting; rw [emit_frame]

theorem sameBesidePrinting_modifyLane (st : Station) (f : Lane → Lane) (s : State) :
    SameBesidePrinting s (modifyLane st f s) := rfl

theorem sameBesidePrinting_setMover (m : Mover) (s : State) : SameBesidePrinting s (setMover m s) := rfl

theorem sameBesidePrinting_mapSeats (slot : Nat) (ps : List SeatPos) (f : Seat → Seat) (s : State) :
    SameBesidePrinting s (mapSeats slot ps f s) := by
  unfold SameBesidePrinting; rw [mapSeats_frame]

theorem sameBesidePrinting_modifyVoucher (n : Nat) (f : Voucher → Voucher) (s : State) :
    SameBesidePrinting s (modifyVoucher n f s) := by
  unfold SameBesidePrinting; rw [modifyVoucher_frame]

theorem ordersEnded_frame (st : Station) (n k : Nat) (s : State) :
    ordersEnded st n k s = { s with sales := (ordersEnded st n k s).sales, lines := (ordersEnded st n k s).lines } := by
  unfold ordersEnded
  split
  · rfl
  · dsimp only
    split
    · unfold printDone; rw [emit_frame]; rfl
    · rfl

theorem sameBesidePrinting_ordersEnded (st : Station) (n k : Nat) (s : State) :
    SameBesidePrinting s (ordersEnded st n k s) := by
  unfold SameBesidePrinting; rw [ordersEnded_frame]

/-- A completion reaches the seats and vouchers alone (R155). -/
theorem completeSource_frame (o : Order) (s : State) :
    completeSource o s = { s with
      screenings := (completeSource o s).screenings, vouchers := (completeSource o s).vouchers } := by
  unfold completeSource
  split
  · split
    · rw [mapSeats_frame]
    · rw [modifyVoucher_frame]
    · rfl
  · rfl

/-- An uncertainty reaches the seats and vouchers alone (R156). -/
theorem unsureSource_frame (o : Order) (s : State) :
    unsureSource o s = { s with
      screenings := (unsureSource o s).screenings, vouchers := (unsureSource o s).vouchers } := by
  unfold unsureSource
  split
  · split
    · rw [mapSeats_frame]
    · rw [modifyVoucher_frame]
    · rfl
  · rfl

/-- A generation step reaches the seats and vouchers alone (R154). -/
theorem raiseGeneration_frame (o : Order) (s : State) :
    raiseGeneration o s = { s with
      screenings := (raiseGeneration o s).screenings, vouchers := (raiseGeneration o s).vouchers } := by
  unfold raiseGeneration
  split
  · rw [mapSeats_frame]
  · rw [modifyVoucher_frame]
  · rfl

theorem sameBesidePrinting_completeSource (o : Order) (s : State) : SameBesidePrinting s (completeSource o s) := by
  unfold SameBesidePrinting; rw [completeSource_frame]

theorem sameBesidePrinting_unsureSource (o : Order) (s : State) : SameBesidePrinting s (unsureSource o s) := by
  unfold SameBesidePrinting; rw [unsureSource_frame]

theorem sameBesidePrinting_raiseGeneration (o : Order) (s : State) : SameBesidePrinting s (raiseGeneration o s) := by
  unfold SameBesidePrinting; rw [raiseGeneration_frame]

theorem sameBesidePrinting_foldl {α : Type} (op : State → α → State) (h : ∀ s a, SameBesidePrinting s (op s a)) (l : List α)
    (s : State) : SameBesidePrinting s (l.foldl op s) := by
  induction l generalizing s with
  | nil => exact .refl s
  | cons a t ih => exact (h s a).trans (ih _)

theorem sameBesidePrinting_dropAtStart (st : Station) (o : Order) (reason : Option LimitReason) (s : State) :
    SameBesidePrinting s (dropAtStart st o reason s) := by
  unfold dropAtStart
  refine SameBesidePrinting.trans ?_ (sameBesidePrinting_ordersEnded ..)
  cases reason
  · exact sameBesidePrinting_modifyLane ..
  · exact (sameBesidePrinting_modifyLane ..).trans (sameBesidePrinting_emit ..)

theorem sameBesidePrinting_startOrder (st : Station) (o : Order) (s : State) : SameBesidePrinting s (startOrder st o s) := by
  unfold startOrder
  exact (sameBesidePrinting_raiseGeneration o s).trans (sameBesidePrinting_modifyLane ..)

theorem sameBesidePrinting_startNext (st : Station) : ∀ (fuel : Nat) (s : State), SameBesidePrinting s (startNext st fuel s).1
  | 0, s => .refl s
  | fuel + 1, s => by
    unfold startNext
    split
    · exact .refl s
    · split
      · exact (sameBesidePrinting_dropAtStart ..).trans (sameBesidePrinting_startNext st fuel _)
      · exact sameBesidePrinting_startOrder ..

theorem sameBesidePrinting_sendBurst (st : Station) (s : State) : SameBesidePrinting s (sendBurst st s) :=
  (sameBesidePrinting_foldl _ (fun s r => sameBesidePrinting_emit _ r s) _ s).trans (sameBesidePrinting_setMover ..)

theorem sameBesidePrinting_grant (st : Station) (s : State) : SameBesidePrinting s (grant st s).1 := by
  unfold grant
  split
  · exact sameBesidePrinting_sendBurst st s
  · dsimp only
    split
    · exact (sameBesidePrinting_startNext ..).trans (sameBesidePrinting_sendBurst ..)
    · exact sameBesidePrinting_startNext ..

theorem sameBesidePrinting_arbitrate (out : Option Station) : ∀ (fuel : Nat) (s : State),
    SameBesidePrinting s (arbitrate out fuel s)
  | 0, s => .refl s
  | fuel + 1, s => by
    unfold arbitrate
    split
    · exact .refl s
    · dsimp only
      split
      · exact sameBesidePrinting_grant ..
      · exact (sameBesidePrinting_grant ..).trans (sameBesidePrinting_arbitrate out fuel _)

theorem sameBesidePrinting_endBurst (out : Option Station) (s : State) : SameBesidePrinting s (endBurst out s) :=
  (sameBesidePrinting_setMover ..).trans (sameBesidePrinting_arbitrate ..)

theorem sameBesidePrinting_laneComes (st : Station) (s : State) : SameBesidePrinting s (laneComes st s) := by
  unfold laneComes
  split
  · dsimp only
    split
    · exact sameBesidePrinting_grant ..
    · exact (sameBesidePrinting_grant ..).trans (sameBesidePrinting_arbitrate ..)
  · exact .refl s

/-- While a burst is in flight no lane is granted (R133, R134). -/
theorem laneComes_of_burst {s : State} (h : s.mover.burst.isSome = true) (st : Station) : laneComes st s = s := by
  unfold laneComes
  cases hb : s.mover.burst with
  | none => rw [hb] at h; cases h
  | some b => rfl

theorem sameBesidePrinting_suspendLane (st : Station) (k : FaultKind) (s : State) :
    SameBesidePrinting s (suspendLane st k s) := by
  unfold suspendLane
  dsimp only
  have h : ∀ (l : List Order) (t : State), SameBesidePrinting s t →
      SameBesidePrinting s (printFault st k (l.foldl (fun s o => unsureSource o s) t)) := fun l t ht =>
    (ht.trans (sameBesidePrinting_foldl _ (fun s o => sameBesidePrinting_unsureSource o s) l t)).trans
      (sameBesidePrinting_emit ..)
  split
  · exact (h _ _ (sameBesidePrinting_modifyLane ..)).trans (sameBesidePrinting_endBurst ..)
  · exact h _ _ (sameBesidePrinting_modifyLane ..)

theorem sameBesidePrinting_laneFault (st : Station) (k : FaultKind) (s : State) : SameBesidePrinting s (laneFault st k s) := by
  unfold laneFault
  split
  · exact sameBesidePrinting_suspendLane ..
  · exact (sameBesidePrinting_modifyLane ..).trans (sameBesidePrinting_emit ..)

theorem sameBesidePrinting_resumeLane (st : Station) (k : FaultKind) (s : State) :
    SameBesidePrinting s (resumeLane st k s) := by
  unfold resumeLane
  dsimp only
  split
  · refine (sameBesidePrinting_modifyLane ..).trans (sameBesidePrinting_foldl _ ?_ _ _)
    exact fun s n => (sameBesidePrinting_emit ..).trans (sameBesidePrinting_ordersEnded ..)
  · exact sameBesidePrinting_modifyLane ..

/-! A grant of another lane leaves a lane as it is. -/

theorem lane_dropAtStart_ne {st m : Station} (h : m ≠ st) (o : Order) (reason : Option LimitReason) (s : State) :
    (dropAtStart st o reason s).lane m = s.lane m := by
  unfold dropAtStart
  rw [ordersEnded_frame]
  cases reason
  · exact lane_setLane_ne h _ _
  · dsimp only; rw [emit_frame]; exact lane_setLane_ne h _ _

theorem lane_startOrder_ne {st m : Station} (h : m ≠ st) (o : Order) (s : State) : (startOrder st o s).lane m = s.lane m := by
  unfold startOrder
  rw [raiseGeneration_frame]
  exact lane_setLane_ne h _ _

theorem lane_startNext_ne {st m : Station} (h : m ≠ st) : ∀ (fuel : Nat) (s : State), (startNext st fuel s).1.lane m = s.lane m
  | 0, _ => rfl
  | fuel + 1, s => by
    unfold startNext
    split
    · rfl
    · split
      · rw [lane_startNext_ne h fuel]; exact lane_dropAtStart_ne h ..
      · exact lane_startOrder_ne h ..

@[simp] theorem lanes_emit (l : Line) (r : OutRec) (s : State) : (emit l r s).lanes = s.lanes := by rw [emit_frame]

@[simp] theorem lanes_sendBurst (st : Station) (s : State) : (sendBurst st s).lanes = s.lanes :=
  foldl_keeps (·.lanes) _ (fun s r => lanes_emit _ r s) _ s

theorem lane_grant_ne {st m : Station} (h : m ≠ st) (s : State) : (grant st s).1.lane m = s.lane m := by
  unfold grant
  split
  · simp [State.lane]
  · dsimp only
    split
    · simp only [State.lane, lanes_sendBurst]; exact lane_startNext_ne h _ s
    · exact lane_startNext_ne h ..

theorem requesting_of_suspended {s : State} {st : Station} (h : (s.lane st).suspended.isSome = true) : s.requesting st = false := by
  have : s.laneState st = .suspended := by simp [State.laneState, h]
  simp [State.requesting, this]

theorem candidate_of_chosenLane {s : State} {out : Option Station} {st : Station} (h : s.chosenLane out = some st) :
    s.candidate out st = true := by
  unfold State.chosenLane at h
  dsimp only at h
  split at h
  · next m hm => cases h; exact (by simpa using List.find?_some hm : _ ∧ _).1
  · exact List.find?_some h

theorem requesting_of_chosenLane {s : State} {out : Option Station} {st : Station} (h : s.chosenLane out = some st) :
    s.requesting st = true :=
  (by simpa [State.candidate] using candidate_of_chosenLane h : _ ∧ _).1

theorem out_ne_of_chosenLane {s : State} {out : Option Station} {st : Station} (h : s.chosenLane out = some st) :
    out ≠ some st :=
  (by simpa [State.candidate] using candidate_of_chosenLane h : _ ∧ _).2

/-- The arbitration leaves the lane that has no part in it as it is (R136). -/
theorem lane_arbitrate_out (m : Station) : ∀ (fuel : Nat) (s : State), (arbitrate (some m) fuel s).lane m = s.lane m
  | 0, _ => rfl
  | fuel + 1, s => by
    unfold arbitrate
    split
    · rfl
    · next st hst =>
      have hl := lane_grant_ne (fun h => out_ne_of_chosenLane hst (congrArg some h) : m ≠ st) s
      dsimp only
      split
      · exact hl
      · rw [lane_arbitrate_out m fuel, hl]

/-- The arbitration leaves a SUSPENDED lane as it is (R133). -/
theorem lane_arbitrate_of_suspended {out : Option Station} {m : Station} : ∀ (fuel : Nat) (s : State),
    (s.lane m).suspended.isSome = true → (arbitrate out fuel s).lane m = s.lane m
  | 0, _, _ => rfl
  | fuel + 1, s, h => by
    unfold arbitrate
    split
    · rfl
    · next st hst =>
      have hne : m ≠ st := by
        rintro rfl
        have := requesting_of_chosenLane hst
        rw [requesting_of_suspended h] at this; cases this
      have hl := lane_grant_ne hne s
      dsimp only
      split
      · exact hl
      · rw [lane_arbitrate_of_suspended fuel _ (by rw [hl]; exact h), hl]

/-! ### Numbers given next (R110, R170) -/

theorem succWrap_range {hi n : Nat} (h : 1 ≤ hi) : 1 ≤ succWrap hi n ∧ succWrap hi n ≤ hi := by
  unfold succWrap; split <;> omega

theorem firstUnused_range (used : Nat → Bool) {hi : Nat} (h : 1 ≤ hi) : ∀ (fuel n : Nat), 1 ≤ n → n ≤ hi →
    1 ≤ firstUnused used hi fuel n ∧ firstUnused used hi fuel n ≤ hi
  | 0, n, h1, h2 => ⟨h1, h2⟩
  | fuel + 1, n, h1, h2 => by
    unfold firstUnused
    split
    · exact firstUnused_range used h fuel _ (succWrap_range h).1 (succWrap_range h).2
    · exact ⟨h1, h2⟩

/-- The number found is not used, unless each number examined is. -/
theorem firstUnused_unused (used : Nat → Bool) {hi : Nat} : ∀ (fuel n : Nat), 1 ≤ n → n ≤ hi →
    (∀ i < fuel, used ((n - 1 + i) % hi + 1) = true) ∨ used (firstUnused used hi fuel n) = false
  | 0, _, _, _ => .inl (fun _ h => absurd h (Nat.not_lt_zero _))
  | fuel + 1, n, h1, h2 => by
    unfold firstUnused
    split
    · next hu =>
      have hr := succWrap_range (n := n) (show 1 ≤ hi by omega)
      refine (firstUnused_unused used fuel _ hr.1 hr.2).imp (fun h i hi' => ?_) id
      cases i with
      | zero => simpa [Nat.mod_eq_of_lt (show n - 1 < hi by omega), Nat.sub_add_cancel h1] using hu
      | succ i =>
        have e : (succWrap hi n - 1 + i) % hi = (n - 1 + (i + 1)) % hi := by
          unfold succWrap
          split
          · congr 1; omega
          · have : n = hi := by omega
            subst this
            rw [show n - 1 + (i + 1) = i + n by omega, Nat.add_mod_right]; simp
        rw [← e]
        exact h i (by omega)
    · next hu => exact .inr (by simpa using hu)

theorem Tbl.mem_keys_of_find {α : Type} {t : Tbl α} {n : Nat} (h : (t.find n).isSome = true) : n ∈ t.map (·.1) := by
  obtain ⟨v, hv⟩ := Option.isSome_iff_exists.mp h
  exact List.mem_map.mpr ⟨_, Tbl.find_mem hv, rfl⟩

/-- A table with fewer records than numbers is given a number that is not in use. -/
theorem find_firstUnused {α : Type} {t : Tbl α} {hi n : Nat} (hl : t.length < hi) (h1 : 1 ≤ n) (h2 : n ≤ hi) :
    t.find (firstUnused (fun k => (t.find k).isSome) hi (t.length + 1) n) = none := by
  rcases firstUnused_unused (fun k => (t.find k).isSome) (t.length + 1) n h1 h2 with h | h
  · exfalso
    have hsub : (List.range (t.length + 1)).map (fun i => (n - 1 + i) % hi + 1) ⊆ t.map (·.1) := by
      intro k hk
      obtain ⟨i, hi', rfl⟩ := List.mem_map.mp hk
      exact Tbl.mem_keys_of_find (h i (List.mem_range.mp hi'))
    have hnd : ((List.range (t.length + 1)).map (fun i => (n - 1 + i) % hi + 1)).Nodup := by
      refine List.Nodup.map_on (fun x hx y hy e => ?_) List.nodup_range
      have hx := List.mem_range.mp hx
      have hy := List.mem_range.mp hy
      have e : (n - 1 + x) % hi = (n - 1 + y) % hi := by omega
      have : x ≡ y [MOD hi] := Nat.ModEq.add_left_cancel' (n - 1) e
      exact Nat.ModEq.eq_of_lt_of_lt this (by omega) (by omega)
    have := (hnd.subperm hsub).length_le
    simp at this
  · simpa using h

/-- A number given next is not in use, whatever number the search starts from. -/
theorem find_firstUnused_from {α : Type} {t : Tbl α} {hi : Nat} (hl : t.length < hi) (n : Nat) :
    t.find (firstUnused (fun k => (t.find k).isSome) hi (t.length + 1) n) = none := by
  by_cases hn : 1 ≤ n ∧ n ≤ hi
  · exact find_firstUnused hl hn.1 hn.2
  · unfold firstUnused
    split
    · next hu =>
      have h1 : succWrap hi n = 1 := by unfold succWrap; split <;> omega
      rw [h1]
      rcases firstUnused_unused (fun k => (t.find k).isSome) t.length 1 (Nat.le_refl 1) (show 1 ≤ hi by omega) with h | h
      · exfalso
        have hsub : n :: (List.range t.length).map (· + 1) ⊆ t.map (·.1) := by
          intro k hk
          rcases List.mem_cons.mp hk with rfl | hk
          · exact Tbl.mem_keys_of_find hu
          · obtain ⟨i, hi', rfl⟩ := List.mem_map.mp hk
            have hi' := List.mem_range.mp hi'
            have := h i hi'
            rw [Nat.sub_self, Nat.zero_add, Nat.mod_eq_of_lt (by omega)] at this
            exact Tbl.mem_keys_of_find this
        have hnd : (n :: (List.range t.length).map (· + 1)).Nodup := by
          refine List.nodup_cons.mpr ⟨fun hm => ?_, List.Nodup.map (fun _ _ e => Nat.succ.inj e) List.nodup_range⟩
          obtain ⟨i, hi', rfl⟩ := List.mem_map.mp hm
          have := List.mem_range.mp hi'
          omega
        have := (hnd.subperm hsub).length_le
        simp at this
      · simpa using h
    · next hu => simpa using hu

/-- The sale number given next is free and in range (R110). -/
theorem sale_freshSale {s : State} (hl : s.sales.length ≤ 2048) (h1 : 1 ≤ s.nextSale) (h2 : s.nextSale ≤ 65535) :
    s.sale s.freshSale = none ∧ 1 ≤ s.freshSale ∧ s.freshSale ≤ 65535 :=
  ⟨find_firstUnused (show s.sales.length < 65535 by omega) h1 h2, firstUnused_range _ (by decide) _ _ h1 h2⟩

/-- The voucher serial given next is free and in range (R170). -/
theorem voucher_freshSerial {s : State} (hl : s.vouchers.length ≤ 2048) (h1 : 1 ≤ s.nextSerial) (h2 : s.nextSerial ≤ 999999) :
    s.voucher s.freshSerial = none ∧ 1 ≤ s.freshSerial ∧ s.freshSerial ≤ 999999 :=
  ⟨find_firstUnused (show s.vouchers.length < 999999 by omega) h1 h2, firstUnused_range _ (by decide) _ _ h1 h2⟩

/-! ### Sales -/

theorem issueUnit_frame (code : Nat) (fromReserved : Bool) (s : State) :
    issueUnit code fromReserved s = { s with
      items := (issueUnit code fromReserved s).items, lines := (issueUnit code fromReserved s).lines } := by
  unfold issueUnit
  split
  · rw [modifyItem_frame]
  · rw [judgeLow_frame, modifyItem_frame]

theorem createVoucher_frame (sale : Nat) (slot : Option Nat) (code value : Nat) (fromReserved : Bool) (s : State) :
    createVoucher sale slot code value fromReserved s = { s with
      items := (createVoucher sale slot code value fromReserved s).items,
      vouchers := s.vouchers.put s.freshSerial
        { item := code, slot := slot, sale := sale, value := value, gen := 0, code := checkCode s.freshSerial code 0 s.seed,
          state := .printPending, counted := true, wrong := 0 },
      nextSerial := succWrap Config.maxSerial s.freshSerial,
      lines := (createVoucher sale slot code value fromReserved s).lines } := by
  unfold createVoucher
  dsimp only
  rw [issueUnit_frame]
  rfl

theorem createVouchers_frame (sale : Nat) (slot : Option Nat) (fromReserved : Bool) : ∀ (l : List (Nat × Nat)) (s : State),
    (createVouchers sale slot fromReserved l s).1 = { s with
      items := (createVouchers sale slot fromReserved l s).1.items,
      vouchers := (createVouchers sale slot fromReserved l s).1.vouchers,
      nextSerial := (createVouchers sale slot fromReserved l s).1.nextSerial,
      lines := (createVouchers sale slot fromReserved l s).1.lines }
  | [], _ => rfl
  | (c, v) :: l, s => by
    unfold createVouchers
    dsimp only
    rw [createVouchers_frame sale slot fromReserved l, createVoucher_frame]

/-- One voucher per unit (R170). -/
theorem length_createVouchers (sale : Nat) (slot : Option Nat) (fromReserved : Bool) : ∀ (l : List (Nat × Nat)) (s : State),
    (createVouchers sale slot fromReserved l s).2.length = l.length
  | [], _ => rfl
  | (c, v) :: l, s => by
    unfold createVouchers
    simp [length_createVouchers sale slot fromReserved l]

theorem voucher_createVoucher_self (sale : Nat) (slot : Option Nat) (code value : Nat) (fromReserved : Bool) (s : State) :
    (createVoucher sale slot code value fromReserved s).voucher s.freshSerial = some
      { item := code, slot := slot, sale := sale, value := value, gen := 0, code := checkCode s.freshSerial code 0 s.seed,
        state := .printPending, counted := true, wrong := 0 } := by
  rw [createVoucher_frame]
  exact Tbl.find_put_self _ _ _

theorem voucher_createVoucher_ne {v : Nat} {s : State} (h : v ≠ s.freshSerial) (sale : Nat) (slot : Option Nat) (code value : Nat)
    (fromReserved : Bool) : (createVoucher sale slot code value fromReserved s).voucher v = s.voucher v := by
  rw [createVoucher_frame]
  exact Tbl.find_put_of_ne _ h _

/-- What the making of a sale's vouchers leaves (R170): the records `VouchersMade` names, whatever their units are taken from. -/
theorem vouchersMade_createVouchers (sale : Nat) (slot : Option Nat) (fromReserved : Bool) : ∀ (l : List (Nat × Nat)) (s : State),
    s.vouchers.length + l.length ≤ 999999 →
    VouchersMade sale slot l (createVouchers sale slot fromReserved l s).2 s (createVouchers sale slot fromReserved l s).1
  | [], s, _ => ⟨List.nodup_nil, rfl, by simp [createVouchers], rfl, fun _ _ => rfl, fun _ => rfl, by simp [createVouchers]⟩
  | (c, v) :: l, s, hl => by
    have hl' : s.vouchers.length + (l.length + 1) ≤ 999999 := by simpa using hl
    have hfree : s.voucher s.freshSerial = none :=
      find_firstUnused_from (show s.vouchers.length < Config.maxSerial by unfold Config.maxSerial; omega) _
    have hframe := createVoucher_frame sale slot c v fromReserved s
    have hself := voucher_createVoucher_self sale slot c v fromReserved s
    have hne := fun {u : Nat} (h : u ≠ s.freshSerial) => voucher_createVoucher_ne h sale slot c v fromReserved
    have hlen : (createVoucher sale slot c v fromReserved s).vouchers.length ≤ s.vouchers.length + 1 := by
      rw [hframe]; exact Tbl.length_put_le _ _ _
    have hseed : (createVoucher sale slot c v fromReserved s).seed = s.seed := by rw [hframe]
    have hnext : (createVoucher sale slot c v fromReserved s).nextSerial = succWrap Config.maxSerial s.freshSerial := by
      rw [hframe]
    have ih := vouchersMade_createVouchers sale slot fromReserved l (createVoucher sale slot c v fromReserved s) (by omega)
    unfold createVouchers
    dsimp only
    generalize createVoucher sale slot c v fromReserved s = w at *
    generalize createVouchers sale slot fromReserved l w = r at *
    obtain ⟨hnd, hlen', hnone, hmap, hother, hnil, hlast⟩ := ih
    have hnot : s.freshSerial ∉ r.2 := fun hm => by simp [hnone _ hm] at hself
    refine ⟨List.nodup_cons.mpr ⟨hnot, hnd⟩, by simp [hlen'], fun u hu => ?_, ?_, fun u hu => ?_, by simp, fun u hu => ?_⟩
    · rcases List.mem_cons.mp hu with rfl | hu
      · exact hfree
      · rw [← hne (fun e => hnot (e ▸ hu))]; exact hnone u hu
    · rw [List.map_cons, List.zipWith_cons_cons, hmap, hseed, hother _ hnot, hself]
      simp [checkCode]
    · rw [hother u (fun h => hu (List.mem_cons_of_mem _ h)), hne (fun e => hu (e ▸ List.mem_cons_self))]
    · cases hr : r.2 with
      | nil =>
        rw [hr] at hu
        have : s.freshSerial = u := by simpa using hu
        subst this
        rw [hnil hr, hnext]
        rfl
      | cons a t =>
        rw [hr, List.getLast?_cons_cons] at hu
        exact hlast u (hr ▸ hu)

/-- The units of a station's commit pass from the reserved to the issued counts (R166). -/
theorem item_createVouchers_reserved (sale : Nat) (slot : Option Nat) (k : Nat) : ∀ (l : List (Nat × Nat)) (s : State),
    (createVouchers sale slot true l s).1.item k = (s.item k).map (fun i =>
      { i with reserved := i.reserved - l.countP (fun e => e.1 = k), issued := i.issued + l.countP (fun e => e.1 = k) })
  | [], s => by simp [createVouchers]
  | (c, v) :: l, s => by
    unfold createVouchers
    dsimp only
    rw [item_createVouchers_reserved sale slot k l]
    unfold createVoucher issueUnit
    rw [if_pos rfl, item_modifyItem]
    generalize hs : ({ putVoucher s.freshSerial _ s with nextSerial := _ } : State) = w
    have hw : w.item k = s.item k := by subst hs; rfl
    rw [hw]
    by_cases e : k = c
    · subst e
      rw [if_pos rfl]
      cases s.item k with
      | none => rfl
      | some i =>
        simp only [Option.map_some, List.countP_cons, decide_true, if_true, Nat.sub_sub, Option.some.injEq, Item.mk.injEq,
          true_and, and_true]
        constructor <;> omega
    · rw [if_neg e, List.countP_cons_of_neg (by simpa using fun h => e h.symm)]

/-- The units of a SITE-SELL raise the issued counts, and the low notice of each item concerned is judged (R166, R167). -/
theorem item_createVouchers_free (sale : Nat) (slot : Option Nat) (k : Nat) : ∀ (l : List (Nat × Nat)) (s : State),
    (createVouchers sale slot false l s).1.item k = (s.item k).map (fun i =>
      let units := l.countP (fun e => e.1 = k)
      { i with
        issued := i.issued + units,
        armed := if units = 0 then i.armed else decide (i.lowMark < i.allowance - (i.issued + units) - i.reserved) })
  | [], s => by simp [createVouchers]
  | (c, v) :: l, s => by
    unfold createVouchers
    dsimp only
    rw [item_createVouchers_free sale slot k l]
    unfold createVoucher issueUnit
    rw [if_neg Bool.false_ne_true, item_judgeLow, item_modifyItem]
    generalize hs : ({ putVoucher s.freshSerial _ s with nextSerial := _ } : State) = w
    have hw : w.item k = s.item k := by subst hs; rfl
    rw [hw]
    by_cases e : k = c
    · subst e
      rw [if_pos rfl, if_pos rfl]
      cases s.item k with
      | none => rfl
      | some i =>
        simp only [Option.map_some, List.countP_cons, decide_true, if_true, Item.available]
        by_cases h0 : l.countP (fun e => decide (e.1 = k)) = 0
        · simp only [h0]; rfl
        · simp [h0, Nat.add_assoc, Nat.add_comm 1]
    · rw [if_neg e, if_neg e, List.countP_cons_of_neg (by simpa using fun h => e h.symm)]

theorem sellHold_frame (sale n : Nat) (s : State) :
    sellHold sale n s = { s with screenings := (sellHold sale n s).screenings, holds := (sellHold sale n s).holds } := by
  unfold sellHold
  split
  · rw [mapSeats_frame]; rfl
  · rfl

/-- A sold hold's record is free (R39, R44). -/
theorem hold_sellHold (sale n : Nat) (s : State) : (sellHold sale n s).hold n = none := by
  unfold sellHold
  split
  · simp
  · next h => exact h

theorem hold_sellHold_of_none {m : Nat} (sale n : Nat) {s : State} (h : s.hold m = none) : (sellHold sale n s).hold m = none := by
  by_cases e : m = n
  · subst e; exact hold_sellHold ..
  · unfold sellHold
    split
    · rw [hold_delHold_ne e, mapSeats_frame]; exact h
    · exact h

/-- The holds a commit sells are free after it (R39). -/
theorem hold_sellHolds (sale : Nat) : ∀ (l : List Nat) (s : State) (m : Nat), m ∈ l ∨ s.hold m = none →
    (l.foldl (fun s n => sellHold sale n s) s).hold m = none
  | [], _, _, h => h.elim (fun h => absurd h List.not_mem_nil) id
  | a :: l, s, m, h => by
    rw [List.foldl_cons]
    refine hold_sellHolds sale l _ m ?_
    rcases h with h | h
    · rcases List.mem_cons.mp h with h | h
      · subst h; exact .inr (hold_sellHold ..)
      · exact .inl h
    · exact .inr (hold_sellHold_of_none _ _ h)

theorem sellHolds_frame (sale : Nat) (l : List Nat) (s : State) :
    l.foldl (fun s n => sellHold sale n s) s = { s with
      screenings := (l.foldl (fun s n => sellHold sale n s) s).screenings,
      holds := (l.foldl (fun s n => sellHold sale n s) s).holds } :=
  (foldl_frame _ (fun s t => { s with screenings := t.screenings, holds := t.holds }) (fun s n => (sellHold_frame sale n s).symm)
    (fun _ => rfl) (by rintro s t u h1 h2; rw [← h2, ← h1]) l s).symm

/-- What entering a sale can change, and the record it leaves (R112, R114). -/
theorem enterSale_frame (n : Nat) (x : Sale) (m : Summary) (holds : List Nat) (fromReserved : Bool) (s : State) :
    ∃ serials, serials.length = (chargedValues m).length ∧
      enterSale n x m holds fromReserved s = { s with
        screenings := (enterSale n x m holds fromReserved s).screenings, holds := (enterSale n x m holds fromReserved s).holds,
        sales := (s.sales.put n x).put n { x with serials := serials },
        nextSale := succWrap Config.maxSaleNumber n, draws := s.draws + x.seats.length,
        items := (enterSale n x m holds fromReserved s).items, vouchers := (enterSale n x m holds fromReserved s).vouchers,
        nextSerial := (enterSale n x m holds fromReserved s).nextSerial,
        lines := (enterSale n x m holds fromReserved s).lines } := by
  refine ⟨_, length_createVouchers n x.slot fromReserved (chargedValues m)
    (holds.foldl (fun s h => sellHold n h s)
      { putSale n x s with nextSale := succWrap Config.maxSaleNumber n, draws := s.draws + x.seats.length }), ?_⟩
  unfold enterSale
  dsimp only
  generalize h1 : holds.foldl (fun s h => sellHold n h s)
    { putSale n x s with nextSale := succWrap Config.maxSaleNumber n, draws := s.draws + x.seats.length } = s1
  generalize h2 : createVouchers n x.slot fromReserved (chargedValues m) s1 = made
  have e1 := sellHolds_frame n holds
    { putSale n x s with nextSale := succWrap Config.maxSaleNumber n, draws := s.draws + x.seats.length }
  have e2 := createVouchers_frame n x.slot fromReserved (chargedValues m) s1
  rw [h1] at e1
  rw [h2] at e2
  have hs : made.1.sale n = some x := by rw [e2, e1]; simp [State.sale]
  unfold modifySale
  rw [hs]
  dsimp only [putSale]
  rw [e2, e1]
  simp

/-- What the commit of a station's basket can change, the record it makes, and the chain it queues (R112). -/
theorem commit_frame (st : Station) (auth : Auth) (room : Nat) (s : State) :
    let m := (s.basket st).summary.getD Summary.nothing
    let n := s.freshSale
    ∃ serials, serials.length = (chargedValues m).length ∧
      let x : Sale := { s.stationSale st m auth with serials := serials }
      commit st auth room s = { s with
        screenings := (commit st auth room s).screenings, holds := (commit st auth room s).holds,
        baskets := s.baskets.set st Basket.vacant, salesReserved := s.salesReserved - 1,
        sales := ((s.sales.put n (s.stationSale st m auth)).put n x).put n { x with outstanding := (chainOf n x true).length },
        nextSale := succWrap Config.maxSaleNumber n, draws := s.draws + m.seats.length,
        lanes := s.lanes.set st { s.lane st with
          reservedRoom := (s.lane st).reservedRoom - room, queue := (s.lane st).queue ++ chainOf n x true },
        items := (commit st auth room s).items, vouchers := (commit st auth room s).vouchers,
        nextSerial := (commit st auth room s).nextSerial, lines := (commit st auth room s).lines } := by
  intro m n
  obtain ⟨serials, hlen, h⟩ := enterSale_frame n (s.stationSale st m auth) m (s.basket st).holds true
    { s with salesReserved := s.salesReserved - 1 }
  refine ⟨serials, hlen, ?_⟩
  intro x
  have hc : commit st auth room s = queueSale st n room
    (enterSale n (s.stationSale st m auth) m (s.basket st).holds true { s with salesReserved := s.salesReserved - 1 }) := rfl
  rw [hc]
  generalize enterSale n (s.stationSale st m auth) m (s.basket st).holds true { s with salesReserved := s.salesReserved - 1 } = t at h
  have hs : t.sale n = some x := by rw [h]; simp [State.sale, x]
  unfold queueSale
  rw [hs]
  dsimp only [setBasket, modifyLane, setLane, putSale]
  rw [h]
  have hd : (s.stationSale st m auth).seats.length = m.seats.length := by simp [State.stationSale, saleOf, State.saleSeats]
  rw [← hd]
  rfl

/-- The holds a commit sells are free after it (R39). -/
theorem hold_enterSale {h : Nat} {holds : List Nat} (hh : h ∈ holds) (n : Nat) (x : Sale) (m : Summary) (fromReserved : Bool)
    (s : State) : (enterSale n x m holds fromReserved s).hold h = none := by
  unfold enterSale
  dsimp only
  rw [modifySale_frame, createVouchers_frame]
  exact hold_sellHolds n holds _ h (.inl hh)

theorem voidVoucher_frame (serial : Nat) (s : State) :
    voidVoucher serial s = { s with
      items := (voidVoucher serial s).items, vouchers := (voidVoucher serial s).vouchers, lines := (voidVoucher serial s).lines } := by
  unfold voidVoucher
  split
  · rfl
  · split
    · rfl
    · rfl
    all_goals
      dsimp only
      split
      · rw [judgeLow_frame, modifyItem_frame]; rfl
      · rfl

theorem voucher_voidVoucher_ne {v serial : Nat} (h : v ≠ serial) (s : State) : (voidVoucher serial s).voucher v = s.voucher v := by
  unfold voidVoucher
  split
  · rfl
  · dsimp only
    split
    all_goals first
      | rfl
      | (split
         · rw [judgeLow_frame, modifyItem_frame]; exact voucher_putVoucher_ne h _ _
         · exact voucher_putVoucher_ne h _ _)

/-- A voucher voided is VOID without the counted mark; a REDEEMED or VOID one stays. -/
theorem voucher_voidVoucher (serial : Nat) (s : State) : (voidVoucher serial s).voucher serial = (s.voucher serial).map (fun y =>
    if s.voidable serial then { y with state := .void, counted := false } else y) := by
  unfold voidVoucher State.voidable
  split
  · next h => rw [h]; rfl
  · next y h =>
    dsimp only
    split
    all_goals
      next hs =>
        simp only [h, hs, Option.map_some, if_true, Bool.false_eq_true, if_false]
        try (split
             · rw [judgeLow_frame, modifyItem_frame]; exact voucher_putVoucher _ _ _
             · exact voucher_putVoucher _ _ _)

/-- A voucher voided lowers its item's issued count when it carries the counted mark, and the low notice is judged. -/
theorem item_voidVoucher (serial k : Nat) (s : State) : (voidVoucher serial s).item k =
    if s.voidable serial ∧ (s.voucher serial).any (fun y => y.counted && decide (y.item = k)) then (s.item k).map (fun i =>
      { i with issued := i.issued - 1, armed := decide (i.lowMark < i.allowance - (i.issued - 1) - i.reserved) })
    else s.item k := by
  unfold voidVoucher State.voidable
  split
  · next h => simp [h]
  · next y h =>
    dsimp only
    split
    all_goals
      next hs =>
        simp only [h, hs, Bool.false_eq_true, false_and, if_false, true_and, Option.any_some]
        try (split
             · next hc =>
               rw [item_judgeLow, item_modifyItem, hc, Bool.true_and]
               by_cases e : k = y.item
               · subst e
                 simp only [if_true, decide_true]
                 show Option.map _ (Option.map _ (s.item y.item)) = _
                 rw [Option.map_map]; rfl
               · rw [if_neg e, if_neg e, if_neg (by simpa using fun h => e h.symm)]; rfl
             · next hc =>
               have hc : y.counted = false := by simpa using hc
               rw [hc]; rfl)

/-- The lanes after the removal of a sale's unstarted orders (R118). -/
theorem removeOrders_frame (n : Nat) (s : State) :
    removeOrders n s = { s with sales := (removeOrders n s).sales, lanes := (removeOrders n s).lanes } := by
  have h : ∀ (l : List Station) (s : State), { s with lanes := (l.foldl (removeUnstarted n) s).lanes } = l.foldl (removeUnstarted n) s :=
    foldl_frame _ (fun s t => { s with lanes := t.lanes }) (fun _ _ => rfl) (fun _ => rfl)
      (by rintro s t u h1 h2; rw [← h2, ← h1])
  unfold removeOrders
  rw [modifySale_frame, ← h]

/-- A lane after the removal (R118). -/
theorem lane_removeOrders (n : Nat) (st : Station) (s : State) : (removeOrders n s).lane st = { s.lane st with
    queue := (s.lane st).queue.filter (fun o => !(o.isQueued && decide (o.sale = n))) } := by
  have h : ∀ (l : List Station) (s : State), (l.foldl (removeUnstarted n) s).lane st =
      if st ∈ l then { s.lane st with queue := (s.lane st).queue.filter (fun o => !(o.isQueued && decide (o.sale = n))) }
      else s.lane st := by
    intro l
    induction l with
    | nil => intro s; simp
    | cons a t ih =>
      intro s
      rw [List.foldl_cons, ih]
      by_cases ha : st = a
      · subst ha
        simp only [removeUnstarted, modifyLane, lane_setLane, List.filter_filter, Bool.and_self, List.mem_cons, true_or, if_true,
          ite_self]
      · simp only [removeUnstarted, modifyLane, lane_setLane_ne ha, List.mem_cons, ha, false_or]
  have e : ∀ (k : Nat) (f : Sale → Sale) (t : State), (modifySale k f t).lane st = t.lane st := by
    intro k f t; rw [modifySale_frame]; rfl
  unfold removeOrders
  rw [e, h, if_pos (List.mem_finRange st)]

/-! ### Loads -/

theorem treatBasket_frame (k : LoadKind) (s : State) (st : Station) :
    treatBasket k s st = { s with baskets := (treatBasket k s st).baskets, lines := (treatBasket k s st).lines } := by
  unfold treatBasket
  split
  · rfl
  · split
    · rw [emit_frame]; rfl
    · rfl
  · split
    · rw [emit_frame]; rfl
    · rfl
  · rfl
  · rfl

/-- A load reaches baskets and lines alone, beside what is loaded (R61). -/
theorem treatBaskets_frame (k : LoadKind) (s : State) :
    treatBaskets k s = { s with baskets := (treatBaskets k s).baskets, lines := (treatBaskets k s).lines } :=
  (foldl_frame _ (fun s t => { s with baskets := t.baskets, lines := t.lines }) (fun s st => (treatBasket_frame k s st).symm)
    (fun _ => rfl) (by rintro s t u h1 h2; rw [← h2, ← h1]) (List.finRange 8) s).symm

theorem takeSnacks_frame (entries : List SnackEntry) (s : State) :
    takeSnacks entries s = { s with items := (takeSnacks entries s).items } :=
  (foldl_frame _ (fun s t => { s with items := t.items })
    (fun s e => (modifyItem_frame e.item (fun x => { x with name := e.name, price := e.price }) s).symm)
    (fun _ => rfl) (by rintro s t u h1 h2; rw [← h2, ← h1]) entries s).symm

/-! ### Holds joining and leaving baskets -/

theorem basketGains_frame (st : Station) (f : Basket → Basket) (s : State) :
    basketGains st f s = { s with baskets := s.baskets.set st ((basketGains st f s).basket st) } := by
  unfold basketGains
  split <;> simp [basketOpens, basketChange, modifyBasket, setBasket, State.basket]

theorem basketLoses_frame (st : Station) (s : State) :
    basketLoses st s = { s with
      screenings := (basketLoses st s).screenings, holds := (basketLoses st s).holds, items := (basketLoses st s).items,
      baskets := s.baskets.set st ((basketLoses st s).basket st), lines := (basketLoses st s).lines } := by
  unfold basketLoses
  split
  · rw [emptyBasket_frame]; simp [State.basket]
  · simp [basketChange, modifyBasket, setBasket, State.basket]

/-- The close of a hold reaches seats, holds, the one basket and the lines (R32, R33). -/
theorem closeHold_frame (st : Station) (n : Nat) (h : Hold) (s : State) :
    closeHold st n h s = { s with
      screenings := (closeHold st n h s).screenings, holds := (closeHold st n h s).holds,
      baskets := (closeHold st n h s).baskets, lines := (closeHold st n h s).lines } := by
  have pass : closePasses st n h s = { s with
      screenings := (closePasses st n h s).screenings, holds := (closePasses st n h s).holds,
      baskets := (closePasses st n h s).baskets, lines := (closePasses st n h s).lines } := by
    unfold closePasses joinBasket
    dsimp only
    rw [emit_frame, basketGains_frame]
    dsimp only [putHold]
    rw [mapSeats_frame]
  have fail : ∀ r, closeFails st n h r s = { s with
      screenings := (closeFails st n h r s).screenings, holds := (closeFails st n h r s).holds,
      baskets := (closeFails st n h r s).baskets, lines := (closeFails st n h r s).lines } := by
    intro r
    unfold closeFails
    rw [emit_frame, releaseHold_frame]
  unfold closeHold
  split
  · exact pass
  · split
    · exact pass
    · exact fail _
    · exact fail _

/-- What `laneComes` can do: the conditions and the grant of R134. -/
theorem comesToRequest_laneComes (st : Station) (s : State) : ComesToRequest st s (laneComes st s) := by
  unfold ComesToRequest laneComes
  cases hb : s.mover.burst <;> cases hr : s.requesting st <;> simp
  cases hg : (grant st s).2 <;> simp

end Sys2Proof.Machine
end

