-- ==== Sys2Proof/Laws/Wire.lean ====
section
/-! SUPPORT. Frames and trains: what a length, a body and its pieces amount to, what a record brings, and what a taken byte leaves
of a line. -/

namespace Sys2Proof.Machine

/-- The length byte of a frame whose body fits is the count of kind, tag and body bytes (Table 10-2). -/
theorem toNat_length {f : Frame} (h : f.body.length ≤ 250) : (BitVec.ofNat 8 (f.body.length + 2)).toNat = f.body.length + 2 := by
  rw [BitVec.toNat_ofNat]; omega

@[simp] theorem length_covered (f : Frame) : f.covered.length = f.body.length + 3 := by simp [Frame.covered]

@[simp] theorem length_bytes (f : Frame) : f.bytes.length = f.body.length + 6 := by simp [Frame.bytes]

/-- The two halves of a check, joined, are the check. -/
theorem halves_append (c : BitVec 16) : c.extractLsb' 8 8 ++ c.extractLsb' 0 8 = c := by
  apply BitVec.eq_of_getLsbD_eq
  intro i hi
  simp only [BitVec.getLsbD_append, BitVec.getLsbD_extractLsb']
  by_cases h : i < 8
  · simp [h]
  · simp [h, show i - 8 < 8 by omega, show 8 + (i - 8) = i by omega]

/-- A receiver in a frame collects a run of bytes. -/
theorem takeAll_receiving (bytes : List Byte) : ∀ (got : List Byte) (quiet : Nat), bytes ≠ [] →
    (Receiver.receiving got quiet).takeAll bytes = .receiving (got ++ bytes) 0 := by
  induction bytes with
  | nil => intro _ _ h; exact absurd rfl h
  | cons b t ih =>
    intro got quiet _
    cases t with
    | nil => rfl
    | cons c u =>
      have := ih (got ++ [b]) 0 (by simp)
      simpa [Receiver.takeAll, Receiver.take] using this

/-- A hunting receiver that takes a marker and a run of bytes after it has collected that run. -/
theorem takeAll_marker (bytes : List Byte) : Receiver.hunting.takeAll (Config.marker :: bytes) = .receiving bytes 0 := by
  cases bytes with
  | nil => rfl
  | cons b t => exact takeAll_receiving (b :: t) [] 0 (by simp)

/-- The command of a site record is a site request with the record's tag. -/
@[simp] theorem onLink_siteCommand (k : SiteKind) (kind : Byte) (tag : Tag) (f : Fields) :
    Instr.onLink .site kind tag (siteCommand k tag f) = true := by
  cases k <;> simp [siteCommand, Instr.onLink]

/-- The command of a station record is a request of that station with the record's tag. -/
@[simp] theorem onLink_stationCommand (st : Station) (k : ReqKind) (kind : Byte) (tag : Tag) (f : Fields) :
    Instr.onLink (.station st) kind tag (stationCommand st k tag f) = true := by
  cases k <;> simp [stationCommand, Instr.onLink]

/-- The command of a terminal record is a terminal record of that station. -/
theorem fromTerminal_terminalCommand {st : Station} {k : TermKind} {f : Fields} {c : Instr}
    (h : terminalCommand st k f = some c) : Instr.fromTerminal st c = true := by
  cases k <;> simp [terminalCommand] at h <;> (obtain ⟨x, -, rfl⟩ := h; simp [Instr.fromTerminal])

/-- The command of a printer record is a printer record of that station. -/
theorem fromPrinter_printerCommand {st : Station} {k : PrinterKind} {f : Fields} {c : Instr}
    (h : printerCommand st k f = some c) : Instr.fromPrinter st c = true := by
  cases k <;> simp [printerCommand] at h <;> (obtain ⟨x, -, rfl⟩ := h; simp [Instr.fromPrinter])

/-- What a record brings, by checks 1 and 2 of R182: a refusal when its kind is none of the line's, a refusal when its length is
not the one required, else the command of its kind and fields. -/
theorem judgeRecord_unknown {l : Line} {kind : Byte} {tag : Tag} {length : Nat} {named : Option RecKind} {required : RecKind → Nat}
    {fields : RecKind → Fields} (h : ∀ k, named = some k → k.comesOn l = false) :
    judgeRecord l kind tag length named required fields = refuseRecord l tag .unknownKind kind := by
  cases named with
  | none => rfl
  | some k => simp [judgeRecord, h k rfl]

theorem judgeRecord_badLength {l : Line} {kind : Byte} {tag : Tag} {length : Nat} {k : RecKind} {required : RecKind → Nat}
    {fields : RecKind → Fields} (hl : k.comesOn l = true) (hb : length ≠ required k) :
    judgeRecord l kind tag length (some k) required fields = refuseRecord l tag .badLength kind := by
  simp [judgeRecord, hl, hb]

theorem judgeRecord_taken {l : Line} {kind : Byte} {tag : Tag} {length : Nat} {k : RecKind} {required : RecKind → Nat}
    {fields : RecKind → Fields} (hl : k.comesOn l = true) (hb : length = required k) :
    judgeRecord l kind tag length (some k) required fields = commandOf l k tag (fields k) := by
  simp [judgeRecord, hl, hb]

/-- A record of a kind without fields is taken with an empty body and no other (R182, check 2). -/
theorem judgeRecord_fieldless {l : Line} {kind : Byte} {tag : Tag} {body : List Byte} {k : RecKind} {fields : RecKind → Fields}
    (hl : k.comesOn l = true) (hf : k.fieldless = true) :
    judgeRecord l kind tag body.length (some k) (fun k => requiredLength k body) fields =
      if body = [] then commandOf l k tag (fields k) else refuseRecord l tag .badLength kind := by
  split
  · next h => subst h; exact judgeRecord_taken hl (by simp [requiredLength, hf])
  · next h => exact judgeRecord_badLength hl (by simpa [requiredLength, hf] using h)

/-- A body of the string's length spells each of its characters in its place. -/
theorem toList_charsOf {body : List Byte} {n : Nat} (h : body.length = n) : (charsOf body n).toList = body := by
  subst h
  apply List.ext_getElem
  · simp
  · intro i h1 h2
    simp only [charsOf, Vector.getElem_toList, Vector.getElem_ofFn]
    simp [List.getD_eq_getElem?_getD, h2]

/-- Joining a frame changes the train of a line alone. -/
theorem join_frame (l : Line) (f : Frame) (before : List Byte) (r : LineRec) :
    (r.join l f before).1 = { r with train := (r.join l f before).1.train } := by
  unfold LineRec.join; split <;> rfl

/-- A good frame changes the train of a line alone. -/
theorem takeFrame_frame (l : Line) (f : Frame) (r : LineRec) :
    (r.takeFrame l f).1 = { r with train := (r.takeFrame l f).1.train } := by
  unfold LineRec.takeFrame
  split
  · exact join_frame ..
  · split
    · exact join_frame ..
    · rfl

/-- What a taken byte gives, by what the frame being received then amounts to (R180). -/
theorem takeByte_of_incomplete {l : Line} {b : Byte} {r : LineRec} (h : (r.receiver.take b).verdict = .incomplete) :
    r.takeByte l b = ({ r with receiver := r.receiver.take b }, []) := by simp [LineRec.takeByte, h]

theorem takeByte_of_bad {l : Line} {b : Byte} {r : LineRec} {cause : FrameFault} (h : (r.receiver.take b).verdict = .bad cause) :
    r.takeByte l b = ({ r with receiver := r.receiver.take b }, [.frameError l cause]) := by simp [LineRec.takeByte, h]

theorem takeByte_of_good {l : Line} {b : Byte} {r : LineRec} {f : Frame} (h : (r.receiver.take b).verdict = .good f) :
    r.takeByte l b = { r with receiver := .hunting }.takeFrame l f := by simp [LineRec.takeByte, h]

/-- A taken byte changes the receiver and the train of a line alone. -/
theorem takeByte_frame (l : Line) (b : Byte) (r : LineRec) :
    (r.takeByte l b).1 = { r with receiver := (r.takeByte l b).1.receiver, train := (r.takeByte l b).1.train } := by
  cases h : (r.receiver.take b).verdict with
  | incomplete => rw [takeByte_of_incomplete h]
  | bad cause => rw [takeByte_of_bad h]
  | good f => rw [takeByte_of_good h, takeFrame_frame]

@[simp] theorem errors_takeByte (l : Line) (b : Byte) (r : LineRec) : (r.takeByte l b).1.errors = r.errors := by
  rw [takeByte_frame]

@[simp] theorem state_takeByte (l : Line) (b : Byte) (r : LineRec) : (r.takeByte l b).1.state = r.state := by
  rw [takeByte_frame]

@[simp] theorem out_takeByte (l : Line) (b : Byte) (r : LineRec) : (r.takeByte l b).1.out = r.out := by
  rw [takeByte_frame]

/-- A break changes no state of a line and nothing that waits on it. -/
theorem goBreak_frame (r : LineRec) :
    r.goBreak = { r with errors := r.goBreak.errors, receiver := r.goBreak.receiver, train := r.goBreak.train, watch := some 0 } := by
  unfold LineRec.goBreak; split <;> rfl

end Sys2Proof.Machine
end

