-- ==== Sys2Proof/Tests/Slice0.lean ====
section
/-! SUPPORT. The model's own tests: an ill-formed command for each check of well-formedness, worked cases of the spec on small
states, and for each statement with hypotheses a state and operands that meet all of them. -/

namespace Sys2Proof.Tests

open Sys2Proof.Machine

/-! ### Small states -/

/-- A seat of row 2. -/
def seat (num runId runPos : Nat) (kind : SeatKind) (state : SeatState) : Seat :=
  { row := 2, num := num, runId := runId, runPos := runPos, cls := 2, kind := kind, state := state, gen := 0, mark := false }

/-- Row 2 of the worked example of 1.3: a wheelchair place, its companion, and two ordinary seats, in the states given. -/
def hall (a b c d : SeatState) : Screening :=
  { phase := .opened, code := 9, auditorium := 3, start := 845, band := 850, gapRule := true,
    fares := Vector.replicate 8 1450, declared := 4, loaded := 4, runCount := 1,
    seats := [seat 1 1 1 .wheelchair a, seat 2 1 2 .companion b, seat 3 1 3 .ordinary c, seat 4 1 4 .ordinary d] }

def adult : Category := ⟨0, Vector.replicate 12 0x41, 1000, false, false⟩
def child : Category := ⟨1, Vector.replicate 12 0x43, 650, false, false⟩
def carer : Category := ⟨2, Vector.replicate 12 0x44, 0, true, true⟩

/-- The tariff of the worked case of 4.10, with a companion-only category added. -/
def matinee : Tariff :=
  { cats := [adult, child, carer], bookingFee := 75, step := 10, combo := 100, ticketTax := 700, snackTax := 1900 }

def popcorn : Item :=
  { name := Vector.replicate 16 0x50, price := 950, allowance := 40, issued := 1, reserved := 2, lowMark := 5, armed := true }

def drink : Item := { popcorn with price := 375 }

def addr : Chars 4 := Vector.replicate 4 0x4B
def ref : Chars 8 := Vector.replicate 8 0x52

def kiosk : StationConfig := { role := .kiosk, addr := addr, printer := true }

/-- Station 0 a kiosk, slot 7 open with all its seats free, tariff and snacks loaded. -/
def shop : State :=
  setStation 0 kiosk (setItem 1 popcorn (setItem 2 drink (putScreening 7 (hall .free .free .free .free)
    { State.reset with tariff := some matinee, tariffId := 1 })))

def holdOf (o : Owner) (seats : List SeatPos) (ph : HoldPhase) (window own : Option Deadline) (r : Option (Chars 8)) : Hold :=
  { owner := o, slot := 7, seats := seats, phase := ph, window := window, own := own, ref := r }

/-- Station 0 gathers seat 4 in hold 0. -/
def gathered : Hold := holdOf (.station 0) [⟨2, 4⟩] .gathering (some ⟨0, 600⟩) none none
def gathers : State := putHold 0 gathered (putScreening 7 (hall .free .free .free (.pending 0)) shop)

/-- Station 0 gathers the companion seat alone. -/
def gatheredCarer : Hold := holdOf (.station 0) [⟨2, 2⟩] .gathering (some ⟨0, 600⟩) none none
def gathersCarer : State := putHold 0 gatheredCarer (putScreening 7 (hall .free (.pending 0) .free .free) shop)

/-- Site hold 0 on seat 4. -/
def siteHeld : State :=
  putHold 0 (holdOf .site [⟨2, 4⟩] .standing none (some ⟨0, 60000⟩) (some ref))
    (putScreening 7 (hall .free .free .free (.held 0)) shop)

/-- The basket of the worked case of 4.10, in hold 0, less the child seat. -/
def oneSeat : Basket :=
  { Basket.vacant with
    holds := [0], seatLines := [⟨⟨7, 2, 3⟩, 0⟩], snacks := [⟨1, 2⟩], lapse := some ⟨0, 300000⟩, openHold := 300 }

/-- Station 0 with an OPEN basket. -/
def shopping : State :=
  setBasket 0 oneSeat (putHold 0 (holdOf (.station 0) [⟨2, 3⟩] .standing none none none)
    (putScreening 7 (hall .free .free (.held 0) .free) shop))

/-- Its basket with no snack line. -/
def lastHold : State := setBasket 0 { oneSeat with snacks := [] } shopping

def bill : Summary := pricing matinee oneSeat.seatLines oneSeat.snacks shopping

/-- Its basket priced. -/
def priced : State := setBasket 0 { oneSeat with summary := some bill } shopping

/-- A payment of station 0 in the phase given. -/
def payment (ph : PayPhase) (asked : Bool) : Payment :=
  { phase := ph, amount := 3015, limit := if ph = .authorising then some ⟨0, 120000⟩ else none,
    step := if ph = .authorising then none else some ⟨0, 10000⟩, asked := asked, cause := none, auth := none, sale := none,
    resSale := true, resJournal := true, resLane := 4, reported := false }

/-- Station 0 paying. -/
def paying (p : Payment) : State :=
  setPay 0 ⟨17, some p⟩ (modifyLane 0 (fun l => { l with reservedRoom := 4 })
    { priced with salesReserved := 1, journalReserved := 1 })

/-- Station 0 paying, its PAY not yet answered. -/
def selecting : State := setRequest 0 (some ⟨.pay, 5⟩) (paying (payment .selecting false))

/-- A sale of one ticket and one stub from station 0. -/
def sold (capture : CaptureState) : Sale :=
  { origin := .station 0, slot := some 7, seats := [⟨⟨7, 2, 3⟩, 0, Vector.replicate 12 0x41, 1230, 75, 1305, false⟩],
    snacks := [⟨1, 1, 950, 950⟩], serials := [1], seatPart := 1305, subtotal := 950, discount := 95, effD := 100, snackNet := 855,
    total := 2160, ticketTax := 85, snackTax := 137, tariffId := 1, ref := some ⟨0, 17⟩, auth := some ⟨Vector.replicate 6 0x39, 1⟩,
    capture := capture, booking := none, state := .active, outstanding := 2 }

/-- A remote sale of one ticket under the reference. -/
def booked : Sale :=
  { sold .notApplicable with origin := .remote, snacks := [], serials := [], ref := none, auth := none, booking := some ref, outstanding := 0 }

def stub (state : VoucherState) (wrong : Nat) : Voucher :=
  { item := 1, slot := some 7, sale := 1, value := 855, gen := 1, code := 1123, state := state, counted := true, wrong := wrong }

/-- Sale 1 with its seat SOLD and its voucher in the state given. -/
def after (capture : CaptureState) (v : VoucherState) : State :=
  putVoucher 1 (stub v 0) (putSale 1 (sold capture)
    (putScreening 7 (hall .free .free (.sold 1) .free) { shop with nextSale := 2, nextSerial := 2 }))

def order (item : OrderItem) (status : PrintStatus) : Order := ⟨item, 1, false, status⟩

/-- Sale 1 with orders in the lane of station 0, and a burst in flight for the lane given. -/
def printing (q : List Order) (burst : Option Burst) : State :=
  { setLane 0 { Lane.fresh with queue := q, cut := some ⟨0, 5000⟩, residual := 20, linesSent := 300 } (after .confirmed .printPending) with
    mover := { burst := burst, last := 0 } }

/-- A burst of lane 1. -/
def elsewhere : Option Burst := some ⟨1, 32, some ⟨0, 500⟩⟩

/-- A station of the role given at link 6. -/
def till (s : State) : State := setStation 6 { StationConfig.initial with role := .till } s

/-- A line lost. -/
def lost (l : Line) (s : State) : State := setLine l { s.line l with state := .lost, watch := none } s

/-- A line that is receiving, or has a train in progress. -/
def receives (l : Line) (r : Receiver) (t : Option Train) (s : State) : State :=
  setLine l { s.line l with watch := none, receiver := r, train := t } s

/-- A byte has arrived on the site link, and one more is to come. -/
def arrived : State := setWire .site [⟨0, 0xA5#8⟩, ⟨1, 0xFF#8⟩] (receives .site .hunting none shop)

/-- The time base at the value given. -/
def atTime (t : Time) (s : State) : State := { s with timeBase := t }

/-- A row being loaded into slot 32, with one run and one seat left to load. -/
def loading : State :=
  putScreening 32 { hall .free .free .free .free with phase := .loading, declared := 800, loaded := 799, runCount := 159 } shop

/-- Slot 7 in the phase given. -/
def slotIn (ph : ScreeningPhase) : State := putScreening 7 { hall .free .free .free .free with phase := ph } shop

/-- A lane of station 0 suspended with one order uncertain and one queued. -/
def suspended (k : FaultKind) : State :=
  setLane 0 { Lane.fresh with suspended := some k, clearFlag := true, queue := [order (.stub 1) .uncertain, order .receipt .queued] }
    { after .confirmed .printPending with mover := { burst := elsewhere, last := 1 } }

/-! ### Well-formed commands -/

theorem test_wf_refund : (Instr.refund 0 65535).wf = true ∧ (Instr.refund 0 65536).wf = false := by decide
theorem test_wf_query_sale : (Instr.querySale 0 0).wf = true ∧ (Instr.querySale 0 65536).wf = false := by decide
theorem test_wf_reprint : (Instr.reprint 0 65536 (.voucher 1) 0).wf = false := by decide
theorem test_wf_journal_release :
    (Instr.journalRelease 0 4294967295).wf = true ∧ (Instr.journalRelease 0 4294967296).wf = false := by decide
theorem test_wf_fault : (Instr.fault 0 .jam 32).wf = true ∧ (Instr.fault 0 .jam 33).wf = false := by decide
theorem test_wf_frame_error :
    (Instr.frameError .site (.badLength 1)).wf = true ∧ (Instr.frameError .site (.badLength 2)).wf = false ∧
      (Instr.frameError .site (.badLength 252)).wf = false ∧ (Instr.frameError .site (.badLength 253)).wf = true := by decide
theorem test_wf_train_timeout : (Instr.trainTimeout .site).wf = true ∧ (Instr.trainTimeout (.terminal 0)).wf = false := by decide
set_option maxRecDepth 4000 in
theorem test_wf_train_interrupted :
    (Instr.trainInterrupted .site 1 1 (List.replicate 250 0)).wf = true ∧
      (Instr.trainInterrupted .site 1 1 (List.replicate 251 0)).wf = false ∧
      (Instr.trainInterrupted (.printer 0) 1 1 []).wf = false := by decide

/-! ### Worked cases of the spec -/

/-- 1.3: seats load in the order of the worked example. -/
theorem test_load_row :
    (rowSeats 2 0 [⟨1, 4, 2, [some .wheelchair, some .companion, some .ordinary, some .ordinary]⟩, ⟨7, 1, 2, [some .house]⟩]).map
        (fun x => (x.num, x.runId, x.runPos, x.state)) =
      [(1, 1, 1, .free), (2, 1, 2, .free), (3, 1, 3, .free), (4, 1, 4, .free), (7, 2, 1, .blocked)] := by decide

/-- 2.3: the companion seat alone fails, with its wheelchair place passes, and seat 4 beside them strands seat 3. -/
theorem test_judge :
    judge (hall .free (.pending 0) .free .free) [⟨2, 2⟩] = .companion ⟨2, 2⟩ ∧
      judge (hall (.pending 0) (.pending 0) .free .free) [⟨2, 2⟩, ⟨2, 1⟩] = .ok [⟨2, 2⟩, ⟨2, 1⟩] ∧
      judge (hall (.pending 0) (.pending 0) .free (.pending 0)) [⟨2, 1⟩, ⟨2, 2⟩, ⟨2, 4⟩] = .gap ⟨2, 3⟩ := by decide

/-- 4.10 and 4.11: the seat fares of the worked cases. -/
theorem test_fares :
    seatFare 1450 850 1000 10 = (1230, false) ∧ seatFare 1450 850 650 10 = (800, false) ∧
      seatFare 20000 1500 2000 10 = (20000, true) ∧ stepRound 49 100 = 0 ∧ stepRound 50 100 = 100 := by decide

/-- 4.10: the matinee basket and its charged values. -/
theorem test_matinee :
    let m := pricing matinee [⟨⟨7, 2, 3⟩, 0⟩, ⟨⟨7, 2, 4⟩, 1⟩] [⟨1, 2⟩, ⟨2, 1⟩] shop
    m.total = 4228 ∧ m.snackNet = 2048 ∧ m.ticketTax = 143 ∧ m.snackTax = 327 ∧
      chargedValues m = [(1, 856), (1, 855), (2, 337)] := by decide

/-- 9.3: the check codes of voucher 4711. -/
theorem test_check_codes :
    checkCode 4711 3 0 2024 = 8578 ∧ checkCode 4711 3 1 2024 = 8591 ∧ checkCode 4711 3 2 2024 = 8604 := by decide

set_option maxRecDepth 4000 in
/-- 10.3: the check value of the nine digits. -/
theorem test_frame_check : crc16 [0x31, 0x32, 0x33, 0x34, 0x35, 0x36, 0x37, 0x38, 0x39] = 0x29B1 := by decide

/-! ### One step each -/

/-- What a step leaves, read by `f`. -/
def leaves {α : Type} (o : Host.Outcome State Fault Refusal) (f : State → α) : Option α :=
  match o with
  | .next t => some (f t)
  | .fault _ => none
  | .refused _ => none

/-- 4.10 and 5: an approval makes sale 1 of the basket's total, sells its seat, and queues ticket, two stubs and receipt. -/
theorem test_approval :
    let o := exec (.outcome 0 (.approved (Vector.replicate 6 0x39) 1234)) (paying (payment .authorising true))
    leaves o (fun t => (t.sale 1).map (fun x => (x.total, x.serials, x.outstanding))) = some (some (3015, [1, 2], 4)) ∧
      leaves o (fun t => t.seat 7 ⟨2, 3⟩) = some (some { seat 3 1 3 .ordinary (.sold 1) with gen := 1 }) ∧
      leaves o (fun t => (t.lane 0).queue.map (·.item)) = some [.ticket ⟨7, 2, 3⟩, .stub 1, .stub 2, .receipt] ∧
      leaves o (fun t => (t.salesReserved, (t.lane 0).reservedRoom)) = some (0, 0) := by decide

/-- 2.3: the window closes the hold of the companion seat alone, and its seat is FREE again. -/
theorem test_window :
    leaves (exec (.gatheringWindowExpiry 0) gathersCarer) (fun t => (t.hold 0, t.seat 7 ⟨2, 2⟩, (t.line (.station 0)).out)) =
      some (none, some (seat 2 1 2 .companion .free), [.holdClosed 0 7 (.companion ⟨2, 2⟩)]) := by decide

/-- 10.2: a length of 255 that follows a marker on the site link is a frame in error, which is counted (R180): two bytes, the
millisecond between them, and the command they bring. -/
theorem test_bad_length_received :
    let s1 := receiveByte .site arrived
    let s2 := receiveByte .site (advance s1)
    (s1.pending = [] ∧ (s1.line .site).receiver = .receiving [] 0 ∧ s1.byteArrived .site = false) ∧
      ((advance s1).byteArrived .site = true ∧ s2.pending = [.frameError .site (.badLength 0xFF#8)] ∧ s2.wire .site = []) ∧
      leaves (step s2) (fun t => (t.line .site).receiver) = some .hunting ∧
      leaves (step s2) (fun t => (t.line .site).errors) = some 1 := by decide +kernel

set_option maxRecDepth 8000 in
/-- 10.2: kind 1, tag 2 and a body of two bytes stand in a frame of eight bytes with the check 0x9509, high byte first, and a
receiver fed them finds the frame. -/
theorem test_frame_received :
    let f : Frame := ⟨1, 2, [3, 4]⟩
    f.bytes = [0xA5, 4, 1, 2, 3, 4, 0x95, 0x9] ∧ (Receiver.hunting.takeAll (0 :: f.bytes)).verdict = .good f := by decide

/-- 10.2: a frame of another kind in the place of a train's next frame interrupts the train. -/
theorem test_train_interrupted :
    let r : LineRec := { LineRec.initial with train := some ⟨1, 2, [3], 4⟩ }
    r.takeFrame .site ⟨9, 2, []⟩ =
      (r, .trainInterrupted .site 9 2 [] :: (recordTaken .site 9 2 []).toList) := rfl

/-- 10.3: checks 1 and 2 on the site link, on a station link and on a terminal line, where a record without its status is malformed
and discarded. -/
theorem test_records_judged :
    let judged (l : Line) (length : Nat) (named : Option RecKind) := judgeRecord l 9 2 length named (fun _ => 0) (fun _ => default)
    (judged .site 0 (some (.site .reset)) = some (.reset 2) ∧
        judged .site 1 (some (.site .reset)) = some (.reject .site 2 .badLength 9) ∧
        judged .site 0 (some (.station .pay)) = some (.reject .site 2 .unknownKind 9) ∧
        judged .site 0 none = some (.reject .site 2 .unknownKind 9)) ∧
      (judged (.station 3) 0 (some (.station .pay)) = some (.pay 3 2) ∧
        judged (.station 3) 0 (some (.site .reset)) = some (.reject (.station 3) 2 .unknownKind 9)) ∧
      (judged (.terminal 3) 0 (some (.terminal .captured)) = some (.captured 3) ∧
        judged (.terminal 3) 1 (some (.terminal .captured)) = none ∧ judged (.terminal 3) 0 (some (.terminal .selected)) = none ∧
        judged (.printer 3) 0 (some (.terminal .captured)) = none ∧
        judged (.printer 3) 0 (some (.printer .clear)) = some (.clear 3)) := by decide

/-- R182, check 2: a RESET with a body and a COLLECT of 7 characters get BAD_LENGTH, a RESET without one and a COLLECT of 8 are taken;
an ABORT leaves on its line in a frame with no body. -/
theorem test_lengths_required :
    let read (l : Line) (k : RecKind) (body : List Byte) :=
      judgeRecord l 9 2 body.length (some k) (fun k => requiredLength k body) (fun k => fieldsRead k body)
    (read .site (.site .reset) [] = some (.reset 2) ∧ read .site (.site .reset) [7] = some (.reject .site 2 .badLength 9)) ∧
      (read (.station 3) (.station .collect) (List.replicate 7 0x52) = some (.reject (.station 3) 2 .badLength 9) ∧
        read (.station 3) (.station .collect) ref.toList = some (.collect 3 2 ref) ∧ (List.replicate 7 (0x52 : Byte)).length ≠ 8) ∧
      framesOf (.terminal 0) .abort = [(⟨Config.recordKind .abort, 0, []⟩ : Frame).bytes] := by
  refine ⟨by decide, ⟨by decide, ?_, by decide⟩, rfl⟩
  rfl

/-- LOAD-SNACKS at fault: the place of the entry and then its field (R164; log 34). -/
theorem test_load_snacks_refused :
    leaves (exec (.loadSnacks 9 [⟨1, Vector.replicate 16 0x4E, 5000⟩, ⟨2, Vector.replicate 16 0x4E, 5001⟩]) shop)
      (fun t => (t.line .site).out) = some [.reply 9 .badField [.place 2, .field .unitPrice]] := by decide

/-- 5.3: the PAY that a terminal turns away is answered with its sale reference, the status behind it. -/
theorem test_selection_fails :
    leaves (exec (.selected 0 addr .busy) selecting) (fun t => (t.line (.station 0)).out) =
      some [.reply 5 .terminalBusy [.saleRef ⟨0, 17⟩, .selectStatus .busy]] := by decide

/-- 8.4: a receipt's seat line carries row, seat number, label, fare and fee. -/
theorem test_receipt :
    (after .confirmed .issued).printed (order .receipt .queued) =
      some (.receipt [⟨⟨2, 3⟩, Vector.replicate 12 0x41, 1230, 75⟩] [⟨popcorn.name, 1, 950⟩] 950 95 2160 85 137
        (sold .confirmed).auth 1 (some ⟨0, 17⟩) false) := by decide

/-- 9.4: the third wrong code locks the voucher. -/
theorem test_third_wrong_code :
    leaves (exec (.redeem 6 1 1 1124) (till (putVoucher 1 (stub .issued 2) (after .confirmed .issued))))
      (fun t => t.voucher 1) = some (some (stub .locked 3)) := by decide

/-- 7.4: CUT-DONE issues the stub's voucher. -/
theorem test_cut_done :
    leaves (exec (.cutDone 0) (printing [order (.stub 1) .awaitingCut] elsewhere))
      (fun t => (t.voucher 1, (t.lane 0).queue, (t.lane 0).cut)) = some (some (stub .issued 0), [], none) := by decide

/-! ### States and operands that meet the hypotheses of the statements -/

theorem test_hypotheses_of_StepTakesFront :
    ({ shop with pending := [.siteStatus 1, .powerOn] } : State).pending = .siteStatus 1 :: [.powerOn] := rfl

theorem test_hypotheses_of_IdleStepAndDeadlines :
    (shop.pending = [] ∧ shop.due = [] ∧ Line.all.filter shop.byteArrived = []) ∧
      (arrived.pending = [] ∧ arrived.due = [] ∧ arrived.byteArrived .site = true) ∧
      (atTime 10000 selecting).pending = [] ∧ gathers.holds.wf = true ∧ siteHeld.holds.wf = true := by decide

/-- Each kind of deadline at the millisecond it is reached, over the turn of the time base too, and the one before. -/
theorem test_deadlines_at_their_boundary :
    ((atTime 600 gathers).due = [.gatheringWindowExpiry 0] ∧ (atTime 599 gathers).due = []) ∧
      ((atTime 60000 siteHeld).due = [.ownDeadlineExpiry 0] ∧ (atTime 59999 siteHeld).due = []) ∧
      ((atTime 300000 shopping).due = [.lapseDeadlineReached 0] ∧ (atTime 299999 shopping).due = []) ∧
      ((atTime 5000 (printing [] none)).due = [.cutDeadline 0] ∧ (atTime 4999 (printing [] none)).due = []) ∧
      ((atTime 500 (printing [] elsewhere)).due = [.burstDeadline] ∧ (atTime 499 (printing [] elsewhere)).due = []) ∧
      (atTime 4 (setLane 0 { Lane.fresh with settling := some ⟨4294962300, 5000⟩ } shop)).due = [.settlingDeadline 0] := by decide

theorem test_payment_deadlines :
    (atTime 10000 selecting).due = [.selectStepDeadline 0] ∧
      (atTime 120000 (paying (payment .authorising true))).due = [.timeLimit 0] ∧
      (atTime 10000 (paying (payment .aborting true))).due = [.abortStepDeadline 0] ∧
      (atTime 10000 (paying (payment .reversing true))).due = [.reverseStepDeadline 0] ∧
      (atTime 10000 (paying (payment .capturing true))).due = [.captureStepDeadline 0] := by decide

theorem test_line_events_at_their_boundary :
    let watched (n : Nat) := setLine .site { shop.line .site with watch := some n } shop
    ((watched 100).due = [.lineLost .site] ∧ (watched 99).due = []) ∧
      ((receives (.terminal 3) (.receiving [2] 10) none shop).due = [.frameTimeout (.terminal 3)] ∧
        (receives (.terminal 3) (.receiving [2] 9) none shop).due = []) ∧
      ((receives (.station 7) .hunting (some ⟨1, 2, [], 10⟩) shop).due = [.trainTimeout (.station 7)] ∧
        (receives (.station 7) .hunting (some ⟨1, 2, [], 9⟩) shop).due = [] ∧
        (receives (.station 7) (.receiving [] 0) (some ⟨1, 2, [], 10⟩) shop).due = []) := by decide

/-- Each invariant holds at reset, and a step from there answers a next state. -/
theorem test_hypotheses_of_invariants :
    (TablesCanonical State.reset ∧ ReservationsFit State.reset ∧ PoolFits State.reset ∧ VouchersSound State.reset ∧
      RequestIsSelection State.reset ∧ PaymentsFreezeHolds State.reset ∧ LinkRanges State.reset) ∧
      ∃ t, step State.reset = .next t := by
  have idle : ∀ st, State.reset.payment st = none := by decide
  have quiet : ∀ st, State.reset.request st = none := by decide
  have errors : ∀ i : Fin 25, State.reset.lines[i].errors ≤ 65535 := by decide
  refine ⟨⟨⟨rfl, rfl, rfl, rfl⟩, ⟨rfl, by decide, by decide, by decide, by decide, ?_⟩, ⟨rfl, by decide⟩, ?_, ?_, ?_, ?_⟩, ⟨_, rfl⟩⟩
  · intro st p h; rw [idle st] at h; cases h
  · intro e h; cases h
  · intro st; simp [idle st, quiet st]
  · intro st h; simp [State.payIdle, idle st] at h
  · exact ⟨by decide, by decide, by decide, fun l => errors l.idx⟩

/-- The invariants over seats, stock and lanes hold at reset too. -/
theorem test_hypotheses_of_owner_and_stock_invariants :
    SeatsInOrder State.reset ∧ StockFits State.reset ∧ LanesFit State.reset ∧ SeatOwnersAgree State.reset := by
  obtain ⟨⟨tables, res, _, _, _, freeze, _⟩, _⟩ := test_hypotheses_of_invariants
  have vacant : ∀ st, State.reset.basket st = Basket.vacant := by decide
  have fresh : ∀ st, State.reset.lane st = Lane.fresh := by decide
  have idle : ∀ st, State.reset.payment st = none := by decide
  have units : ∀ code, State.reset.basketUnits code = 0 := fun _ => rfl
  have unnamed : ∀ i : Fin 24, State.reset.items[i] = Item.unnamed := by decide
  have summaries : SummariesMatchSnacks State.reset := by intro st m h; rw [vacant st] at h; cases h
  refine ⟨?_, ⟨?_, ?_, summaries⟩, ⟨freeze, summaries, ?_, ?_⟩, ⟨tables, res, freeze, by decide, ?_, ?_, ?_, ?_, ?_⟩⟩
  · intro e h; cases h
  · intro code x h
    rw [units code]
    unfold State.item at h
    split at h
    · cases (Option.some.inj h).symm.trans (unnamed ⟨code - 1, by omega⟩); exact ⟨by decide, by decide⟩
    · cases h
  · intro st; rw [vacant st]; decide
  · intro st m h; rw [vacant st] at h; cases h
  · intro st
    rw [fresh st, idle st]
    exact ⟨by decide, rfl, fun p h => by cases h⟩
  · intro n h hh; cases hh
  · intro n y h; cases h
  · intro st
    rw [vacant st, idle st]
    refine ⟨?_, fun r => ⟨?_, ?_⟩, ?_, ?_⟩
    · intro n h; cases h
    · rintro ⟨_, h, _⟩; cases h
    · rintro ⟨_, h, _⟩; cases h
    · intro m h; cases h
    · intro p h; cases h
  · intro slot sc h; cases h
  · intro st m n g h hg; cases hg

/-- Payments and reservations as a payment in SELECTING leaves them meet the invariants too. -/
theorem test_reservations_of_a_payment :
    selecting.inFlight = selecting.journalReserved ∧ selecting.uncommitted = selecting.salesReserved := by decide

theorem test_hypotheses_of_RecordsWaitOrDrop : (lost .site shop).isLost .site = true ∧ shop.isLost .site = false := by decide

theorem test_hypotheses_of_LinkUnitChecks :
    (selecting.request 0 = some ⟨.pay, 5⟩ ∧ ReqKind.price ≠ .status ∧ ReqKind.price ≠ .cancelPay) ∧
      (shop.request 0 = none ∧ roleAccepts (shop.station 0).role .redeem = false) ∧
      roleAccepts (shop.station 1).role .cancelPay = false ∧ shop.takes 0 .price = true ∧
      selecting.takes 0 .status = true ∧ selecting.takes 0 .cancelPay = true ∧
      ((till selecting).request 6 = none ∧ roleAccepts ((till selecting).station 6).role .pay = false) := by decide

set_option maxRecDepth 4000 in
theorem test_hypotheses_of_FramesChecked :
    (shop.line .site).errors ≤ 65535 ∧
      ((setLine .site { shop.line .site with errors := 65535 } shop).line .site).errors ≤ 65535 ∧
      frameInError (.badLength 253) = true ∧ frameInError (.badCheck [2, 1, 1] 0) = true ∧ frameInError .breakBegan = true ∧
      (Line.station 7).isLink = true ∧ Line.site.isLink = true := by decide

set_option maxRecDepth 8000 in
/-- Bodies of 250 bytes and of none, lengths outside 2 to 252, and a receiver before, at and past a frame's end, with a train
it goes on with and one it interrupts. -/
theorem test_hypotheses_of_FramesChecked_on_bytes :
    (⟨1, 2, List.replicate 250 0⟩ : Frame).body.length = 250 ∧ (⟨1, 2, []⟩ : Frame).body.length ≤ 250 ∧
      ((1 : Byte).toNat < 2 ∧ 252 < (253 : Byte).toNat) ∧ (0xA4 : Byte) ≠ 0xA5#8 ∧
      (let r := Receiver.hunting.takeAll ((⟨1, 2, []⟩ : Frame).bytes.take 5)
       let last := (crc16 (⟨1, 2, []⟩ : Frame).covered).extractLsb' 0 8
       r.verdict = .incomplete ∧ (r.take last).verdict = .good ⟨1, 2, []⟩ ∧
        (r.take (last + 1)).verdict = .bad (.badCheck [2, 1, 2] (crc16 [2, 1, 2] + 1))) ∧
      ((⟨1, 2, [], 0⟩ : Train).kind = (⟨1, 2, []⟩ : Frame).kind ∧ (⟨9, 2, [], 0⟩ : Train).kind ≠ (⟨1, 2, []⟩ : Frame).kind) := by
  decide

theorem test_hypotheses_of_ConfigStationTaken :
    (∀ b ∈ addr.toList, 0x20 ≤ b.toNat ∧ b.toNat ≤ 0x7E) ∧ shop.basketState 0 = .empty ∧ shop.gathering 0 = none ∧
      shop.payIdle 0 = true ∧ (shop.lane 0).queue = [] ∧
      ((lost (.printer 0) shop).isLost (.printer 0) = true ∧ (lost (.printer 0) shop).basketState 0 = .empty) := by decide

theorem test_hypotheses_of_LineLostValues :
    (shop.isLost .site = false ∧ shop.payment 0 = none ∧ shop.isLost (.terminal 0) = false) ∧
      (selecting.isLost (.terminal 0) = false ∧ selecting.payment 0 = some (payment .selecting false) ∧
        selecting.request 0 = some ⟨.pay, 5⟩ ∧ selecting.isLost (.station 0) = false) ∧
      (∀ p ∈ [payment .authorising true, payment .aborting true, payment .aborting false, payment .reversing true],
        (paying p).payment 0 = some p ∧ (paying p).isLost (.terminal 0) = false ∧ p.phase ≠ .capturing) ∧
      (let p : Payment := { payment .capturing true with sale := some 1, resSale := false }
       let s := setPay 0 ⟨17, some p⟩ (after .pending .printPending)
       s.payment 0 = some p ∧ s.sale 1 = some (sold .pending) ∧ s.isLost (.terminal 0) = false) := by decide

/-- The settling of the basket at the loss of a terminal line: on an UP and on a lost station link, with a basket overdue. -/
theorem test_hypotheses_of_LineLostValues_of_terminals :
    (selecting.gathering 0 = none ∧ (selecting.basket 0).overdue = false ∧ (selecting.station 0).role = .kiosk ∧
        selecting.isLost .site = false) ∧
      (∀ s ∈ [setBasket 0 { selecting.basket 0 with overdue := true } selecting, lost (.station 0) selecting],
        s.payment 0 = some (payment .selecting false) ∧ s.isLost (.terminal 0) = false ∧
          ((s.basket 0).overdue = true ∨ s.isLost (.station 0) = true) ∧ 0 ∈ (s.basket 0).holds ∧
          ((s.basket 0).snacks.map (·.item)).Nodup) := by decide

/-- 5.12: the terminal line of a kiosk is lost in SELECTING: the PAY is answered, and the site server is told. -/
theorem test_terminal_lost :
    leaves (exec (.lineLost (.terminal 0)) selecting) (fun t => ((t.line (.station 0)).out, (t.line .site).out, t.payment 0)) =
      some ([.reply 5 .lineDown [.saleRef ⟨0, 17⟩]], [.lineState (.terminal 0) .lost 0], none) := by decide

theorem test_hypotheses_of_LineLostValues_of_printers :
    ((printing [] none).isLost (.printer 0) = false ∧ ((printing [] none).station 0).role = .kiosk ∧
        ((printing [] none).lane 0).suspended = none) ∧
      ((suspended .jam).isLost (.printer 0) = false ∧ ((suspended .jam).lane 0).suspended = some .jam) ∧
      ((printing [order .receipt .started] (some ⟨0, 20, none⟩)).mover.burst = some ⟨0, 20, none⟩ ∧
        ((printing [order .receipt .started] (some ⟨0, 20, none⟩)).station 0).printer = true) ∧
      ((shop.station 1).role = .off ∧ shop.isLost (.printer 1) = false ∧ ((till shop).station 6).role = .till) := by decide

theorem test_hypotheses_of_StationLinkLost :
    (shopping.isLost (.station 0) = false ∧ shopping.payIdle 0 = true ∧ 0 ∈ (shopping.basket 0).holds ∧
        shopping.isLost .site = false) ∧
      (gathers.isLost (.station 0) = false ∧ gathers.payIdle 0 = true ∧ (gathers.gathering 0).isSome = true) ∧
      (selecting.isLost (.station 0) = false ∧ selecting.payIdle 0 = false ∧ selecting.gathering 0 = none) ∧
      (let both := putHold 1 gathered selecting
       both.isLost (.station 0) = false ∧ both.payIdle 0 = false ∧ both.gathering 0 = some (1, gathered) ∧
        both.hold 1 = some gathered) := by decide

theorem test_hypotheses_of_RegainsAndBreaks :
    (lost (.printer 0) (suspended .lineLost)).isLost (.printer 0) = true ∧
      (lost (.printer 0) (suspended .lineLost)).isLost .site = false ∧ (lost .site shop).isLost .site = true ∧
      (shop.isLost (.terminal 7) = false ∧ (shop.line (.terminal 7)).receiver = .hunting) ∧
      (let s := receives (.terminal 7) (.receiving [4, 1] 3) none shop
       s.isLost (.terminal 7) = false ∧ (s.line (.terminal 7)).receiver = .receiving [4, 1] 3 ∧
        (s.line (.terminal 7)).errors ≤ 65535) := by decide

theorem test_hypotheses_of_RecordLeaves :
    let cut := setLine (.printer 0) { shop.line (.printer 0) with out := [.cut] } shop
    let last := setLine (.printer 1) { shop.line (.printer 1) with out := [.lines 32 30 [⟨none, 31⟩, ⟨none, 32⟩], .cut] } (printing [] elsewhere)
    (cut.line (.printer 0)).out = OutRec.cut :: [] ∧
      ((last.line (.printer 1)).out = .lines 32 30 [⟨none, 31⟩, ⟨none, 32⟩] :: [.cut] ∧
        last.mover.burst = some ⟨1, 32, some ⟨0, 500⟩⟩ ∧ 30 + 2 = 32 ∧ ∀ m j more, OutRec.lines m j more ∉ [OutRec.cut]) ∧
      (∀ b, cut.mover.burst = some b → False) ∧ (3 + 3 ≠ 32 ∧ Line.printer 0 ≠ .printer 1) ∧
      (∀ tag code vals, OutRec.cut ≠ .reply tag code vals) ∧ (∀ tag reason kind, OutRec.cut ≠ .reject tag reason kind) := by
  refine ⟨by decide, ⟨by decide, by decide, by decide, by simp⟩, fun b h => ?_, by decide, ?_, ?_⟩
  · cases (show (none : Option Burst) = some b from h)
  all_goals (intros; intro h; cases h)

theorem test_hypotheses_of_LoadingTaken :
    ((∀ x ∈ (Vector.replicate 8 20000 : Vector Nat 8).toList, x ≤ 20000) ∧ shop.screening 32 = none ∧ 800 ≤ shop.poolFree) ∧
      (let runs : List RunSpec := [⟨80, 1, 7, [some .house]⟩]
       (∀ r ∈ runs, 1 ≤ r.count ∧ 1 ≤ r.first ∧ r.first + r.count ≤ 81 ∧ r.cls < 8 ∧ r.kinds.length = r.count ∧
          ∀ k ∈ r.kinds, k ≠ none) ∧
        (loading.screening 32).any (fun sc => decide (sc.phase = .loading ∧ (∀ x ∈ sc.seats, x.row ≠ 40) ∧
          sc.runCount + runs.length ≤ 160 ∧ sc.loaded + (runs.map (·.count)).sum ≤ sc.declared)) = true ∧
        (runs.flatMap (fun r => (List.range r.count).map (r.first + ·))).Nodup) := by decide

theorem test_hypotheses_of_EndLoadAndStopSales :
    shop.screening 32 = none ∧ (slotIn .loading).screening 7 = some { hall .free .free .free .free with phase := .loading } ∧
      (slotIn .opened).screening 7 = some (hall .free .free .free .free) ∧
      (slotIn .stopped).screening 7 = some { hall .free .free .free .free with phase := .stopped } ∧
      (loading.screening 32).any (fun sc => decide (sc.phase = .loading ∧ sc.loaded < sc.declared)) = true := by decide

theorem test_hypotheses_of_RetireScreeningTaken :
    (slotIn .loading).screening 7 = some { hall .free .free .free .free with phase := .loading } ∧
      ((after .confirmed .issued).screening 7 = some (hall .free .free (.sold 1) .free) ∧
        (∀ e ∈ (after .confirmed .issued).holds, e.2.slot ≠ 7) ∧
        (∀ e ∈ (after .confirmed .issued).sales, e.2.capture ≠ .pending) ∧
        ∀ st, ((after .confirmed .issued).lane st).queue = []) := by decide

theorem test_hypotheses_of_BlockingTaken :
    (shop.screening 7 = some (hall .free .free .free .free) ∧ (hall .free .free .free .free).phase ≠ .loading) ∧
      shop.screening 32 = none ∧ (slotIn .loading).screening 7 = some { hall .free .free .free .free with phase := .loading } ∧
      shop.seat 7 ⟨2, 5⟩ = none ∧ shop.seat 7 ⟨2, 4⟩ = some (seat 4 1 4 .ordinary .free) := by decide

theorem test_hypotheses_of_QueriesAnswerOk :
    shop.screening 7 = some (hall .free .free .free .free) ∧ (hall .free .free .free .free).phase ≠ .loading ∧
      shop.takes 0 .queryMap = true ∧ (after .confirmed .issued).sale 1 = some (sold .confirmed) ∧
      (till (after .confirmed .issued)).takes 6 .queryVoucher = true ∧
      (till (after .confirmed .issued)).voucher 1 = some (stub .issued 0) ∧
      (∃ run ∈ shop.rowView 0 (hall .free .free .free .free) 2, run.count = 4) ∧
      ((seat 4 1 4 .ordinary (.held 0)).state = .held 0 ∧ (siteHeld.hold 0).map (·.owner) = some .site ∧
        (gathers.hold 0).map (·.owner) = some (.station 0)) := by decide

theorem test_hypotheses_of_HoldSeatAdds :
    (shop.takes 0 .holdSeat = true ∧ shop.payIdle 0 = true ∧ shop.slotState 7 = .opened ∧
        shop.seat 7 ⟨2, 4⟩ = some (seat 4 1 4 .ordinary .free) ∧ (∀ e ∈ shop.holds, e.2.owner = .station 0 → e.2.slot = 7) ∧
        holdSeats (shop.holdsOf (.station 0)) < 10 ∧ shop.gathering 0 = none ∧ (shop.holdsOf (.station 0)).length < 4 ∧
        shop.hold 0 = none ∧ ∀ m < 0, shop.hold m ≠ none) ∧
      (gathers.takes 0 .holdSeat = true ∧ gathers.slotState 7 = .opened ∧
        gathers.seat 7 ⟨2, 3⟩ = some (seat 3 1 3 .ordinary .free) ∧ (∀ e ∈ gathers.holds, e.2.owner = .station 0 → e.2.slot = 7) ∧
        holdSeats (gathers.holdsOf (.station 0)) < 10 ∧
        gathers.gathering 0 = some (0, gathered)) := by decide

theorem test_hypotheses_of_ClosePasses :
    gathers.gathering 0 = some (0, gathered) ∧
      gathers.hold 0 = some gathered ∧ gathers.screening 7 = some (hall .free .free .free (.pending 0)) ∧
      judge (hall .free .free .free (.pending 0)) gathered.seats = .ok gathered.seats ∧ gathered.window.isSome = true ∧
      gathers.takes 0 .holdClose = true ∧ gathers.isLost (.station 0) = false := by decide

/-- An EMPTY and an OPEN basket that a hold joins; and of the default category a seat of another kind, no tariff, a companion-only
category that is the lowest, and none. -/
theorem test_hypotheses_of_ClosePasses_on_baskets :
    ((gathers.basket 0).holds = [] ∧ (gathers.basket 0).snacks = []) ∧
      (let s := putHold 1 gathered (setBasket 0 oneSeat gathers); (s.basket 0).holds ≠ []) ∧
      (gathers.kindOf ⟨7, 2, 4⟩ ≠ .companion ∧ State.reset.tariff = none) ∧
      (gathers.kindOf ⟨7, 2, 2⟩ = .companion ∧ gathers.tariff = some matinee ∧
        matinee.cats.Pairwise (fun c d => c.num < d.num) ∧ carer ∈ matinee.cats ∧ carer.companionOnly = true ∧
        (∀ d ∈ matinee.cats, d.companionOnly = true → carer.num ≤ d.num)) ∧
      (∀ c ∈ [adult, child], c.companionOnly = false) := by decide

/-- The default category of the companion seat and the basket that opens, one hold time ahead. -/
theorem test_close_opens_basket :
    leaves (exec (.holdClose 0 9) (putHold 0 { gatheredCarer with seats := [⟨2, 2⟩, ⟨2, 1⟩] } gathersCarer)) (fun t => t.basket 0) =
      some { Basket.vacant with
        holds := [0], seatLines := [⟨⟨7, 2, 2⟩, 2⟩, ⟨⟨7, 2, 1⟩, 0⟩], lapse := some ⟨0, 300000⟩, openHold := 300 } := by decide

theorem test_hypotheses_of_CompanionRuleAndFailedClose :
    ((∃ x ∈ (hall .free .free .free .free).seats, x.pos ∈ [⟨2, 1⟩, ⟨2, 2⟩] ∧ x.kind = .wheelchair) ∧
        (∀ x ∈ (hall .free .free .free .free).seats, x.pos ∈ [⟨2, 3⟩] → x.kind ≠ .companion)) ∧
      ((hall .free .free .free .free).seats =
          [seat 1 1 1 .wheelchair .free] ++ seat 2 1 2 .companion .free :: [seat 3 1 3 .ordinary .free, seat 4 1 4 .ordinary .free] ∧
        (∀ y ∈ [seat 1 1 1 .wheelchair .free], y.pos ∈ [⟨2, 2⟩] → y.kind ≠ .companion) ∧
        (∀ y ∈ (hall .free .free .free .free).seats, y.pos ∈ [⟨2, 2⟩] → y.kind ≠ .wheelchair)) ∧
      (gathersCarer.gathering 0 = some (0, gatheredCarer) ∧ gathersCarer.hold 0 = some gatheredCarer ∧
        gathersCarer.screening 7 = some (hall .free (.pending 0) .free .free) ∧
        judge (hall .free (.pending 0) .free .free) gatheredCarer.seats = .companion ⟨2, 2⟩ ∧
        CloseResult.companion ⟨2, 2⟩ ≠ .ok gatheredCarer.seats ∧ gatheredCarer.window.isSome = true ∧
        gathersCarer.takes 0 .holdClose = true) ∧
      (shop.takes 0 .holdClose = true ∧ shop.gathering 0 = none) := by decide

/-- Seat 3 is stranded between seats 2 and 4 when those are listed; with the rule off, or none stranded, the seats pass. -/
theorem test_hypotheses_of_the_gap_rule :
    let sc := hall .free .free .free .free
    let ps : List SeatPos := [⟨2, 1⟩, ⟨2, 2⟩, ⟨2, 4⟩]
    (1 ≤ (seat 3 1 3 .ordinary .free).runPos ∧ companionFault sc ps = none ∧ sc.gapRule = true) ∧
      (sc.seats = [seat 1 1 1 .wheelchair .free, seat 2 1 2 .companion .free] ++ seat 3 1 3 .ordinary .free ::
          [seat 4 1 4 .ordinary .free] ∧
        (∀ y ∈ [seat 1 1 1 .wheelchair .free, seat 2 1 2 .companion .free], stranded sc ps y = false) ∧
        stranded sc ps (seat 3 1 3 .ordinary .free) = true ∧ gapFault sc ps = some ⟨2, 3⟩) ∧
      (∀ x ∈ sc.seats, stranded sc [⟨2, 4⟩] x = false) ∧ ({ sc with gapRule := false }).gapRule = false ∧
      companionFault sc [⟨2, 2⟩] = some ⟨2, 2⟩ := by decide

theorem test_hypotheses_of_DropHoldTaken :
    (gathers.takes 0 .dropHold = true ∧ gathers.payIdle 0 = true ∧ gathers.hold 0 = some gathered ∧
        gathered.owner = .station 0 ∧ gathered.phase = .gathering) ∧
      (shopping.takes 0 .dropHold = true ∧ shopping.payIdle 0 = true ∧
        shopping.hold 0 = some (holdOf (.station 0) [⟨2, 3⟩] .standing none none none)) ∧
      ((shopping.basket 0).snacks ≠ [] ∧ (lastHold.basket 0).holds.filter (fun m => m ≠ 0) = [] ∧
        (lastHold.basket 0).snacks = [] ∧ lastHold.holds.wf = true ∧ lastHold.gathering 0 = none) ∧
      (lastHold.takes 0 .dropHold = true ∧ lastHold.payIdle 0 = true ∧ lastHold.hold 0 = shopping.hold 0 ∧
        (putHold 1 gathered lastHold).hold 0 = shopping.hold 0 ∧ (putHold 1 gathered lastHold).holds.wf = true ∧
        (putHold 1 gathered lastHold).gathering 0 = some (1, gathered)) := by decide

/-- The last hold dropped: the basket is EMPTY, the gathering hold is gone, and the reply counts the seats of the hold named
(R34, R58). -/
theorem test_drop_last_hold :
    let s := putHold 1 gathered (putScreening 7 (hall .free .free (.held 0) (.pending 1)) lastHold)
    leaves (exec (.dropHold 0 9 0) s) (fun t => (t.basket 0, t.screening 7)) =
        some (Basket.vacant, some (hall .free .free .free .free)) ∧
      leaves (exec (.dropHold 0 9 0) s) (fun t => (t.hold 0, t.hold 1, (t.line (.station 0)).out)) =
        some (none, none, [.reply 9 .ok [.holdNumber 0, .seatsReleased 1]]) := by decide

set_option maxRecDepth 8000 in
/-- A change taken first in the millisecond of a deadline at the cap: a deadline of 0 ms, and one of 1 ms a millisecond before
(R55; log 32). -/
theorem test_lapse_at_the_cap :
    let b : Basket := { oneSeat with openHold := 1 }
    lapseAfterChange (atTime 3000 shopping) b = ⟨3000, 0⟩ ∧ lapseAfterChange (atTime 2999 shopping) b = ⟨2999, 1⟩ := by decide

theorem test_hypotheses_of_SiteHoldTaken :
    ([⟨2, 4⟩] : List SeatPos).Nodup ∧ shop.screening 7 = some (hall .free .free .free .free) ∧
      (hall .free .free .free .free).seat ⟨2, 4⟩ = some (seat 4 1 4 .ordinary .free) ∧ (shop.holdsOf .site).length < 32 ∧
      judge (hall .free .free .free .free) [⟨2, 4⟩] = .ok [⟨2, 4⟩] ∧ shop.hold 0 = none := by decide

theorem test_hypotheses_of_ReleasesAndSiteHoldEnds :
    let h := holdOf .site [⟨2, 4⟩] .standing none (some ⟨0, 60000⟩) (some ref)
    (siteHeld.hold 0 = some h ∧ h.owner = .site ∧ h.ref = some ref ∧ h.own.isSome = true) ∧
      (gathers.hold 0 = some gathered ∧ gathered.owner ≠ .site) ∧ siteHeld.hold 63 = none ∧
      (seat 4 1 4 .ordinary (.held 0)).state = .held 0 ∧ (seat 4 1 4 .ordinary (.pending 0)).mark = false := by decide

theorem test_hypotheses_of_CategoriesAndPrice :
    (shopping.takes 0 .setCategory = true ∧ shopping.payIdle 0 = true ∧
        (∃ l ∈ (shopping.basket 0).seatLines, l.ref = ⟨7, 2, 3⟩) ∧ shopping.tariff = some matinee ∧
        matinee.cats.find? (fun d => d.num = 1) = some child ∧
        (child.companionOnly = true ↔ shopping.kindOf ⟨7, 2, 3⟩ = .companion)) ∧
      (shopping.takes 0 .price = true ∧ (shopping.basket 0).hollow = false ∧ shopping.gathering 0 = none ∧
        (shopping.basket 0).seatLines = [⟨⟨7, 2, 3⟩, 0⟩] ∧ matinee.cats.find? (fun d => d.num = 0) = some adult ∧
        (adult.companionOnly = true ↔ shopping.kindOf ⟨7, 2, 3⟩ = .companion)) := by decide

theorem test_hypotheses_of_SnackLinesChanged :
    (∀ s ∈ [shopping, shop], s.takes 0 .addSnack = true ∧ s.item 1 = some popcorn ∧ s.payIdle 0 = true ∧
        addPassesLimit (s.basket 0).snacks 1 7 = false ∧ popcorn.issued + popcorn.reserved + 7 ≤ popcorn.allowance ∧
        s.vouchers.length + s.reservedUnits + 7 ≤ 2048) ∧
      ((shop.basket 0).holds = [] ∧ (shop.basket 0).snacks = [] ∧ (shopping.basket 0).holds ≠ [] ∧
        shopping.isLost (.station 0) = false) ∧
      (shopping.takes 0 .removeSnack = true ∧ (shopping.basket 0).snacks.find? (fun y => y.item = 1) = some ⟨1, 2⟩ ∧
        (shopping.basket 0).holds ≠ []) ∧
      (let b := setBasket 0 { oneSeat with holds := [], seatLines := [] } shopping
       b.takes 0 .removeSnack = true ∧ (b.basket 0).holds = [] ∧
        ((b.basket 0).snacks.map (fun y => if y.item = 1 then { y with qty := y.qty - 2 } else y)).filter (fun y => 0 < y.qty) = []) := by
  decide

theorem test_hypotheses_of_EmptyingAndLapse :
    (shopping.payIdle 0 = true ∧ shopping.takes 0 .abandon = true ∧ (shopping.basket 0).lapse.isSome = true ∧
        shopping.isLost (.station 0) = false) ∧
      (selecting.payIdle 0 = false ∧ (selecting.basket 0).lapse.isSome = true) := by decide

theorem test_hypotheses_of_PriceArithmetic :
    (let m := pricing matinee [⟨⟨7, 2, 3⟩, 0⟩] [] shop; ∃ x ∈ m.seats, 0 < x.fare) ∧
      (let m := pricing matinee [⟨⟨7, 2, 2⟩, 2⟩] [] shop; ∀ x ∈ m.seats, x.fare = 0) ∧
      (shop.screening 7 = some (hall .free .free .free .free) ∧ shop.seat 7 ⟨2, 3⟩ = some (seat 3 1 3 .ordinary .free) ∧
        matinee.cats.find? (fun d => d.num = 1) = some child ∧ shop.item 1 = some popcorn) := by decide

theorem test_hypotheses_of_ChargedValuesSumToSnackNet : matinee.combo ≤ 500 := by decide

theorem test_hypotheses_of_LoadsTaken :
    tariffFault { matinee with cats := [carer, child, adult] } = none ∧
      (∀ e ∈ ([⟨24, Vector.replicate 16 0x4E, 5000⟩] : List SnackEntry), 1 ≤ e.item ∧ e.item ≤ 24 ∧ e.price ≤ 5000) ∧
      ([24] : List Nat).Nodup ∧ selecting.basketState 0 = .paying ∧
      (priced.basketState 0 ≠ .paying ∧ (priced.basket 0).summary.isSome = true ∧ priced.payIdle 0 = true) := by decide

/-- A load sends PRICE-STALE to the idle station whose summary goes, and the reply to the site server (R61, R67). -/
theorem test_load_tells :
    leaves (exec (.loadTariff 9 matinee) priced) (fun t => ((t.line (.station 0)).out, (t.line .site).out)) =
        some ([.priceStale .tariff], [.reply 9 .ok [.tariffId 2]]) ∧
      leaves (exec (.loadSnacks 9 [⟨24, Vector.replicate 16 0x4E, 5000⟩]) selecting)
          (fun t => ((t.line (.station 0)).out, (t.line .site).out)) =
        some ([], [.reply 9 .ok [.itemsChanged 1]]) := by decide

theorem test_hypotheses_of_PayAccepted :
    priced.takes 0 .pay = true ∧ priced.payIdle 0 = true ∧ priced.gathering 0 = none ∧ (priced.basket 0).hollow = false ∧
      (priced.basket 0).summary = some bill ∧ bill.total ≠ 0 ∧ (priced.basket 0).attempts ≠ 3 ∧
      priced.isLost (.terminal 0) = false ∧ priced.sales.length + priced.salesReserved < 2048 ∧
      priced.journal.length + priced.journalReserved < 512 ∧
      (priced.lane 0).queue.length + (priced.lane 0).reservedRoom +
        ((priced.basket 0).seatLines.length + ((priced.basket 0).snacks.map (·.qty)).sum + 1) ≤ 32 := by decide

theorem test_hypotheses_of_SelectionJudged :
    selecting.payment 0 = some (payment .selecting false) ∧ (payment .selecting false).phase = .selecting ∧
      (payment .selecting false).cause = none ∧ (payment .selecting false).asked = false ∧
      (payment .selecting false).resSale = true ∧ (payment .selecting false).resJournal = true ∧
      selecting.request 0 = some ⟨.pay, 5⟩ ∧ selecting.isLost (.station 0) = false ∧
      (payment .selecting false).step.isSome = true ∧ Vector.replicate 4 0x20 ≠ (selecting.station 0).addr ∧
      SelectStatus.busy ≠ .ready := by decide

/-- The rows of Table 3-6: overdue, link lost, a load during the payment, and none of them. -/
theorem test_settling_of_baskets :
    let set (f : Basket → Basket) : State := modifyBasket 0 f selecting
    (((set (fun b => { b with overdue := true })).basket 0).overdue = true ∧ (lost (.station 0) selecting).isLost (.station 0) = true) ∧
      (((set (fun b => { b with payLoad := some .snacks })).basket 0).payLoad.isSome = true ∧
        ((set (fun b => { b with payLoad := some .snacks })).basket 0).overdue = false) ∧
      ((selecting.basket 0).overdue = false ∧ (selecting.basket 0).payLoad = none ∧ selecting.isLost (.station 0) = false ∧
        selecting.gathering 0 = none) ∧
      ((∀ n ∈ (selecting.basket 0).holds, (selecting.hold n).isSome = true) ∧
        ((selecting.basket 0).snacks.map (·.item)).Nodup ∧ selecting.item 1 = some popcorn ∧
        selecting.seat 7 ⟨2, 3⟩ = some (seat 3 1 3 .ordinary (.held 0))) := by decide

/-- A PAY that a cancel reached before its terminal answered. -/
theorem test_hypotheses_of_SelectionJudged_after_a_cancel :
    let s := setPayment 0 (some { payment .selecting false with cause := some .cancel }) selecting
    (s.payment 0).any (fun p => decide (p.phase = .selecting ∧ p.cause.isSome = true)) = true ∧ s.request 0 = some ⟨.pay, 5⟩ := by
  decide

theorem test_hypotheses_of_AuthorisationReports :
    let s := paying (payment .authorising true)
    let p := payment .authorising true
    s.payment 0 = some p ∧ p.phase = .authorising ∧ p.asked = true ∧ p.reported = false ∧ p.resSale = true ∧
      p.resJournal = true ∧ s.isLost (.station 0) = false ∧ shop.payment 0 = none ∧ (s.basket 0).overdue = false ∧
      s.gathering 0 = none := by decide

theorem test_hypotheses_of_ApprovalCommits :
    let s := paying (payment .authorising true)
    s.payment 0 = some (payment .authorising true) ∧ (s.basket 0).summary = some bill ∧ s.sales.wf = true ∧
      s.sales.length ≤ 2048 ∧ 1 ≤ s.nextSale ∧ s.nextSale ≤ 65535 ∧ s.isLost (.terminal 0) = false ∧
      s.isLost (.station 0) = false ∧ s.mover.burst = none ∧ bill.tariffId = s.tariffId ∧ s.tariff = some matinee ∧
      (s.basket 0).holds.head? = some 0 ∧ s.hold 0 = some (holdOf (.station 0) [⟨2, 3⟩] .standing none none none) ∧
      s.item 1 = some popcorn ∧ s.vouchers.length + (chargedValues bill).length ≤ 999999 := by decide

/-- The units of an approval pass from the reserved to the issued count, and its vouchers carry the charged values (R170, R80). -/
theorem test_approval_units :
    let o := exec (.outcome 0 (.approved (Vector.replicate 6 0x39) 1234)) (paying (payment .authorising true))
    leaves o (fun t => t.item 1) = some (some { popcorn with reserved := 0, issued := 3 }) ∧
      leaves o (fun t => (t.voucher 2).map (fun v => (v.value, v.code))) = some (some (855, 2119)) := by decide

theorem test_hypotheses_of_AbortAskedAndSettled :
    ((paying (payment .authorising true)).payment 0 = some (payment .authorising true) ∧
        (paying (payment .authorising true)).takes 0 .cancelPay = true ∧ (payment .authorising true).limit.isSome = true ∧
        (paying (payment .authorising true)).isLost (.station 0) = false) ∧
      ((paying (payment .aborting true)).payment 0 = some (payment .aborting true) ∧ (payment .aborting true).phase = .aborting ∧
        (∀ code tail, TermOutcome.declined 5 ≠ .approved code tail) ∧ (payment .aborting true).resJournal = true ∧
        (paying (payment .aborting true)).isLost (.station 0) = false) := by
  refine ⟨by decide, by decide, by decide, ?_, by decide, by decide⟩
  intro _ _ h; cases h

/-- CANCEL-PAY in each state of a context (Table 5-8). -/
theorem test_hypotheses_of_CANCEL_PAY :
    (shop.takes 0 .cancelPay = true ∧ shop.payment 0 = none) ∧
      (selecting.takes 0 .cancelPay = true ∧ selecting.payment 0 = some (payment .selecting false) ∧
        (payment .selecting false).cause = none) ∧
      (let p := { payment .selecting false with cause := some AbortCause.cancel }
       (setPayment 0 (some p) selecting).takes 0 .cancelPay = true ∧ (setPayment 0 (some p) selecting).payment 0 = some p) ∧
      (∀ ph ∈ [PayPhase.aborting, .reversing], (paying (payment ph true)).takes 0 .cancelPay = true ∧
        (paying (payment ph true)).payment 0 = some (payment ph true)) ∧
      (let p : Payment := { payment .capturing true with sale := some 1 }
       (paying p).takes 0 .cancelPay = true ∧ (paying p).payment 0 = some p ∧ p.sale = some 1) := by decide

/-- The states and payments of AbortAskedAndSettled, with REVERSING and CAPTURING beside ABORTING. -/
theorem test_hypotheses_of_ReversalAndCaptureRecorded :
    (∀ ph ∈ [PayPhase.aborting, .reversing], (paying (payment ph true)).payment 0 = some (payment ph true) ∧
        (payment ph true).asked = true ∧ (payment ph true).phase = ph ∧ (payment ph true).step.isSome = true) ∧
      ((paying (payment .aborting false)).payment 0 = some (payment .aborting false) ∧
        (payment .aborting false).asked = false ∧ (payment .aborting false).resJournal = true ∧
        (payment .aborting false).step.isSome = true) ∧
      (let p : Payment := { payment .capturing true with sale := some 1, resSale := false }
       (setPay 0 ⟨17, some p⟩ (after .pending .printPending)).payment 0 = some p ∧ p.phase = .capturing ∧ p.step.isSome = true ∧
        (setPay 0 ⟨17, some p⟩ (after .pending .printPending)).sale 1 = some (sold .pending)) := by decide

theorem test_hypotheses_of_SiteSellTaken :
    siteHeld.hold 0 = some (holdOf .site [⟨2, 4⟩] .standing none (some ⟨0, 60000⟩) (some ref)) ∧
      (∀ l ∈ ([⟨1, 2⟩] : List SnackLine), 1 ≤ l.item ∧ l.item ≤ 24 ∧ 1 ≤ l.qty ∧ l.qty ≤ 9) ∧ ([1] : List Nat).Nodup ∧
      siteHeld.tariff = some matinee ∧ matinee.cats.find? (fun d => d.num = 1) = some child ∧
      (child.companionOnly = true ↔ siteHeld.kindOf ⟨7, 2, 4⟩ = .companion) ∧
      siteHeld.sales.length + siteHeld.salesReserved < 2048 ∧ siteHeld.journal.length + siteHeld.journalReserved < 512 ∧
      siteHeld.item 1 = some popcorn ∧ popcorn.issued + popcorn.reserved + 2 ≤ popcorn.allowance ∧
      siteHeld.vouchers.length + siteHeld.reservedUnits + 2 ≤ 2048 ∧ 1 ≤ siteHeld.nextSale ∧ siteHeld.nextSale ≤ 65535 ∧
      siteHeld.isLost .site = false := by decide

/-- The second unit of a SITE-SELL brings the item to its low mark: LOW-STOCK goes out before the reply. -/
theorem test_site_sell_reply :
    let s := setItem 1 { popcorn with lowMark := 35 } siteHeld
    let o := exec (.siteSell 9 0 ref [1] [⟨1, 2⟩]) s
    leaves o (fun t => (t.line .site).out.map (fun r => match r with
      | .reply tag c _ => (tag, some c)
      | _ => (0, none))) = some [(0, none), (9, some .ok)] ∧
      leaves o (fun t => t.item 1) = some (some { popcorn with lowMark := 35, issued := 3, armed := false }) := by decide

theorem test_hypotheses_of_RefundTaken :
    (after .confirmed .issued).sale 1 = some (sold .confirmed) ∧ (sold .confirmed).state = .active ∧
      (sold .confirmed).capture ≠ .pending ∧
      (after .confirmed .issued).journal.length + (after .confirmed .issued).journalReserved < 512 ∧
      (after .confirmed .issued).isLost .site = false ∧
      ((after .confirmed .issued).seat 7 ⟨2, 3⟩).isSome = true ∧
      (after .confirmed .issued).voucher 1 = some (stub .issued 0) ∧ (after .confirmed .issued).item 1 = some popcorn ∧
      (∀ v ∈ [VoucherState.redeemed 6 9, .void], (after .confirmed v).voucher 1 = some (stub v 0) ∧
        (after .confirmed v).sale 1 = some (sold .confirmed)) ∧
      (∀ l ∈ (sold .confirmed).seats, l.ref ≠ ⟨7, 2, 4⟩) ∧ 2 ∉ (sold .confirmed).serials := by decide

/-- A refund lowers the issued count for its counted voucher that is voided, and not for one that is REDEEMED (R178). -/
theorem test_refund_counts :
    leaves (exec (.refund 9 1) (after .confirmed .locked)) (fun t => t.item 1) = some (some { popcorn with issued := 0 }) ∧
      leaves (exec (.refund 9 1) (after .confirmed (.redeemed 6 9))) (fun t => t.item 1) = some (some popcorn) := by decide

theorem test_hypotheses_of_JournalCollected :
    let r (n : Nat) : JournalRec := ⟨n, 0, some 1, 855, .redemption 1 1 6⟩
    let s : State := { shop with journal := [r 7, r 8, r 9] }
    (s.journal = [r 7] ++ r 8 :: [r 9] ∧ (∀ q ∈ [r 7], q.seq ≠ 8) ∧ (r 8).seq = 8 ∧ [r 9].length + s.journalReserved < 448) ∧
      ∀ q ∈ s.journal, q.seq ≠ 10 := by decide

theorem test_hypotheses_of_AllowanceAndLowNotice :
    shop.item 1 = some popcorn ∧ popcorn.lowMark < popcorn.allowance - popcorn.issued - popcorn.reserved ∧
      (∀ b ∈ [true, false], let x : Item := { popcorn with allowance := 8, armed := b }
        (setItem 1 x shop).item 1 = some x ∧ x.allowance - x.issued - x.reserved ≤ x.lowMark ∧ x.armed = b) := by decide

theorem test_hypotheses_of_SeedAndUnlock :
    shop.vouchers = [] ∧ (after .confirmed .issued).vouchers ≠ [] ∧
      ((after .confirmed .locked).voucher 1 = some (stub .locked 0) ∧
        ∀ st, ∀ o ∈ ((after .confirmed .locked).lane st).queue, o.item ≠ .stub 1) ∧
      ((after .confirmed .issued).voucher 1 = some (stub .issued 0) ∧ (stub .issued 0).state ≠ .locked) := by decide

theorem test_hypotheses_of_RedeemJudged :
    let s := till (after .confirmed .issued)
    s.takes 6 .redeem = true ∧ (stub .issued 0).code ≤ 9972 ∧ s.voucher 1 = some (stub .issued 0) ∧
      s.journal.length + s.journalReserved < 512 ∧ 1124 ≠ (stub .issued 0).code ∧ (stub .issued 0).wrong + 1 < 3 ∧
      ((putVoucher 1 (stub .issued 2) s).takes 6 .redeem = true ∧
        (putVoucher 1 (stub .issued 2) s).voucher 1 = some (stub .issued 2) ∧ (stub .issued 2).wrong + 1 = 3) := by decide

theorem test_hypotheses_of_PrintRequestsTaken :
    (let s := printing [] elsewhere
     s.sale 1 = some (sold .confirmed) ∧ (∃ l ∈ (sold .confirmed).seats, l.ref = ⟨7, 2, 3⟩) ∧ 1 ∈ (sold .confirmed).serials ∧
      s.isRedeemed 1 = false ∧ (s.station 0).role = .kiosk ∧ (∀ b, ∀ o ∈ (s.lane b).queue, o.sale = 1 → o.item ≠ .stub 1) ∧
      s.generationOf (.ticket ⟨7, 2, 3⟩) < 3 ∧ s.generationOf (.stub 1) < 3 ∧
      (s.lane 0).queue.length + (s.lane 0).reservedRoom < 32 ∧ s.mover.burst.isSome = true) ∧
    (let s := putSale 2 booked (printing [] elsewhere)
     s.takes 0 .collect = true ∧ s.booked ref = [] ++ (2, booked) :: [] ∧ s.collectable booked = true ∧ s.sale 2 = some booked ∧
      (s.lane 0).queue.length + (s.lane 0).reservedRoom + 1 ≤ 32) := by decide

/-- A lane that comes to request the mover: in BURST, while it does not request, and with an IDLE mover that grants to it with a
burst and, its one order being of a refunded sale, without. -/
theorem test_hypotheses_of_ComesToRequest :
    (printing [order .receipt .queued] elsewhere).mover.burst.isSome = true ∧ (printing [] none).requesting 0 = false ∧
      (let s := printing [order .receipt .queued] none
       let gone := putSale 1 { sold .confirmed with state := .refunded 2160 } s
       (s.mover.burst = none ∧ s.requesting 0 = true ∧ (grant 0 s).2 = true) ∧
        (gone.mover.burst = none ∧ gone.requesting 0 = true ∧ (grant 0 gone).2 = false)) := by decide

theorem test_hypotheses_of_ResumePrintTaken :
    ∀ k ∈ [FaultKind.paperOut, .headOpen, .jam, .markMissed, .lineLost, .noAnswer],
      ((suspended k).lane 0).suspended = some k ∧ ((suspended k).lane 0).clearFlag = true ∧
        (suspended k).takes 0 .resumePrint = true := by decide

/-- Under JAM the sale's orders go together: one PRINT-LIMIT, and PRINT-DONE as its outstanding count reaches 0 (R147, R157, R158). -/
theorem test_resume_suppresses :
    leaves (exec (.resumePrint (.site 0) 9) (suspended .jam))
      (fun t => ((t.lane 0).queue, (t.sale 1).map (·.outstanding), (t.line (.station 0)).out, (t.line .site).out)) =
      some ([], some 0, [.printDone 1 .active (some (1, 1))],
        [.printLimit 1 0 .suppressed [.stub 1, .receipt], .reply 9 .ok [.requeued 0, .dropped 2]]) := by decide

/-- With an IDLE mover, a lane resumed under PAPER_OUT has its first order granted before the reply (R134, R146). -/
theorem test_resume_grants :
    leaves (exec (.resumePrint (.station 0) 9) (setMover { burst := none, last := 7 } (suspended .paperOut)))
      (fun t => ((t.lane 0).queue.map (·.status), t.mover.burst, (t.line (.station 0)).out)) =
      some ([.started, .queued], some ⟨0, 32, none⟩, [.reply 9 .ok [.requeued 1, .dropped 0]]) := by decide

theorem test_hypotheses_of_AcceptTaken :
    let s := printing [order (.stub 1) .started] (some ⟨0, 20, some ⟨0, 500⟩⟩)
    (s.station 0).role = .kiosk ∧ s.mover.burst = some ⟨0, 20, some ⟨0, 500⟩⟩ ∧ (∀ m, m ≠ 0 → s.requesting m = false) ∧
      19 < (s.lane 0).residual ∧ (s.lane 0).residual = 20 := by decide

/-- After an ACCEPT for a part the lane itself is chosen again and granted, and at a full buffer none is.  After one for the whole
the lane is not chosen though it requests; another lane is, whose order starts, or is dropped with no burst. -/
theorem test_arbitration_after_AcceptTaken :
    let partly (lvl : Nat) : State :=
      setLane 0 { (printing [order (.stub 1) .started] none).lane 0 with residual := 1, linesSent := 319, lastLevel := lvl }
        (printing [order (.stub 1) .started] none)
    let whole (s : State) : State :=
      setLane 0 { s.lane 0 with queue := [order (.stub 1) .awaitingCut, order (.stub 1) .queued], residual := 0, lastLevel := 0 } s
    let both (s : State) : State := setLane 1 { s.lane 1 with queue := [order (.stub 1) .queued] } (whole s)
    ((partly 95).chosenLane none = some 0 ∧ (grant 0 (partly 95)).2 = true ∧ (partly 96).chosenLane none = none) ∧
      ((whole (printing [] none)).requesting 0 = true ∧ (whole (printing [] none)).chosenLane (some 0) = none) ∧
      ((both (printing [] none)).chosenLane (some 0) = some 1 ∧ (grant 1 (both (printing [] none))).2 = true) ∧
      (let gone := both (putVoucher 1 (stub (.redeemed 6 9) 0) (printing [] none))
       gone.chosenLane (some 0) = some 1 ∧ (grant 1 gone).2 = false) := by decide

/-- The lane's next order is not started by the ACCEPT that ends the one before; a CUT-DONE or a LEVEL has it granted (R136). -/
theorem test_next_order_waits :
    let s := printing [order (.stub 1) .started, order (.stub 1) .queued] (some ⟨0, 20, some ⟨0, 500⟩⟩)
    let seen (t : State) : List PrintStatus × Option Station := ((t.lane 0).queue.map (·.status), t.mover.burst.map (·.lane))
    seen (acceptRecord 0 20 60 s) = ([.awaitingCut, .queued], none) ∧
      seen (cutDoneRecord 0 (acceptRecord 0 20 60 s)) = ([.started], some 0) ∧
      seen (levelRecord 0 24 (acceptRecord 0 20 60 s)) = ([.awaitingCut, .started], some 0) := by decide

theorem test_hypotheses_of_CutDoneTaken :
    (∀ item ∈ [OrderItem.stub 1, .ticket ⟨7, 2, 3⟩], let s := printing [order item .awaitingCut] elsewhere
      (s.station 0).role = .kiosk ∧ (s.lane 0).suspended = none ∧ (s.lane 0).settling = none ∧
        (s.lane 0).queue.find? (fun o => o.status = .awaitingCut) = some (order item .awaitingCut) ∧
        s.sale 1 = some (sold .confirmed) ∧ (sold .confirmed).state = .active ∧ s.isLost (.station 0) = false ∧
        s.voucher 1 = some (stub .printPending 0) ∧ s.seat 7 ⟨2, 3⟩ = some (seat 3 1 3 .ordinary (.sold 1))) ∧
      (putSale 1 { sold .confirmed with state := .refunded 2160 } (printing [order .receipt .awaitingCut] elsewhere)).sale 1 =
        some { sold .confirmed with state := .refunded 2160 } ∧
      (let s := putScreening 7 (hall .free .free (.issued 1) .free)
         (putVoucher 1 (stub .locked 3) (printing [order (.stub 1) .awaitingCut] elsewhere))
       s.voucher 1 = some (stub .locked 3) ∧ s.seat 7 ⟨2, 3⟩ = some (seat 3 1 3 .ordinary (.issued 1)) ∧
        (s.lane 0).queue.find? (fun o => o.status = .awaitingCut) = some (order (.stub 1) .awaitingCut)) ∧
      (order .receipt .awaitingCut).item = .receipt := by decide

/-- A completed stub of a LOCKED voucher leaves it LOCKED (R155). -/
theorem test_cut_done_of_locked :
    leaves (exec (.cutDone 0) (putVoucher 1 (stub .locked 3) (printing [order (.stub 1) .awaitingCut] elsewhere)))
      (fun t => t.voucher 1) = some (some (stub .locked 3)) := by decide

/-- The last order of a refunded sale: PRINT-DONE carries the sale's number and state alone (R157). -/
theorem test_print_done_of_refunded :
    leaves (exec (.cutDone 0)
        (putSale 1 { sold .confirmed with state := .refunded 2160, outstanding := 1 } (printing [order .receipt .awaitingCut] elsewhere)))
      (fun t => (t.line (.station 0)).out) = some [.printDone 1 .refunded none] := by decide

/-- A lane already SUSPENDED, and of one that is not the sources in flight: a ticket's ISSUED seat, a stub's ISSUED voucher, a seat
that is not ISSUED, and a mover that serves another lane. -/
theorem test_hypotheses_of_FaultSuspends_on_sources :
    let s := putScreening 7 (hall .free .free (.issued 1) .free)
      (putVoucher 1 (stub .issued 0) (printing [order (.stub 1) .awaitingCut, order (.ticket ⟨7, 2, 3⟩) .started] elsewhere))
    (s.seat 7 ⟨2, 3⟩ = some (seat 3 1 3 .ordinary (.issued 1)) ∧ s.voucher 1 = some (stub .issued 0) ∧
        s.sale 1 = some (sold .confirmed) ∧ (sold .confirmed).state = .active ∧
        order (.ticket ⟨7, 2, 3⟩) .started ∈ (s.lane 0).queue ∧ order (.stub 1) .awaitingCut ∈ (s.lane 0).queue) ∧
      s.seat 7 ⟨2, 4⟩ = some (seat 4 1 4 .ordinary .free) ∧ (∀ b, s.mover.burst = some b → b.lane ≠ 0) ∧
      (∀ k ∈ [FaultKind.jam, .paperOut], ((suspended k).lane 0).suspended = some k ∧ ((suspended k).station 0).role = .kiosk) ∧
      (setLane 0 { (suspended .jam).lane 0 with cut := some ⟨0, 5000⟩ } (suspended .jam)).lane 0 =
        { (suspended .jam).lane 0 with cut := some ⟨0, 5000⟩ } := by
  refine ⟨by decide, by decide, fun b h => ?_, by decide, by decide⟩
  cases (show some (⟨1, 32, some ⟨0, 500⟩⟩ : Burst) = some b from h)
  decide

/-- A HEAD_OPEN under JAM keeps JAM and withdraws the CLEAR (R142). -/
theorem test_refault :
    leaves (exec (.fault 0 .headOpen 3) (suspended .jam))
      (fun t => ((t.lane 0).suspended, (t.lane 0).clearFlag, (t.line (.station 0)).out)) =
      some (some .jam, false, [.printFault .jam 1 1]) := by decide

theorem test_hypotheses_of_FaultSuspends :
    let s := printing [order (.stub 1) .awaitingCut, order .receipt .started] (some ⟨0, 20, some ⟨0, 500⟩⟩)
    (s.lane 0).suspended = none ∧ (s.station 0).role = .kiosk ∧ (s.lane 0).cut.isSome = true ∧
      s.mover.burst = some ⟨0, 20, some ⟨0, 500⟩⟩ := by decide

theorem test_hypotheses_of_LaneRecordsTaken :
    ((suspended .jam).station 0).role = .kiosk ∧ ((suspended .jam).lane 0).suspended.isSome = true ∧
      (shop.lane 0).suspended = none ∧ (shop.station 1).role = .off ∧ ((till shop).station 6).role = .till ∧
      ((setLane 0 { Lane.fresh with settling := some ⟨0, 5000⟩ } (printing [] elsewhere)).lane 0).settling.isSome = true := by
  decide

theorem test_hypotheses_of_ArbitrationAndGrant :
    let s := printing [order .receipt .queued] none
    (s.requesting 0 = true ∧ s.chosenLane none = some 0 ∧ (s.lane 0).urgent = true) ∧
      (let t := setLane 0 { s.lane 0 with lastLevel := 25 } s
       t.chosenLane none = some 0 ∧ (t.lane 0).urgent = false) ∧
      (s.chosenLane (some 1) = some 0 ∧ some (1 : Station) ≠ some 0 ∧ s.chosenLane (some 0) = none) ∧
      ((s.lane 0).queue.find? (fun o => o.status = .queued) = some (order .receipt .queued) ∧
        (∀ o ∈ (s.lane 0).queue, o.status ≠ .started) ∧ dropReason s (order .receipt .queued) = none) ∧
      (∃ o ∈ ((printing [order .receipt .started] none).lane 0).queue, o.status = .started) ∧
      ((printing [order .receipt .started] none).isLost (.printer 0) = false) ∧
      (∀ o ∈ ((printing [order .receipt .awaitingCut] none).lane 0).queue, o.status ≠ .started ∧ o.status ≠ .queued) := by
  decide

/-- Each row of Table 8-3: a refunded sale, a redeemed voucher, a third generation, and none of them. -/
theorem test_drop_reasons :
    let s := printing [order (.stub 1) .queued] none
    let redeemed := putVoucher 1 (stub (.redeemed 6 9) 0) s
    let third := putVoucher 1 { stub .issued 0 with gen := 3 } s
    let refunded := putSale 1 { sold .confirmed with state := .refunded 2160 } s
    let o := order (.stub 1) .queued
    dropReason s o = none ∧ dropReason redeemed o = some (some .redeemed) ∧ dropReason third o = some (some .generation) ∧
      dropReason refunded o = some none ∧ (s.sale 1 = some (sold .confirmed) ∧ (sold .confirmed).state = .active) ∧
      s.isLost .site = false ∧ (32 + 2) / 3 = (burstFrames (s.lane 0) 32).length := by decide

theorem test_hypotheses_of_RenderStartRaisesGeneration :
    (after .confirmed .issued).voucher 1 = some (stub .issued 0) ∧
      (after .confirmed .issued).seat 7 ⟨2, 3⟩ = some (seat 3 1 3 .ordinary (.sold 1)) := by decide

end Sys2Proof.Tests
end

section
/-! The seats of a screening after the operations that change them: what a seat reference finds, and which seats stand in a slot. -/

namespace Sys2Proof.Machine

/-! ### Seats that stand in a slot -/

/-- A seat of the screening in a slot. -/
def State.stands (s : State) (slot : Nat) (x : Seat) : Prop := ∃ sc, s.screening slot = some sc ∧ x ∈ sc.seats

/-- Is the slot LOADING (R1)? -/
def State.isLoading (s : State) (slot : Nat) : Prop := ∃ sc, s.screening slot = some sc ∧ sc.phase = .loading

theorem stands_of_seat {s : State} {slot : Nat} {p : SeatPos} {x : Seat} (h : s.seat slot p = some x) :
    s.stands slot x ∧ x.pos = p := by
  obtain ⟨sc, hsc, hx⟩ := Option.bind_eq_some_iff.mp h
  exact ⟨⟨sc, hsc, List.mem_of_find?_eq_some hx⟩, by simpa using List.find?_some hx⟩

theorem seat_of_no_screening {s : State} {slot : Nat} (h : s.screening slot = none) (p : SeatPos) : s.seat slot p = none := by
  simp [State.seat, h]

theorem screening_putScreening_ne {k slot : Nat} (h : k ≠ slot) (x : Screening) (s : State) :
    (putScreening slot x s).screening k = s.screening k := Tbl.find_put_of_ne _ h _

theorem screening_delScreening (k slot : Nat) (s : State) :
    (delScreening slot s).screening k = if k = slot then none else s.screening k := by
  split
  · next h => subst h; exact Tbl.find_del_self _ _
  · next h => exact Tbl.find_del_of_ne _ h

/-! ### Seats changed in one step -/

theorem screening_mapSeats (slot k : Nat) (ps : List SeatPos) (f : Seat → Seat) (s : State) :
    (mapSeats slot ps f s).screening k = if k = slot then (s.screening k).map (fun sc =>
      { sc with seats := sc.seats.map (fun x => if x.pos ∈ ps then f x else x) }) else s.screening k := by
  unfold mapSeats
  split
  · next sc hsc =>
    split
    · next h => subst h; simp [hsc]
    · next h => exact screening_putScreening_ne h _ _
  · next hsc =>
    split
    · next h => subst h; simp [hsc]
    · rfl

@[simp] theorem hold_mapSeats (slot n : Nat) (ps : List SeatPos) (f : Seat → Seat) (s : State) :
    (mapSeats slot ps f s).hold n = s.hold n := by rw [mapSeats_frame]; rfl

@[simp] theorem sale_mapSeats (slot n : Nat) (ps : List SeatPos) (f : Seat → Seat) (s : State) :
    (mapSeats slot ps f s).sale n = s.sale n := by rw [mapSeats_frame]; rfl

@[simp] theorem basket_mapSeats (slot : Nat) (ps : List SeatPos) (f : Seat → Seat) (s : State) (st : Station) :
    (mapSeats slot ps f s).basket st = s.basket st := by rw [mapSeats_frame]; rfl

theorem seat_mapSeats {f : Seat → Seat} (hf : ∀ x, (f x).pos = x.pos) (slot k : Nat) (ps : List SeatPos) (p : SeatPos)
    (s : State) : (mapSeats slot ps f s).seat k p = if k = slot ∧ p ∈ ps then (s.seat k p).map f else s.seat k p := by
  have hmap : ∀ l : List Seat, (l.map (fun x => if x.pos ∈ ps then f x else x)).find? (fun x => x.pos = p) =
      if p ∈ ps then (l.find? (fun x => x.pos = p)).map f else l.find? (fun x => x.pos = p) := by
    intro l
    induction l with
    | nil => simp
    | cons x t ih =>
      have hpos : (if x.pos ∈ ps then f x else x).pos = x.pos := by split <;> simp [hf]
      simp only [List.map_cons, List.find?_cons, hpos, ih]
      by_cases hx : x.pos = p
      · simp only [hx, decide_true]; split <;> rfl
      · simp [hx]
  unfold State.seat
  rw [screening_mapSeats]
  by_cases hk : k = slot
  · subst hk
    cases hsc : s.screening k with
    | none => simp
    | some sc => simp [Screening.seat, hmap]
  · simp [hk]

theorem stands_mapSeats (slot k : Nat) (ps : List SeatPos) (f : Seat → Seat) (s : State) (y : Seat) :
    (mapSeats slot ps f s).stands k y ↔ ∃ x, s.stands k x ∧ y = if k = slot ∧ x.pos ∈ ps then f x else x := by
  unfold State.stands
  rw [screening_mapSeats]
  by_cases hk : k = slot
  · subst hk
    cases hsc : s.screening k with
    | none => simp
    | some sc => simp [eq_comm]
  · simp [hk]

theorem isLoading_mapSeats (slot k : Nat) (ps : List SeatPos) (f : Seat → Seat) (s : State) :
    (mapSeats slot ps f s).isLoading k ↔ s.isLoading k := by
  unfold State.isLoading
  rw [screening_mapSeats]
  by_cases hk : k = slot
  · subst hk
    cases hsc : s.screening k <;> simp
  · simp [hk]

/-! ### Seats keep their places -/

@[simp] theorem pos_release (x : Seat) : x.release.pos = x.pos := by unfold Seat.release; split <;> rfl
@[simp] theorem pos_sell (n : Nat) (x : Seat) : (x.sell n).pos = x.pos := rfl
@[simp] theorem pos_refund (x : Seat) : x.refund.pos = x.pos := rfl
@[simp] theorem pos_complete (x : Seat) : x.complete.pos = x.pos := by unfold Seat.complete; split <;> rfl
@[simp] theorem pos_unsure (x : Seat) : x.unsure.pos = x.pos := by unfold Seat.unsure; split <;> rfl
@[simp] theorem pos_blockSeat (x : Seat) : (blockSeat x).1.pos = x.pos := by unfold blockSeat; split <;> rfl
@[simp] theorem pos_unblockSeat (x : Seat) : (unblockSeat x).1.pos = x.pos := by
  unfold unblockSeat
  split
  · rfl
  · split <;> rfl
  · split <;> rfl
  all_goals rfl

/-! ### Whose a seat is (R11) -/

/-- The seat is in the hold of a number. -/
def Seat.inHold (x : Seat) (n : Nat) : Prop := x.state = .pending n ∨ x.state = .held n

/-- The seat is in the sale of a number. -/
def Seat.inSale (x : Seat) (n : Nat) : Prop := x.state = .sold n ∨ x.state = .issued n

/-- The seat has no owner. -/
def Seat.unowned (x : Seat) : Prop := x.state = .free ∨ x.state = .blocked

theorem inHold_unique {x : Seat} {m n : Nat} (hm : x.inHold m) (hn : x.inHold n) : m = n := by
  rcases hm with hm | hm <;> rcases hn with hn | hn <;> rw [hm] at hn <;> cases hn <;> rfl

theorem not_inSale_of_inHold {x : Seat} {m n : Nat} (hm : x.inHold m) : ¬ x.inSale n := by
  rintro (hn | hn) <;> rcases hm with hm | hm <;> rw [hm] at hn <;> cases hn

theorem not_inHold_of_unowned {x : Seat} {n : Nat} (h : x.unowned) : ¬ x.inHold n := by
  rintro (hn | hn) <;> rcases h with h | h <;> rw [h] at hn <;> cases hn

theorem not_inSale_of_unowned {x : Seat} {n : Nat} (h : x.unowned) : ¬ x.inSale n := by
  rintro (hn | hn) <;> rcases h with h | h <;> rw [h] at hn <;> cases hn

theorem inSale_unique {x : Seat} {m n : Nat} (hm : x.inSale m) (hn : x.inSale n) : m = n := by
  rcases hm with hm | hm <;> rcases hn with hn | hn <;> rw [hm] at hn <;> cases hn <;> rfl

/-- A seat whose owner lists it: one clause for holds, one for sales. -/
theorem ownerListsSeat_iff (s : State) (slot : Nat) (x : Seat) : OwnerListsSeat s slot x ↔
    (∀ n, x.inHold n → ∃ h, s.hold n = some h ∧ h.slot = slot ∧ x.pos ∈ h.seats) ∧
    (∀ n, x.inSale n → ∃ y, s.sale n = some y ∧ y.state = .active ∧ ∃ l ∈ y.seats, l.ref = ⟨slot, x.row, x.num⟩) := by
  unfold OwnerListsSeat Seat.inHold Seat.inSale
  cases x.state <;> simp

/-- Two records of one seat with the same owner: the same state, none with an owner, or both of one sale, printed or not. -/
structure SameOwner (x y : Seat) : Prop where
  pos : y.pos = x.pos
  owner : y.state = x.state ∨ (x.unowned ∧ y.unowned) ∨ ∃ n, x.inSale n ∧ y.inSale n

theorem SameOwner.inSale {x y : Seat} (h : SameOwner x y) (n : Nat) : y.inSale n ↔ x.inSale n := by
  rcases h.owner with e | ⟨hx, hy⟩ | ⟨m, hx, hy⟩
  · unfold Seat.inSale; rw [e]
  · exact iff_of_false (not_inSale_of_unowned hy) (not_inSale_of_unowned hx)
  · exact ⟨fun h => inSale_unique hy h ▸ hx, fun h => inSale_unique hx h ▸ hy⟩

theorem SameOwner.inHold {x y : Seat} (h : SameOwner x y) (n : Nat) : y.inHold n ↔ x.inHold n := by
  rcases h.owner with e | ⟨hx, hy⟩ | ⟨m, hx, hy⟩
  · unfold Seat.inHold; rw [e]
  · exact iff_of_false (not_inHold_of_unowned hy) (not_inHold_of_unowned hx)
  · exact iff_of_false (fun h => not_inSale_of_inHold h hy) (fun h => not_inSale_of_inHold h hx)

/-- A seat of a hold keeps its very state. -/
theorem SameOwner.state {x y : Seat} (h : SameOwner x y) {n : Nat} (hx : x.inHold n) : y.state = x.state := by
  rcases h.owner with e | ⟨hu, _⟩ | ⟨m, hs, _⟩
  · exact e
  · exact absurd hx (not_inHold_of_unowned hu)
  · exact absurd hs (not_inSale_of_inHold hx)

theorem SameOwner.unowned {x y : Seat} (h : SameOwner x y) (hx : x.unowned) : y.unowned := by
  rcases h.owner with e | ⟨_, hy⟩ | ⟨m, hs, _⟩
  · unfold Seat.unowned; rw [e]; exact hx
  · exact hy
  · exact absurd hs (not_inSale_of_unowned hx)

theorem sameOwner_complete (x : Seat) : SameOwner x x.complete := by
  refine ⟨pos_complete x, ?_⟩
  unfold Seat.complete
  split
  · next n h => exact .inr (.inr ⟨n, .inl h, .inr rfl⟩)
  all_goals exact .inl rfl

theorem sameOwner_unsure (x : Seat) : SameOwner x x.unsure := by
  refine ⟨pos_unsure x, ?_⟩
  unfold Seat.unsure
  split
  · next n h => exact .inr (.inr ⟨n, .inr h, .inl rfl⟩)
  all_goals exact .inl rfl

theorem sameOwner_gen (x : Seat) (g : Nat) : SameOwner x { x with gen := g } := ⟨rfl, .inl rfl⟩

theorem sameOwner_blockSeat (x : Seat) : SameOwner x (blockSeat x).1 := by
  refine ⟨pos_blockSeat x, ?_⟩
  unfold blockSeat
  split
  · next h => exact .inr (.inl ⟨.inl h, .inr rfl⟩)
  all_goals exact .inl rfl

theorem sameOwner_unblockSeat (x : Seat) : SameOwner x (unblockSeat x).1 := by
  refine ⟨pos_unblockSeat x, ?_⟩
  unfold unblockSeat
  split
  · next h => exact .inr (.inl ⟨.inr h, .inl rfl⟩)
  · split <;> exact .inl rfl
  · split <;> exact .inl rfl
  all_goals exact .inl rfl

/-- A hold lets its own seats go, and no other's (R13). -/
theorem release_cases (x : Seat) : x.release.unowned ∨ (x.release = x ∧ ∀ n, ¬ x.inHold n) := by
  unfold Seat.release Seat.unowned Seat.inHold
  cases h : x.state <;> simp

end Sys2Proof.Machine
end

section
/-! What the shared operations do to the four tables: seats change in their places, records are put and freed, and no hold comes
to gather. -/

namespace Sys2Proof.Machine

/-! ### Tables tended -/

/-- Seats of one slot changed in their places. -/
def SeatsChange (a b : Tbl Screening) : Prop :=
  ∃ slot sc f, a.find slot = some sc ∧ (∀ x : Seat, (f x).pos = x.pos) ∧ b = a.put slot { sc with seats := sc.seats.map f }

/-- From `s` to `t` the screenings change by seats changed in their places alone, and tables stay canonical. -/
structure TablesTended (s t : State) : Prop where
  screenings : Relation.ReflTransGen SeatsChange s.screenings t.screenings
  holds : s.holds.wf = true → t.holds.wf = true
  sales : s.sales.wf = true → t.sales.wf = true
  vouchers : s.vouchers.wf = true → t.vouchers.wf = true

theorem TablesTended.trans {s t u : State} (h : TablesTended s t) (k : TablesTended t u) : TablesTended s u where
  screenings := h.screenings.trans k.screenings
  holds := k.holds ∘ h.holds
  sales := k.sales ∘ h.sales
  vouchers := k.vouchers ∘ h.vouchers

theorem TablesTended.after {s t u : State} (k : TablesTended t u) (h : TablesTended s t) : TablesTended s u := h.trans k

/-- Tables tended, and a hold gathers only where its owner had one that gathers. -/
structure Tended (s t : State) : Prop extends TablesTended s t where
  gathers : ∀ e ∈ t.holds, e.2.phase = .gathering → ∃ d ∈ s.holds, d.2.owner = e.2.owner ∧ d.2.phase = .gathering

theorem Tended.of_tables {s t : State} (h1 : t.screenings = s.screenings) (h2 : t.holds = s.holds) (h3 : t.sales = s.sales)
    (h4 : s.vouchers.wf = true → t.vouchers.wf = true) : Tended s t where
  screenings := by rw [h1]
  holds := by rw [h2]; exact id
  sales := by rw [h3]; exact id
  vouchers := h4
  gathers := by rw [h2]; exact fun e he hp => ⟨e, he, rfl, hp⟩

theorem Tended.refl (s : State) : Tended s s := .of_tables rfl rfl rfl id

theorem Tended.trans {s t u : State} (h : Tended s t) (k : Tended t u) : Tended s u where
  toTablesTended := h.toTablesTended.trans k.toTablesTended
  gathers e he hp := by
    obtain ⟨d, hd, ho, hg⟩ := k.gathers e he hp
    obtain ⟨c, hc, ho', hg'⟩ := h.gathers d hd hg
    exact ⟨c, hc, ho'.trans ho, hg'⟩

/-- `Tended.trans` read from the last operation inward, as a composed operation is written. -/
theorem Tended.after {s t u : State} (k : Tended t u) (h : Tended s t) : Tended s u := h.trans k

theorem Tended.foldl {α : Type} (op : State → α → State) (h : ∀ s a, Tended s (op s a)) (l : List α) (s : State) :
    Tended s (l.foldl op s) :=
  foldl_preserves (Tended s) op (fun t a ht => ht.trans (h t a)) l s (.refl s)

theorem tended_emit (l : Line) (r : OutRec) (s : State) : Tended s (emit l r s) := .of_tables (by simp) (by simp) (by simp) (by simp)

theorem tended_setBasket (st : Station) (b : Basket) (s : State) : Tended s (setBasket st b s) := .of_tables rfl rfl rfl id

theorem tended_modifyLane (st : Station) (f : Lane → Lane) (s : State) : Tended s (modifyLane st f s) := .of_tables rfl rfl rfl id

theorem tended_writeReserved (sale : Option Nat) (amount : Nat) (body : JournalBody) (s : State) :
    Tended s (writeReserved sale amount body s) := .of_tables rfl rfl rfl id

theorem tended_judgeJournal (s : State) : Tended s (judgeJournal s) := by rw [judgeJournal_frame]; exact .of_tables rfl rfl rfl id

theorem tended_setPay (st : Station) (p : PayContext) (s : State) : Tended s (setPay st p s) := .of_tables rfl rfl rfl id

theorem tended_setRequest (st : Station) (r : Option Request) (s : State) : Tended s (setRequest st r s) := .of_tables rfl rfl rfl id

theorem tended_setPayment (st : Station) (p : Option Payment) (s : State) : Tended s (setPayment st p s) := .of_tables rfl rfl rfl id

theorem tended_mapSeats {f : Seat → Seat} {slot : Nat} {ps : List SeatPos} {s : State} (hf : ∀ x, (f x).pos = x.pos) :
    Tended s (mapSeats slot ps f s) := by
  unfold mapSeats
  split
  · next sc hsc =>
    refine ⟨⟨.single ⟨slot, sc, _, hsc, fun x => ?_, rfl⟩, id, id, id⟩, fun e he hp => ⟨e, he, rfl, hp⟩⟩
    split <;> simp [hf]
  · exact .refl s

theorem tablesTended_putHold (n : Nat) (h : Hold) (s : State) : TablesTended s (putHold n h s) :=
  ⟨.refl, fun hw => Tbl.wf_put hw n h, id, id⟩

theorem tended_putHold {h : Hold} (n : Nat) (s : State)
    (hg : h.phase = .gathering → ∃ d ∈ s.holds, d.2.owner = h.owner ∧ d.2.phase = .gathering) : Tended s (putHold n h s) where
  toTablesTended := tablesTended_putHold n h s
  gathers e he hp := by
    rcases Tbl.mem_put he with rfl | he
    · exact hg hp
    · exact ⟨e, he, rfl, hp⟩

theorem tended_delHold (n : Nat) (s : State) : Tended s (delHold n s) where
  screenings := .refl
  holds hw := Tbl.wf_del hw n
  gathers e he hp := ⟨e, (List.mem_filter.mp he).1, rfl, hp⟩
  sales := id
  vouchers := id

theorem tended_putSale (n : Nat) (x : Sale) (s : State) : Tended s (putSale n x s) :=
  ⟨⟨.refl, id, fun h => Tbl.wf_put h n x, id⟩, fun e he hp => ⟨e, he, rfl, hp⟩⟩

theorem tended_modifySale (n : Nat) (f : Sale → Sale) (s : State) : Tended s (modifySale n f s) := by
  unfold modifySale
  split
  · exact tended_putSale ..
  · exact .refl s

/-! ### Holds and baskets -/

theorem tended_releaseHold (n : Nat) (s : State) : Tended s (releaseHold n s) := by
  unfold releaseHold
  split
  · exact (tended_mapSeats pos_release).trans (tended_delHold ..)
  · exact .refl s

theorem tended_sellHold (sale n : Nat) (s : State) : Tended s (sellHold sale n s) := by
  unfold sellHold
  split
  · exact (tended_mapSeats (pos_sell sale)).trans (tended_delHold ..)
  · exact .refl s

theorem tended_returnUnits (code qty : Nat) (s : State) : Tended s (returnUnits code qty s) := by
  rw [returnUnits_frame]; exact .of_tables rfl rfl rfl id

theorem tended_emptyBasket (st : Station) (s : State) : Tended s (emptyBasket st s) :=
  (tended_setBasket ..).after ((Tended.foldl (fun s (x : SnackLine) => returnUnits x.item x.qty s)
    (fun s x => tended_returnUnits x.item x.qty s) _ _).after
    (.foldl (fun s n => releaseHold n s) (fun s n => tended_releaseHold n s) _ s))

theorem tended_basketLoses (st : Station) (s : State) : Tended s (basketLoses st s) := by
  unfold basketLoses
  split
  · exact tended_emptyBasket st s
  · exact .of_tables rfl rfl rfl id

theorem tended_setHoldPhases (st : Station) {ph : HoldPhase} (hph : ph ≠ .gathering) (s : State) :
    Tended s (setHoldPhases st ph s) := by
  refine Tended.foldl _ (fun s n => ?_) _ s
  split
  · exact tended_putHold n s (fun h => absurd h hph)
  · exact .refl s

theorem tended_settleBasket (st : Station) (s : State) : Tended s (settleBasket st s) := by
  unfold settleBasket
  dsimp only
  split
  · exact (tended_emit ..).after (tended_emptyBasket st s)
  · split
    · exact tended_emptyBasket st s
    · split
      · exact (tended_emit ..).after (tended_setBasket ..)
      · exact .refl s

/-! ### Payments -/

theorem tended_releaseReservations (st : Station) (p : Payment) (s : State) : Tended s (releaseReservations st p s) := by
  rw [releaseReservations_frame]; exact .of_tables rfl rfl rfl id

theorem tended_endWithoutSale (st : Station) (p : Payment) (o : Option PayOutcome) (s : State) :
    Tended s (endWithoutSale st p o s) := by
  unfold endWithoutSale
  dsimp only
  have attempts : ∀ u : State, Tended u (if p.asked then modifyBasket st (fun b => { b with attempts := b.attempts + 1 }) u else u) := by
    intro u
    split
    · exact .of_tables rfl rfl rfl id
    · exact .refl u
  have told : ∀ u : State, Tended u (tellOutcome st p o u) := by
    intro u; rw [tellOutcome_frame]; exact .of_tables rfl rfl rfl id
  exact (tended_setPayment ..).after ((told _).after ((tended_settleBasket st _).after
    ((tended_setHoldPhases st (by decide) _).after ((attempts _).after (tended_releaseReservations st p s)))))

theorem tended_reverseAndEnd (st : Station) (p : Payment) (c : Bool) (r : ReversalReason) (o : Option PayOutcome) (s : State) :
    Tended s (reverseAndEnd st p c r o s) :=
  (tended_endWithoutSale st _ o _).after (tended_writeReserved ..)

theorem tended_endCapture (st : Station) (p : Payment) (c : CaptureState) (s : State) : Tended s (endCapture st p c s) := by
  unfold endCapture
  split
  · exact (tended_setPayment ..).after (tended_releaseReservations st p s)
  · exact (tended_setPayment ..).after ((tended_writeReserved ..).after (tended_putSale ..))

theorem tended_acceptPay (st : Station) (tag : Tag) (s : State) : Tended s (acceptPay st tag s) := by
  unfold acceptPay
  exact (tended_setRequest ..).after ((tended_emit ..).after ((tended_setHoldPhases st (by simp) _).after
    ((tended_setPay ..).after ((tended_modifyLane ..).after
      ((tended_judgeJournal { s with salesReserved := s.salesReserved + 1, journalReserved := s.journalReserved + 1 }).after
        (.of_tables rfl rfl rfl id))))))

/-! ### Sales -/

theorem wf_vouchers_createVouchers (sale : Nat) (slot : Option Nat) (fromReserved : Bool) : ∀ (l : List (Nat × Nat)) (s : State),
    s.vouchers.wf = true → (createVouchers sale slot fromReserved l s).1.vouchers.wf = true
  | [], _, h => h
  | (c, v) :: l, s, h => by
    unfold createVouchers
    refine wf_vouchers_createVouchers sale slot fromReserved l _ ?_
    rw [createVoucher_frame]
    exact Tbl.wf_put h _ _

theorem tended_createVouchers (sale : Nat) (slot : Option Nat) (fromReserved : Bool) (l : List (Nat × Nat)) (s : State) :
    Tended s (createVouchers sale slot fromReserved l s).1 :=
  .of_tables (by rw [createVouchers_frame]) (by rw [createVouchers_frame]) (by rw [createVouchers_frame])
    (wf_vouchers_createVouchers sale slot fromReserved l s)

theorem tended_enterSale (n : Nat) (x : Sale) (m : Summary) (holds : List Nat) (fromReserved : Bool) (s : State) :
    Tended s (enterSale n x m holds fromReserved s) :=
  (tended_modifySale n _ _).after ((tended_createVouchers n x.slot fromReserved (chargedValues m) _).after
    ((Tended.foldl (fun s h => sellHold n h s) (fun s h => tended_sellHold n h s) holds _).after
      ((tended_putSale n x s).trans (.of_tables rfl rfl rfl id))))

theorem tended_commit (st : Station) (auth : Auth) (room : Nat) (s : State) : Tended s (commit st auth room s) := by
  unfold commit queueSale
  dsimp only
  have made := fun n x m holds => (tended_enterSale n x m holds true { s with salesReserved := s.salesReserved - 1 }).after
    (Tended.of_tables (s := s) rfl rfl rfl id)
  split
  · exact made ..
  · exact (tended_setBasket ..).after ((tended_modifyLane ..).after ((tended_putSale ..).after (made ..)))

theorem tended_writeFree (sale : Option Nat) (amount : Nat) (body : JournalBody) (s : State) :
    Tended s (writeFree sale amount body s) := by
  rw [writeFree_frame]; exact .of_tables rfl rfl rfl id

theorem tended_takeSiteSell (tag : Tag) (hold : Nat) (h : Hold) (ref : Chars 8) (m : Summary) (s : State) :
    Tended s (takeSiteSell tag hold h ref m s) := by
  unfold takeSiteSell
  dsimp only
  split
  · exact tended_enterSale ..
  · exact (tended_emit ..).after ((tended_writeFree ..).after (tended_enterSale ..))

theorem wf_vouchers_voidVoucher (serial : Nat) (s : State) (h : s.vouchers.wf = true) :
    (voidVoucher serial s).vouchers.wf = true := by
  unfold voidVoucher
  split
  · exact h
  · split
    · exact h
    · exact h
    all_goals
      dsimp only
      split
      · rw [judgeLow_frame, modifyItem_frame]; exact Tbl.wf_put h _ _
      · exact Tbl.wf_put h _ _

theorem tended_voidVoucher (serial : Nat) (s : State) : Tended s (voidVoucher serial s) :=
  .of_tables (by rw [voidVoucher_frame]) (by rw [voidVoucher_frame]) (by rw [voidVoucher_frame])
    (wf_vouchers_voidVoucher serial s)

theorem tended_removeOrders (n : Nat) (s : State) : Tended s (removeOrders n s) :=
  (tended_modifySale ..).after (.foldl (removeUnstarted n) (fun _ _ => .of_tables rfl rfl rfl id) _ s)

theorem tended_takeRefund (tag : Tag) (n : Nat) (x : Sale) (s : State) : Tended s (takeRefund tag n x s) :=
  (tended_emit ..).after ((tended_modifySale ..).after ((tended_writeFree ..).after ((tended_removeOrders n _).after
    ((Tended.foldl (fun s v => voidVoucher v s) (fun s v => tended_voidVoucher v s) x.serials _).after
      (.foldl (fun s (l : SaleSeat) => mapSeats l.ref.slot [refPos l.ref] Seat.refund s)
        (fun _ _ => tended_mapSeats pos_refund) x.seats s)))))

end Sys2Proof.Machine
end

section
/-! What a step can do to seats, holds, sales, baskets, payments and the journal's counts, said once: every command is a sequence
of moves, each an operation of the model under the conditions its rule checks. -/

namespace Sys2Proof.Machine

/-! ### The moves -/

/-- What the invariants of seats and their owners, of payments and of reservations read. -/
structure Books where
  screenings : Tbl Screening
  holds : Tbl Hold
  sales : Tbl Sale
  baskets : Vector Basket 8
  payment : Station → Option Payment
  salesReserved : Nat
  nextSale : Nat
  recorded : Nat
  journalReserved : Nat

/-- The books of a state. -/
def State.books (s : State) : Books :=
  { screenings := s.screenings, holds := s.holds, sales := s.sales, baskets := s.baskets, payment := s.payment,
    salesReserved := s.salesReserved, nextSale := s.nextSale, recorded := s.journal.length,
    journalReserved := s.journalReserved }

/-- The order of the seats of a screening (R5). -/
def InSeatOrder (l : List Seat) : Prop := l.Pairwise (fun a b => a.row < b.row ∨ (a.row = b.row ∧ a.num < b.num))

/-- A basket that keeps its holds and the seats of its lines; a summary in it stood before or lists its seat lines, and none goes
while a payment is in flight. -/
structure BasketEdit (s : State) (st : Station) (b : Basket) : Prop where
  holds : b.holds = (s.basket st).holds
  lines : b.seatLines.map (·.ref) = (s.basket st).seatLines.map (·.ref)
  summary : ∀ m, b.summary = some m → (s.basket st).summary = some m ∨ m.seats.map (·.ref) = b.seatLines.map (·.ref)
  priced : s.payIdle st = true ∨ ((s.basket st).summary.isSome = true → b.summary.isSome = true)

/-- An edit that leaves no summary, with no payment in flight. -/
theorem BasketEdit.unpriced {s : State} {st : Station} {b : Basket} (hholds : b.holds = (s.basket st).holds)
    (hlines : b.seatLines.map (·.ref) = (s.basket st).seatLines.map (·.ref)) (hsummary : b.summary = none)
    (hidle : s.payIdle st = true) : BasketEdit s st b :=
  ⟨hholds, hlines, fun m h => absurd h (by simp [hsummary]), .inl hidle⟩

/-- One move of a step. -/
inductive Move : State → State → Prop
  /-- Nothing of the books changes. -/
  | quiet {s t : State} (h : t.books = s.books) (hv : s.vouchers.wf = true → t.vouchers.wf = true) : Move s t
  /-- Power-on and RESET. -/
  | restarts {s t : State} (h : t.books = State.reset.books) (hv : t.vouchers = []) : Move s t
  /-- BEGIN-SCREENING (R3). -/
  | begins {s : State} {slot : Nat} {sc : Screening} (hslot : s.screening slot = none) (hseats : sc.seats = [])
      (hfit : sc.declared ≤ s.poolFree) : Move s (putScreening slot sc s)
  /-- SEAT-ROW (R5). -/
  | loads {s : State} {slot : Nat} {sc sc' : Screening} (hsc : s.screening slot = some sc) (hload : sc.phase = .loading)
      (hload' : sc'.phase = .loading) (hdecl : sc'.declared = sc.declared) (hord : InSeatOrder sc.seats → InSeatOrder sc'.seats)
      (hnew : ∀ x ∈ sc'.seats, x ∈ sc.seats ∨ x.unowned) : Move s (putScreening slot sc' s)
  /-- END-LOAD and STOP-SALES (R6, R7). -/
  | turns {s : State} {slot : Nat} {sc : Screening} (hsc : s.screening slot = some sc) {ph : ScreeningPhase} (hph : ph ≠ .loading) :
      Move s (putScreening slot { sc with phase := ph } s)
  /-- RETIRE-SCREENING of a load (R8). -/
  | abandons {s : State} {slot : Nat} (hload : s.isLoading slot) : Move s (delScreening slot s)
  /-- RETIRE-SCREENING of a slot that no hold lists (R9, R10). -/
  | retires {s : State} {slot : Nat} (hholds : s.holdsIn slot = 0) :
      Move s (delScreening slot { s with
        sales := s.sales.filter (fun e => !s.retires slot e.2.slot),
        vouchers := s.vouchers.filter (fun e => !s.retires slot e.2.slot) })
  /-- Seats change and keep their owners: blocking, printing. -/
  | touches {s : State} (slot : Nat) (ps : List SeatPos) {f : Seat → Seat} (hf : ∀ x, SameOwner x (f x)) :
      Move s (mapSeats slot ps f s)
  /-- A sale changes beside its slot, seats and state. -/
  | amends {s : State} {n : Nat} {x x' : Sale} (hx : s.sale n = some x) (hslot : x'.slot = x.slot) (hseats : x'.seats = x.seats)
      (hstate : x'.state = x.state) : Move s (putSale n x' s)
  /-- A basket changes and keeps its holds and the seats of its lines. -/
  | edits {s : State} {st : Station} {b : Basket} (h : BasketEdit s st b) : Move s (setBasket st b s)
  /-- HOLD-SEAT (R24, R25). -/
  | claims {s : State} {st : Station} {n : Nat} {h : Hold} {r : SeatRef} {x : Seat} {w : Option Deadline}
      (hidle : s.payIdle st = true) (hopen : s.slotState r.slot = .opened) (hx : s.seat r.slot (refPos r) = some x)
      (hfree : x.state = .free) (hone : ∀ e ∈ s.holds, e.2.owner = .station st → e.2.slot = r.slot)
      (hn : ((n, h) ∈ s.holds ∧ h.owner = .station st ∧ h.phase = .gathering) ∨ (s.hold n = none ∧ h = newHold st r.slot)) :
      Move s (putHold n { h with seats := h.seats ++ [refPos r], window := w }
        (mapSeats r.slot [refPos r] (fun x => { x with state := .pending n }) s))
  /-- A close that passes (R32). -/
  | closes {s : State} {st : Station} {n : Nat} {h : Hold} (hn : (n, h) ∈ s.holds) (howner : h.owner = .station st)
      (hphase : h.phase = .gathering) :
      Move s (joinBasket st n h (putHold n { h with phase := .standing, window := none }
        (mapSeats h.slot h.seats (fun x => { x with state := .held n }) s)))
  /-- A hold that stands in no basket lets its seats go (R33, R36, R42, R43). -/
  | releases {s : State} {n : Nat} {h : Hold} (hn : (n, h) ∈ s.holds) (hout : h.phase = .gathering ∨ h.owner = .site) :
      Move s (releaseHold n s)
  /-- DROP-HOLD of a hold that does not gather (R34). -/
  | drops {s : State} {st : Station} {n : Nat} {h : Hold} (hidle : s.payIdle st = true) (hn : s.hold n = some h)
      (howner : h.owner = .station st) (hphase : h.phase ≠ .gathering) : Move s (leaveBasket st n h (releaseHold n s))
  /-- A basket emptied (R58). -/
  | empties {s : State} {st : Station} (hidle : s.payIdle st = true) : Move s (emptyBasket st s)
  /-- SITE-HOLD (R41). -/
  | siteHolds {s : State} {n : Nat} {h : Hold} {sc : Screening} (hn : s.hold n = none) (howner : h.owner = .site)
      (hphase : h.phase = .standing) (hsc : s.screening h.slot = some sc) (hopen : sc.phase = .opened)
      (hfree : ∀ p ∈ h.seats, ∃ x, sc.seat p = some x ∧ x.state = .free) :
      Move s (putHold n h (mapSeats h.slot h.seats (fun x => { x with state := .held n }) s))
  /-- PAY (R88). -/
  | accepts {s : State} {st : Station} (tag : Tag) (h : payRefusal st s = none) : Move s (acceptPay st tag s)
  /-- A payment goes on to another state before the commit. -/
  | proceeds {s : State} {st : Station} {p p' : Payment} (hp : s.payment st = some p) (hph : p.phase ≠ .capturing)
      (hph' : p'.phase ≠ .capturing) (hsale : p'.resSale = p.resSale) (hjournal : p'.resJournal = p.resJournal) :
      Move s (setPayment st (some p') s)
  /-- A payment ends without a sale (R94). -/
  | ends {s : State} {st : Station} {p : Payment} (hp : s.payment st = some p) (hph : p.phase ≠ .capturing)
      (o : Option PayOutcome) : Move s (endWithoutSale st p o s)
  /-- A payment ends with a REVERSAL record (R103). -/
  | reverses {s : State} {st : Station} {p : Payment} (hp : s.payment st = some p) (hph : p.phase ≠ .capturing) (c : Bool)
      (r : ReversalReason) (o : Option PayOutcome) : Move s (reverseAndEnd st p c r o s)
  /-- The end of a capture (R104). -/
  | captures {s : State} {st : Station} {p : Payment} (hp : s.payment st = some p) (hph : p.phase = .capturing)
      (c : CaptureState) : Move s (endCapture st p c s)
  /-- The commit of a station's basket (R112). -/
  | commits {s : State} {st : Station} {p p' : Payment} {auth : Auth} {room : Nat} (hp : s.payment st = some p)
      (hph : p.phase = .authorising)
      (hph' : p'.phase = .capturing) (hsale : p'.resSale = false) (hjournal : p'.resJournal = p.resJournal) :
      Move s (setPayment st (some p') (commit st auth room s))
  /-- SITE-SELL (R114). -/
  | sells {s : State} {n : Nat} {h : Hold} {m : Summary} (hn : s.hold n = some h) (howner : h.owner = .site)
      (hm : m.seats.map (·.ref) = h.seats.map (fun p => ⟨h.slot, p.row, p.num⟩)) (hsales : s.salesFree ≠ 0)
      (hjournal : s.journalFree ≠ 0) (tag : Tag) (ref : Chars 8) : Move s (takeSiteSell tag n h ref m s)
  /-- REFUND (R117). -/
  | refunds {s : State} {n : Nat} {x : Sale} (hx : s.sale n = some x) (hstate : x.state = .active) (hjournal : s.journalFree ≠ 0)
      (tag : Tag) : Move s (takeRefund tag n x s)
  /-- The journal's records fall in number, or one is written from a free entry (R122, R124). -/
  | journals {s t : State} (k : Nat) (h : t.books = { s.books with recorded := k })
      (hk : k ≤ s.journal.length ∨ (k = s.journal.length + 1 ∧ s.journalFree ≠ 0))
      (hv : s.vouchers.wf = true → t.vouchers.wf = true) : Move s t

/-- A sequence of moves. -/
abbrev Moves : State → State → Prop := Relation.ReflTransGen Move

theorem Move.moves {s t : State} (h : Move s t) : Moves s t := .single h

/-- Moves read from the last operation inward, as a composed operation is written. -/
theorem Moves.after {s t u : State} (k : Moves t u) (h : Moves s t) : Moves s u := h.trans k

theorem Moves.quiet {s t : State} (h : t.books = s.books) (hv : s.vouchers.wf = true → t.vouchers.wf = true) : Moves s t :=
  (Move.quiet h hv).moves

theorem Moves.foldl {α : Type} (op : State → α → State) (h : ∀ s a, Moves s (op s a)) (l : List α) (s : State) :
    Moves s (l.foldl op s) :=
  foldl_preserves (Moves s) op (fun t a ht => ht.trans (h t a)) l s .refl

/-! ### Moves that leave the books -/

theorem moves_emit (l : Line) (r : OutRec) (s : State) : Moves s (emit l r s) := by rw [emit_frame]; exact .quiet rfl id

theorem moves_replySite (tag : Tag) (c : Code) (vs : List Val) (s : State) : Moves s (replySite tag c vs s) := moves_emit ..

theorem moves_replyStation (st : Station) (tag : Tag) (c : Code) (vs : List Val) (s : State) :
    Moves s (replyStation st tag c vs s) := moves_emit ..

theorem moves_modifyLane (st : Station) (f : Lane → Lane) (s : State) : Moves s (modifyLane st f s) := .quiet rfl id

theorem moves_modifyLine (l : Line) (f : LineRec → LineRec) (s : State) : Moves s (modifyLine l f s) := .quiet rfl id

theorem moves_setMover (m : Mover) (s : State) : Moves s (setMover m s) := .quiet rfl id

theorem moves_setItem (code : Nat) (x : Item) (s : State) : Moves s (setItem code x s) := by
  rw [setItem_frame]; exact .quiet rfl id

theorem moves_modifyItem (code : Nat) (f : Item → Item) (s : State) : Moves s (modifyItem code f s) := by
  rw [modifyItem_frame]; exact .quiet rfl id

theorem moves_judgeLow (code : Nat) (s : State) : Moves s (judgeLow code s) := by rw [judgeLow_frame]; exact .quiet rfl id

theorem moves_judgeJournal (s : State) : Moves s (judgeJournal s) := by rw [judgeJournal_frame]; exact .quiet rfl id

theorem moves_reserveUnits (code qty : Nat) (s : State) : Moves s (reserveUnits code qty s) :=
  (moves_judgeLow ..).after (moves_modifyItem ..)

theorem moves_returnUnits (code qty : Nat) (s : State) : Moves s (returnUnits code qty s) :=
  (moves_judgeLow ..).after (moves_modifyItem ..)

theorem moves_putVoucher (n : Nat) (v : Voucher) (s : State) : Moves s (putVoucher n v s) :=
  .quiet rfl (fun h => Tbl.wf_put h n v)

theorem moves_modifyVoucher (n : Nat) (f : Voucher → Voucher) (s : State) : Moves s (modifyVoucher n f s) := by
  unfold modifyVoucher
  split
  · exact moves_putVoucher ..
  · exact .refl

theorem moves_answerPay (st : Station) (c : Code) (vs : List Val) (s : State) : Moves s (answerPay st c vs s) := by
  rw [answerPay_frame]; exact .quiet rfl id

theorem payment_answerPay (st st' : Station) (c : Code) (vs : List Val) (s : State) :
    (answerPay st c vs s).payment st' = s.payment st' := by rw [answerPay_frame]; rfl

/-- A sale changed beside its slot, seats and state. -/
theorem moves_modifySale {n : Nat} {s : State} {f : Sale → Sale} (hslot : ∀ x, (f x).slot = x.slot) (hseats : ∀ x, (f x).seats = x.seats)
    (hstate : ∀ x, (f x).state = x.state) : Moves s (modifySale n f s) := by
  unfold modifySale
  split
  · next x hx => exact (Move.amends hx (hslot x) (hseats x) (hstate x)).moves
  · exact .refl

/-- A basket changed beside holds, seat lines and summary. -/
theorem moves_modifyBasket {st : Station} {s : State} {f : Basket → Basket} (hholds : ∀ b, (f b).holds = b.holds)
    (hlines : ∀ b, (f b).seatLines = b.seatLines) (hsummary : ∀ b, (f b).summary = b.summary) :
    Moves s (modifyBasket st f s) :=
  (Move.edits ⟨hholds _, by rw [hlines], fun m h => .inl (by rwa [hsummary] at h), .inr (by rw [hsummary]; exact id)⟩).moves

/-- A request of a station link is refused, or its block acts (R182). -/
theorem moves_stationRequest (st : Station) (tag : Tag) (k : ReqKind) {act : State → State} (h : ∀ s, Moves s (act s)) (s : State) :
    Moves s (stationRequest st tag k act s) := by
  unfold stationRequest
  split
  · split
    · split
      · exact h s
      · exact moves_replyStation ..
    · exact moves_replyStation ..
  · split
    · exact h s
    · exact moves_replyStation ..

end Sys2Proof.Machine
end

section
/-! The commands of chapters 1 to 4 and 9 as sequences of moves. -/

namespace Sys2Proof.Machine

/-! ### Voucher table -/

theorem moves_querySnacks (tag : Tag) (first last : Nat) (s : State) : Moves s (querySnacks tag first last s) := by
  unfold querySnacks
  split <;> exact moves_replySite ..

theorem moves_setAllowance (tag : Tag) (code allowance lowMark : Nat) (restart : Bool) (s : State) :
    Moves s (setAllowance tag code allowance lowMark restart s) := by
  have restarted : Moves s (if restart then
      { modifyItem code (fun x => { x with issued := 0 }) s with
        vouchers := s.vouchers.map (fun e => if e.2.item = code then (e.1, { e.2 with counted := false }) else e) }
      else s) := by
    split
    · rw [modifyItem_frame]
      exact .quiet rfl (fun h => Tbl.wf_map h _ (fun e => by split <;> rfl))
    · exact .refl
  unfold setAllowance
  split
  · dsimp only
    split
    · exact .refl
    · exact (moves_replySite ..).after ((moves_judgeLow ..).after ((moves_setItem ..).after restarted))
  · exact moves_replySite ..

theorem moves_loadSeed (tag : Tag) (seed : Nat) (s : State) : Moves s (loadSeed tag seed s) := by
  unfold loadSeed
  split
  · exact moves_replySite ..
  · split
    · exact (moves_replySite ..).after (.quiet rfl id)
    · exact moves_replySite ..

theorem moves_unlockVoucher (tag : Tag) (serial : Nat) (s : State) : Moves s (unlockVoucher tag serial s) := by
  unfold unlockVoucher
  split
  · split
    · exact moves_replySite ..
    · split
      · split
        · exact moves_replySite ..
        · exact (moves_replySite ..).after (moves_putVoucher ..)
      · exact moves_replySite ..
  · exact moves_replySite ..

theorem moves_queryVoucher (st : Station) (tag : Tag) (serial : Nat) (s : State) : Moves s (queryVoucher st tag serial s) := by
  unfold queryVoucher
  split
  · split <;> exact moves_replyStation ..
  · exact moves_replyStation ..

/-! ### Loads of tariff and snacks -/

theorem moves_treatBasket (k : LoadKind) (s : State) (st : Station) : Moves s (treatBasket k s st) := by
  have stale (h : s.payIdle st = true) : Moves s (emit (.station st) (.priceStale k)
      (modifyBasket st (fun b => { b with summary := none, stale := true }) s)) :=
    (moves_emit ..).after (.single (.edits (.unpriced rfl rfl rfl h)))
  unfold treatBasket
  split
  · exact moves_modifyBasket (fun _ => rfl) (fun _ => rfl) (fun _ => rfl)
  · split
    · next h => exact stale h
    · exact .refl
  · split
    · next h => exact stale h
    · exact .refl
  · exact .refl
  · exact .refl

theorem moves_treatBaskets (k : LoadKind) (s : State) : Moves s (treatBaskets k s) :=
  Moves.foldl (treatBasket k) (fun s st => moves_treatBasket k s st) _ s

theorem moves_loadTariff (tag : Tag) (f : Tariff) (s : State) : Moves s (loadTariff tag f s) := by
  unfold loadTariff
  split
  · exact moves_replySite ..
  · exact moves_replySite ..
  · exact (moves_replySite ..).after ((moves_treatBaskets ..).after (.quiet rfl id))

theorem moves_loadSnacks (tag : Tag) (entries : List SnackEntry) (s : State) : Moves s (loadSnacks tag entries s) := by
  unfold loadSnacks
  split
  · split
    · exact moves_replySite ..
    · exact (moves_replySite ..).after ((moves_treatBaskets ..).after
        (Moves.foldl _ (fun s (e : SnackEntry) => moves_modifyItem ..) entries s))
  · exact moves_replySite ..

/-! ### Baskets -/

theorem moves_basketChange {st : Station} {s : State} (hidle : s.payIdle st = true) : Moves s (basketChange st s) :=
  (.single (.edits (.unpriced rfl rfl rfl hidle)))

theorem moves_basketOpens {st : Station} {s : State} (hidle : s.payIdle st = true) : Moves s (basketOpens st s) :=
  (.single (.edits (.unpriced rfl rfl rfl hidle)))

/-- Snack lines that enter a basket (R52). -/
theorem moves_basketGains_snacks {st : Station} {s : State} (hidle : s.payIdle st = true) (l : List SnackLine) :
    Moves s (basketGains st (fun b => { b with snacks := l }) s) := by
  have hmod : Moves s (modifyBasket st (fun b => { b with snacks := l }) s) :=
    moves_modifyBasket (fun _ => rfl) (fun _ => rfl) (fun _ => rfl)
  unfold basketGains
  split
  · exact Moves.after (moves_basketOpens hidle) hmod
  · exact Moves.after (moves_basketChange hidle) hmod

theorem moves_basketLoses {st : Station} {s : State} (hidle : s.payIdle st = true) : Moves s (basketLoses st s) := by
  unfold basketLoses
  split
  · exact (.single (.empties hidle))
  · exact moves_basketChange hidle

@[simp] theorem payIdle_returnUnits (st : Station) (code qty : Nat) (s : State) :
    (returnUnits code qty s).payIdle st = s.payIdle st := by rw [returnUnits_frame]; rfl

@[simp] theorem payIdle_reserveUnits (st : Station) (code qty : Nat) (s : State) :
    (reserveUnits code qty s).payIdle st = s.payIdle st := by rw [reserveUnits_frame]; rfl

theorem moves_setCategory (st : Station) (tag : Tag) (ref : SeatRef) (cat : Nat) (s : State) :
    Moves s (setCategory st tag ref cat s) := by
  unfold setCategory
  split
  · split
    · exact moves_replyStation ..
    · next hidle =>
      have hidle : s.payIdle st = true := by simpa using hidle
      split
      · exact moves_replyStation ..
      · split
        · exact moves_replyStation ..
        · split
          · refine (moves_replyStation ..).after (Moves.after (moves_basketChange hidle)
            (.single (.edits ⟨rfl, ?_, fun m h => .inl h, .inl hidle⟩)))
            rw [List.map_map]
            refine List.map_congr_left fun l _ => ?_
            dsimp only [Function.comp]
            split <;> rfl
          · exact moves_replyStation ..
  · exact moves_replyStation ..

theorem moves_addSnack (st : Station) (tag : Tag) (item qty : Nat) (s : State) : Moves s (addSnack st tag item qty s) := by
  unfold addSnack
  split
  · exact moves_replyStation ..
  · dsimp only
    split
    · exact moves_replyStation ..
    · split
      · exact moves_replyStation ..
      · next hidle =>
        have hidle : s.payIdle st = true := by simpa using hidle
        split
        · exact moves_replyStation ..
        · split
          · exact moves_replyStation ..
          · split
            · exact moves_replyStation ..
            · exact (moves_replyStation ..).after ((moves_basketGains_snacks (by simpa using hidle) _).after (moves_reserveUnits ..))

theorem moves_removeSnack (st : Station) (tag : Tag) (item qty : Nat) (s : State) : Moves s (removeSnack st tag item qty s) := by
  unfold removeSnack
  dsimp only
  split
  · exact moves_replyStation ..
  · split
    · exact moves_replyStation ..
    · next hidle =>
      have hidle : s.payIdle st = true := by simpa using hidle
      split
      · exact moves_replyStation ..
      · split
        · exact moves_replyStation ..
        · refine (moves_replyStation ..).after ((moves_basketLoses ?_).after ((moves_returnUnits ..).after
            (moves_modifyBasket (fun _ => rfl) (fun _ => rfl) (fun _ => rfl))))
          rw [payIdle_returnUnits]
          exact hidle

/-- A summary lists the seat lines priced (R69). -/
theorem refs_pricing (t : Tariff) (lines : List SeatLine) (snacks : List SnackLine) (s : State) :
    (pricing t lines snacks s).seats.map (·.ref) = lines.map (·.ref) := by
  unfold pricing
  simp only [List.map_map]
  refine List.map_congr_left fun l _ => ?_
  rfl

theorem moves_price (st : Station) (tag : Tag) (s : State) : Moves s (price st tag s) := by
  unfold price
  dsimp only
  split
  · exact moves_replyStation ..
  · next hidle =>
    have hidle : s.payIdle st = true := by simpa using hidle
    split
    · exact moves_replyStation ..
    · split
      · exact moves_replyStation ..
      · split
        · exact moves_replyStation ..
        · split
          · exact moves_replyStation ..
          · split
            · exact moves_replyStation ..
            · refine (moves_replyStation ..).after (.single (.edits ⟨rfl, rfl, fun m h => .inr ?_, .inl hidle⟩))
              cases h
              exact refs_pricing ..

theorem moves_abandon (st : Station) (tag : Tag) (s : State) : Moves s (abandon st tag s) := by
  unfold abandon
  split
  · next hidle => exact (moves_replyStation ..).after (.single (.empties hidle))
  · exact moves_replyStation ..

theorem moves_lapseReached (st : Station) (s : State) : Moves s (lapseReached st s) := by
  unfold lapseReached
  dsimp only
  split
  · split
    · next hidle => exact (moves_emit ..).after (.single (.empties hidle))
    · exact moves_modifyBasket (fun _ => rfl) (fun _ => rfl) (fun _ => rfl)
  · exact .refl

/-! ### Holds -/

theorem gathering_mem {s : State} {st : Station} {n : Nat} {h : Hold} (hg : s.gathering st = some (n, h)) :
    (n, h) ∈ s.holds ∧ h.owner = .station st ∧ h.phase = .gathering := by
  have hm := List.mem_filter.mp (List.mem_of_find?_eq_some hg)
  exact ⟨hm.1, by simpa using hm.2, by simpa using List.find?_some hg⟩

theorem gathering_eq_none {s : State} {st : Station} : s.gathering st = none ↔
    ∀ e ∈ s.holds, e.2.owner = .station st → e.2.phase ≠ .gathering := by
  simp only [State.gathering, State.holdsOf, List.find?_eq_none, List.mem_filter, decide_eq_true_eq, and_imp]

theorem hold_lowestFree {s : State} {bound n : Nat} (h : s.holds.lowestFree bound = some n) : s.hold n = none := by
  simpa [State.hold] using List.find?_some h

theorem moves_closeHold {st : Station} {n : Nat} {h : Hold} {s : State} (hn : (n, h) ∈ s.holds) (howner : h.owner = .station st)
    (hphase : h.phase = .gathering) : Moves s (closeHold st n h s) := by
  have passes : Moves s (closePasses st n h s) := (moves_emit ..).after (.single (.closes hn howner hphase))
  have fails (r : CloseResult) : Moves s (closeFails st n h r s) := (moves_emit ..).after (.single (.releases hn (.inl hphase)))
  unfold closeHold
  split
  · exact passes
  · split
    · exact passes
    · exact fails _
    · exact fails _

theorem moves_holdClose (st : Station) (tag : Tag) (s : State) : Moves s (holdClose st tag s) := by
  unfold holdClose
  split
  · next n h hg =>
    obtain ⟨hn, ho, hp⟩ := gathering_mem hg
    exact (moves_closeHold (by simpa [replyStation] using hn) ho hp).after (moves_replyStation ..)
  · exact moves_replyStation ..

theorem moves_windowReached (n : Nat) (s : State) : Moves s (windowReached n s) := by
  unfold windowReached
  split
  · exact .refl
  · next h hh =>
    split
    · next st ho =>
      split
      · next hp => exact moves_closeHold (Tbl.find_mem hh) ho hp.1
      · exact .refl
    · exact .refl

/-- What a HOLD-SEAT that no check of Table 2-3 refuses has found (R24). -/
theorem holdSeatRefusal_none {st : Station} {r : SeatRef} {s : State} (h : holdSeatRefusal st r s = none) :
    s.payIdle st = true ∧ s.slotState r.slot = .opened ∧ (∃ x, s.seat r.slot (refPos r) = some x ∧ x.state = .free) ∧
      ∀ e ∈ s.holds, e.2.owner = .station st → e.2.slot = r.slot := by
  unfold holdSeatRefusal at h
  dsimp only at h
  split at h
  · cases h
  · next hidle =>
    split at h
    · cases h
    · next hopen =>
      split at h
      · cases h
      · next x hx =>
        split at h
        · cases h
        · next hmine =>
          refine ⟨by simpa using hidle, by simpa using hopen, ⟨x, hx, ?_⟩, fun e he ho => ?_⟩
          · split at h
            · cases h
            · split at h
              · cases h
              · split at h
                · cases h
                · split at h
                  · cases h
                  · next hfree => simpa using hfree
          · have := List.find?_eq_none.mp hmine e (List.mem_filter.mpr ⟨he, by simpa using ho⟩)
            simpa using this

theorem moves_holdSeat (st : Station) (tag : Tag) (r : SeatRef) (s : State) : Moves s (holdSeat st tag r s) := by
  unfold holdSeat
  split
  · split
    · exact moves_replyStation ..
    · next hr =>
      obtain ⟨hidle, hopen, ⟨x, hx, hfree⟩, hone⟩ := holdSeatRefusal_none hr
      split
      · next n h hg =>
        exact (moves_replyStation ..).after (.single (.claims hidle hopen hx hfree hone (.inl (gathering_mem hg))))
      · split
        · next n hn =>
          exact (moves_replyStation ..).after (.single (.claims hidle hopen hx hfree hone (.inr ⟨hold_lowestFree hn, rfl⟩)))
        · exact moves_replyStation ..
  · exact moves_replyStation ..

theorem moves_dropHold (st : Station) (tag : Tag) (n : Nat) (s : State) : Moves s (dropHold st tag n s) := by
  unfold dropHold
  split
  · exact moves_replyStation ..
  · split
    · exact moves_replyStation ..
    · next hidle =>
      have hidle : s.payIdle st = true := by simpa using hidle
      split
      · exact moves_replyStation ..
      · next h hh =>
        split
        · next ho =>
          refine (moves_replyStation ..).after ?_
          split
          · next hp => exact (.single (.releases (Tbl.find_mem hh) (.inl hp)))
          · next hp => exact (.single (.drops hidle hh ho hp))
        · exact moves_replyStation ..

/-- What a SITE-HOLD that no check refuses has found (R40). -/
theorem siteHoldRefusal_none {slot : Nat} {ps : List SeatPos} {s : State} (h : siteHoldRefusal slot ps s = none) :
    ∃ sc, s.screening slot = some sc ∧ sc.phase = .opened ∧ ∀ p ∈ ps, ∃ x, sc.seat p = some x ∧ x.state = .free := by
  unfold siteHoldRefusal at h
  split at h
  · cases h
  · next sc hsc =>
    split at h
    · cases h
    · next hopen =>
      split at h
      · cases h
      · next hall =>
        split at h
        · cases h
        · next hfree =>
          refine ⟨sc, hsc, by simpa using hopen, fun p hp => ?_⟩
          obtain ⟨x, hx⟩ := Option.ne_none_iff_exists'.mp (by simpa using List.find?_eq_none.mp hall p hp : sc.seat p ≠ none)
          exact ⟨x, hx, by simpa using List.find?_eq_none.mp hfree x (List.mem_filterMap.mpr ⟨p, hp, hx⟩)⟩

theorem moves_siteHold (tag : Tag) (slot : Nat) (ps : List SeatPos) (seconds : Nat) (ref : Chars 8) (s : State) :
    Moves s (siteHold tag slot ps seconds ref s) := by
  unfold siteHold
  split
  · exact moves_replySite ..
  · split
    · exact moves_replySite ..
    · next hr =>
      obtain ⟨sc, hsc, hopen, hfree⟩ := siteHoldRefusal_none hr
      split
      · next n hn =>
        refine (moves_replySite ..).after (Move.moves ?_)
        exact Move.siteHolds (h := ⟨.site, slot, ps, .standing, none, some (deadlineIn s (seconds * 1000)), some ref⟩)
          (hold_lowestFree hn) rfl rfl hsc hopen hfree
      · exact moves_replySite ..

theorem moves_ownReached (n : Nat) (s : State) : Moves s (ownReached n s) := by
  unfold ownReached
  split
  · exact .refl
  · next h hh =>
    split
    · next ho => exact (moves_emit ..).after (.single (.releases (Tbl.find_mem hh) (.inr ho.1)))
    · exact .refl

theorem moves_siteRelease (tag : Tag) (n : Nat) (ref : Chars 8) (s : State) : Moves s (siteRelease tag n ref s) := by
  unfold siteRelease
  split
  · split
    · exact moves_replySite ..
    · next h hh =>
      split
      · next ho => exact (moves_replySite ..).after (.single (.releases (Tbl.find_mem hh) (.inr ho.1)))
      · exact moves_replySite ..
  · exact moves_replySite ..

/-! ### Screenings -/

theorem moves_beginScreening (tag : Tag) (f : BeginFields) (s : State) : Moves s (beginScreening tag f s) := by
  unfold beginScreening
  split
  · exact moves_replySite ..
  · split
    · exact moves_replySite ..
    · next hslot =>
      split
      · exact moves_replySite ..
      · next hfit => exact (moves_replySite ..).after (.single (.begins hslot rfl (Nat.not_lt.mp hfit)))

theorem moves_endLoad (tag : Tag) (slot : Nat) (s : State) : Moves s (endLoad tag slot s) := by
  unfold endLoad
  split
  · exact moves_replySite ..
  · split
    · exact moves_replySite ..
    · next sc hsc =>
      split
      · exact moves_replySite ..
      · split
        · exact (moves_replySite ..).after (.single (.turns hsc (by simp)))
        · exact moves_replySite ..

theorem moves_stopSales (tag : Tag) (slot : Nat) (s : State) : Moves s (stopSales tag slot s) := by
  unfold stopSales
  split
  · exact moves_replySite ..
  · split
    · exact moves_replySite ..
    · next sc hsc =>
      split
      · exact moves_replySite ..
      · exact (moves_replySite ..).after (.single (.turns hsc (by simp)))
      · exact moves_replySite ..

theorem moves_retireScreening (tag : Tag) (slot : Nat) (s : State) : Moves s (retireScreening tag slot s) := by
  have whole : Moves s (if s.holdsIn slot = 0 ∧ s.capturesIn slot = 0 ∧ s.ordersIn slot = 0 then takeRetire tag slot s
      else replySite tag .busy
        [.holdsFound (s.holdsIn slot), .capturesFound (s.capturesIn slot), .ordersFound (s.ordersIn slot)] s) := by
    split
    · next h => exact (moves_replySite ..).after (.single (.retires h.1))
    · exact moves_replySite ..
  unfold retireScreening
  split
  · exact moves_replySite ..
  · split
    · exact moves_replySite ..
    · next sc hsc =>
      split
      · next hl => exact (moves_replySite ..).after (.single (.abandons ⟨sc, hsc, hl⟩))
      · exact whole
      · exact whole

theorem moves_treatSeats {act : Seat → Seat × SeatResult} (hact : ∀ x, SameOwner x (act x).1) (slot : Nat) :
    ∀ (ps : List SeatPos) (s : State), Moves s (treatSeats act slot ps s).1
  | [], _ => .refl
  | p :: rest, s => by
    unfold treatSeats
    split
    · exact moves_treatSeats hact slot rest s
    · exact (moves_treatSeats hact slot rest _).after (.single (.touches slot [p] hact))

theorem moves_treatSlot {act : Seat → Seat × SeatResult} (hact : ∀ x, SameOwner x (act x).1) (tag : Tag) (slot : Nat)
    (ps : List SeatPos) (s : State) : Moves s (treatSlot act tag slot ps s) := by
  unfold treatSlot
  split
  · exact moves_replySite ..
  · split
    · exact moves_replySite ..
    · split
      · exact moves_replySite ..
      · exact (moves_replySite ..).after (moves_treatSeats hact slot ps s)

theorem moves_querySeats (tag : Tag) (slot row first last : Nat) (s : State) : Moves s (querySeats tag slot row first last s) := by
  unfold querySeats
  split
  · exact moves_replySite ..
  · split <;> exact moves_replySite ..

theorem moves_queryMap (st : Station) (tag : Tag) (slot first last : Nat) (s : State) :
    Moves s (queryMap st tag slot first last s) := by
  unfold queryMap
  split
  · exact moves_replyStation ..
  · split
    · exact moves_replyStation ..
    · split <;> exact moves_replyStation ..

/-! ### The seats a SEAT-ROW loads -/

theorem mem_insertSeat {x y : Seat} {l : List Seat} : y ∈ insertSeat x l ↔ y = x ∨ y ∈ l := by
  induction l with
  | nil => simp [insertSeat]
  | cons z t ih =>
    unfold insertSeat
    split
    · simp
    · simp only [List.mem_cons, ih]; tauto

theorem mem_insertSeats {y : Seat} : ∀ (xs l : List Seat), y ∈ xs.foldl (fun l x => insertSeat x l) l ↔ y ∈ xs ∨ y ∈ l
  | [], l => by simp
  | x :: xs, l => by
    rw [List.foldl_cons, mem_insertSeats xs, mem_insertSeat, List.mem_cons]; tauto

theorem length_insertSeat (x : Seat) (l : List Seat) : (insertSeat x l).length = l.length + 1 := by
  induction l with
  | nil => rfl
  | cons y t ih => unfold insertSeat; split <;> simp [ih]

theorem length_insertSeats : ∀ (xs l : List Seat), (xs.foldl (fun l x => insertSeat x l) l).length = l.length + xs.length
  | [], l => rfl
  | x :: xs, l => by rw [List.foldl_cons, length_insertSeats xs, length_insertSeat, List.length_cons]; omega

/-- A seat put among seats of other places stands in order. -/
theorem inSeatOrder_insertSeat {x : Seat} {l : List Seat} (hx : ∀ y ∈ l, y.row ≠ x.row ∨ y.num ≠ x.num) (hl : InSeatOrder l) :
    InSeatOrder (insertSeat x l) := by
  unfold InSeatOrder at *
  induction l with
  | nil => simp [insertSeat]
  | cons y t ih =>
    obtain ⟨hy, ht⟩ := List.pairwise_cons.mp hl
    unfold insertSeat
    split
    · next hlt =>
      refine List.pairwise_cons.mpr ⟨fun z hz => ?_, hl⟩
      rcases List.mem_cons.mp hz with rfl | hz
      · exact hlt
      · have := hy z hz; omega
    · next hge =>
      refine List.pairwise_cons.mpr ⟨fun z hz => ?_, ih (fun z hz => hx z (List.mem_cons_of_mem _ hz)) ht⟩
      rcases mem_insertSeat.mp hz with rfl | hz
      · have := hx y List.mem_cons_self; omega
      · exact hy z hz

theorem inSeatOrder_insertSeats : ∀ (xs l : List Seat), (∀ x ∈ xs, ∀ y ∈ l, y.row ≠ x.row ∨ y.num ≠ x.num) →
    xs.Pairwise (fun a b => a.row ≠ b.row ∨ a.num ≠ b.num) → InSeatOrder l →
    InSeatOrder (xs.foldl (fun l x => insertSeat x l) l)
  | [], _, _, _, h => h
  | x :: xs, l, hx, hp, h => by
    obtain ⟨hhead, htail⟩ := List.pairwise_cons.mp hp
    rw [List.foldl_cons]
    refine inSeatOrder_insertSeats xs _ (fun z hz y hy => ?_) htail
      (inSeatOrder_insertSeat (hx x List.mem_cons_self) h)
    rcases mem_insertSeat.mp hy with rfl | hy
    · exact hhead z hz
    · exact hx z (List.mem_cons_of_mem _ hz) y hy

theorem hasRepeat_eq_false {α : Type} [DecidableEq α] {l : List α} : hasRepeat l = false ↔ l.Nodup := by
  induction l with
  | nil => simp [hasRepeat]
  | cons x t ih => simp [hasRepeat, ih]

/-- What the first check of R4 says of a run. -/
theorem runOk_iff (r : RunSpec) : runOk r = true ↔ 1 ≤ r.count ∧ 1 ≤ r.first ∧ r.first + r.count - 1 ≤ 80 ∧ r.cls < 8 ∧
    r.kinds.length = r.count ∧ ∀ k ∈ r.kinds, k.isSome = true := by
  simp only [runOk, Bool.and_eq_true, decide_eq_true_eq, List.all_eq_true, and_assoc]

theorem map_some_filterMap_id {α : Type} {l : List (Option α)} (h : ∀ k ∈ l, k.isSome = true) : (l.filterMap id).map some = l := by
  induction l with
  | nil => rfl
  | cons k t ih =>
    obtain ⟨a, rfl⟩ := Option.isSome_iff_exists.mp (h k List.mem_cons_self)
    exact congrArg (some a :: ·) (ih fun k hk => h k (List.mem_cons_of_mem _ hk))

theorem length_kinds {r : RunSpec} (h : runOk r = true) : (r.kinds.filterMap id).length = r.count := by
  obtain ⟨_, _, _, _, hlen, hsome⟩ := (runOk_iff r).mp h
  rw [← hlen, ← congrArg List.length (map_some_filterMap_id hsome), List.length_map]

theorem length_runSeats {r : RunSpec} (h : runOk r = true) (row runId : Nat) : (runSeats row runId r).length = r.count := by
  rw [runSeats, List.length_map, List.length_zipIdx, length_kinds h]

/-- The seats of a run carry its numbers in order (R5). -/
theorem nums_runSeats {r : RunSpec} (h : runOk r = true) (row runId : Nat) : (runSeats row runId r).map (·.num) = runNumbers r := by
  apply List.ext_getElem
  · rw [List.length_map, length_runSeats h, runNumbers, List.length_map, List.length_range]
  · simp [runSeats, runNumbers, loadedSeat]

theorem row_of_mem_runSeats {row runId : Nat} {r : RunSpec} {x : Seat} (h : x ∈ runSeats row runId r) : x.row = row ∧ x.unowned := by
  obtain ⟨e, _, rfl⟩ := List.mem_map.mp h
  refine ⟨rfl, ?_⟩
  unfold Seat.unowned loadedSeat
  dsimp only
  split
  · exact .inr rfl
  · exact .inl rfl

theorem nums_rowSeats (row : Nat) : ∀ (runs : List RunSpec) (c k : Nat), (∀ r ∈ runs, runOk r = true) →
    ((runs.zipIdx k).flatMap (fun e => runSeats row (c + 1 + e.2) e.1)).map (·.num) = runs.flatMap runNumbers
  | [], _, _, _ => rfl
  | r :: rest, c, k, h => by
    rw [List.zipIdx_cons, List.flatMap_cons, List.flatMap_cons, List.map_append, nums_runSeats (h r List.mem_cons_self),
      nums_rowSeats row rest c (k + 1) (fun r hr => h r (List.mem_cons_of_mem _ hr))]

theorem row_of_mem_rowSeats {row c : Nat} {runs : List RunSpec} {x : Seat} (h : x ∈ rowSeats row c runs) :
    x.row = row ∧ x.unowned := by
  obtain ⟨e, _, hx⟩ := List.mem_flatMap.mp h
  exact row_of_mem_runSeats hx

theorem length_rowSeats {row c : Nat} {runs : List RunSpec} (h : ∀ r ∈ runs, runOk r = true) :
    (rowSeats row c runs).length = rowCount runs := by
  have := congrArg List.length (nums_rowSeats row runs c 0 h)
  rw [List.length_map] at this
  exact this.trans (by simp only [List.length_flatMap, runNumbers, List.length_map, List.length_range, rowCount])

/-- The seats of a row without a repeated number stand in places of their own. -/
theorem pairwise_rowSeats {row c : Nat} {runs : List RunSpec} (h : ∀ r ∈ runs, runOk r = true)
    (hn : (runs.flatMap runNumbers).Nodup) : (rowSeats row c runs).Pairwise (fun a b => a.row ≠ b.row ∨ a.num ≠ b.num) := by
  rw [← nums_rowSeats row runs c 0 h] at hn
  exact (List.pairwise_map.mp hn).imp .inr

theorem moves_seatRow (tag : Tag) (slot row : Nat) (runs : List RunSpec) (s : State) : Moves s (seatRow tag slot row runs s) := by
  unfold seatRow
  split
  · exact moves_replySite ..
  · next hok =>
    have hok : ∀ r ∈ runs, runOk r = true := by simp at hok; exact hok.2
    split
    · exact moves_replySite ..
    · next sc hsc =>
      split
      · exact moves_replySite ..
      · next hload =>
        split
        · exact moves_replySite ..
        · next hrow =>
          have hrow : ∀ x ∈ sc.seats, x.row ≠ row := by simpa using hrow
          split
          · exact moves_replySite ..
          · next hrep =>
            have hrep := hasRepeat_eq_false.mp (by simpa using hrep)
            split
            · exact moves_replySite ..
            · split
              · exact moves_replySite ..
              · have hload : sc.phase = .loading := by simpa using hload
                refine (moves_replySite ..).after (.single (.loads hsc hload hload rfl ?_ ?_))
                · refine inSeatOrder_insertSeats _ _ (fun x hx y hy => .inl ?_) (pairwise_rowSeats hok hrep)
                  rw [(row_of_mem_rowSeats hx).1]
                  exact hrow y hy
                · intro x hx
                  exact ((mem_insertSeats _ _).mp hx).symm.imp_right (fun h => (row_of_mem_rowSeats h).2)

end Sys2Proof.Machine
end

section
/-! The commands of chapters 5 to 8 and 10 as sequences of moves, and with them every step. -/

namespace Sys2Proof.Machine

/-! ### Print channel -/

theorem moves_ordersEnded (st : Station) (n k : Nat) (s : State) : Moves s (ordersEnded st n k s) := by
  unfold ordersEnded
  split
  · exact .refl
  · next x hx =>
    have counted : Moves s (putSale n { x with outstanding := x.outstanding - k } s) := .single (.amends hx rfl rfl rfl)
    dsimp only
    split
    · exact Moves.after (moves_emit ..) counted
    · exact counted

theorem moves_completeSource (o : Order) (s : State) : Moves s (completeSource o s) := by
  unfold completeSource
  split
  · split
    · exact .single (.touches _ _ sameOwner_complete)
    · exact moves_modifyVoucher ..
    · exact .refl
  · exact .refl

theorem moves_unsureSource (o : Order) (s : State) : Moves s (unsureSource o s) := by
  unfold unsureSource
  split
  · split
    · exact .single (.touches _ _ sameOwner_unsure)
    · exact moves_modifyVoucher ..
    · exact .refl
  · exact .refl

theorem moves_raiseGeneration (o : Order) (s : State) : Moves s (raiseGeneration o s) := by
  unfold raiseGeneration
  split
  · exact .single (.touches _ _ (fun x => sameOwner_gen x _))
  · exact moves_modifyVoucher ..
  · exact .refl

theorem moves_dropAtStart (st : Station) (o : Order) (reason : Option LimitReason) (s : State) :
    Moves s (dropAtStart st o reason s) := by
  unfold dropAtStart
  refine (moves_ordersEnded ..).after ?_
  cases reason
  · exact moves_modifyLane ..
  · exact (moves_emit ..).after (moves_modifyLane ..)

theorem moves_startOrder (st : Station) (o : Order) (s : State) : Moves s (startOrder st o s) := by
  unfold startOrder
  exact (moves_modifyLane ..).after (moves_raiseGeneration ..)

theorem moves_startNext (st : Station) : ∀ (fuel : Nat) (s : State), Moves s (startNext st fuel s).1
  | 0, _ => .refl
  | fuel + 1, s => by
    unfold startNext
    split
    · exact .refl
    · split
      · exact (moves_startNext st fuel _).after (moves_dropAtStart ..)
      · exact moves_startOrder ..

theorem moves_sendBurst (st : Station) (s : State) : Moves s (sendBurst st s) :=
  (moves_setMover ..).after (.foldl _ (fun s r => moves_emit (.printer st) r s) _ s)

theorem moves_grant (st : Station) (s : State) : Moves s (grant st s).1 := by
  unfold grant
  split
  · exact moves_sendBurst ..
  · dsimp only
    split
    · exact (moves_sendBurst ..).after (moves_startNext ..)
    · exact moves_startNext ..

theorem moves_arbitrate (out : Option Station) : ∀ (fuel : Nat) (s : State), Moves s (arbitrate out fuel s)
  | 0, _ => .refl
  | fuel + 1, s => by
    unfold arbitrate
    split
    · exact .refl
    · dsimp only
      split
      · exact moves_grant ..
      · exact (moves_arbitrate out fuel _).after (moves_grant ..)

theorem moves_endBurst (out : Option Station) (s : State) : Moves s (endBurst out s) :=
  (moves_arbitrate ..).after (moves_setMover ..)

theorem moves_laneComes (st : Station) (s : State) : Moves s (laneComes st s) := by
  unfold laneComes
  split
  · dsimp only
    split
    · exact moves_grant ..
    · exact (moves_arbitrate ..).after (moves_grant ..)
  · exact .refl

theorem moves_acceptRecord (st : Station) (k lvl : Nat) (s : State) : Moves s (acceptRecord st k lvl s) := by
  unfold acceptRecord
  split
  · split
    · unfold acceptBurst
      dsimp only
      split
      · exact (moves_endBurst ..).after ((moves_emit ..).after ((moves_modifyLane ..).after (moves_modifyLane ..)))
      · exact (moves_endBurst ..).after (moves_modifyLane ..)
    · exact .refl
  · exact .refl

theorem moves_levelRecord (st : Station) (lvl : Nat) (s : State) : Moves s (levelRecord st lvl s) := by
  unfold levelRecord
  split
  · exact (moves_laneComes ..).after (moves_modifyLane ..)
  · exact .refl

theorem moves_cutDoneRecord (st : Station) (s : State) : Moves s (cutDoneRecord st s) := by
  unfold cutDoneRecord
  split
  · split
    · exact (moves_laneComes ..).after ((moves_ordersEnded ..).after ((moves_completeSource ..).after (moves_modifyLane ..)))
    · exact .refl
  · exact .refl

theorem moves_laneFault (st : Station) (k : FaultKind) (s : State) : Moves s (laneFault st k s) := by
  unfold laneFault
  split
  · unfold suspendLane
    have faulted (q : List Order) (t : State) : Moves t (printFault st k (q.foldl (fun s o => unsureSource o s) t)) :=
      (moves_emit ..).after (.foldl _ (fun s o => moves_unsureSource o s) q t)
    dsimp only
    split
    · exact (moves_endBurst ..).after ((faulted _ _).after (moves_modifyLane ..))
    · exact (faulted _ _).after (moves_modifyLane ..)
  · exact (moves_emit ..).after (moves_modifyLane ..)

theorem moves_faultRecord (st : Station) (kind : PrinterFault) (k : Nat) (s : State) : Moves s (faultRecord st kind k s) := by
  unfold faultRecord
  split
  · exact moves_laneFault ..
  · exact .refl

theorem moves_clearRecord (st : Station) (s : State) : Moves s (clearRecord st s) := by
  unfold clearRecord
  split
  · exact moves_modifyLane ..
  · exact .refl

theorem moves_burstDeadlineReached (s : State) : Moves s (burstDeadlineReached s) := by
  unfold burstDeadlineReached
  split
  · split
    · exact moves_laneFault ..
    · exact .refl
  · exact .refl

theorem moves_cutDeadlineReached (st : Station) (s : State) : Moves s (cutDeadlineReached st s) := by
  unfold cutDeadlineReached
  split
  · exact moves_laneFault ..
  · exact .refl

theorem moves_settlingReached (st : Station) (s : State) : Moves s (settlingReached st s) := by
  unfold settlingReached
  split
  · exact (moves_laneComes ..).after (moves_modifyLane ..)
  · exact .refl

theorem moves_resumeLane (st : Station) (k : FaultKind) (s : State) : Moves s (resumeLane st k s) := by
  unfold resumeLane
  dsimp only
  split
  · exact (Moves.foldl _ (fun s n => (moves_ordersEnded ..).after (moves_emit ..)) _ _).after (moves_modifyLane ..)
  · exact moves_modifyLane ..

theorem moves_resumeWith {answer : Code → List Val → State → State} (h : ∀ c vs s, Moves s (answer c vs s)) (st : Station)
    (s : State) : Moves s (resumeWith answer st s) := by
  unfold resumeWith
  split
  · exact h ..
  · split
    · exact (h ..).after ((moves_laneComes ..).after (moves_resumeLane ..))
    · exact h ..

theorem moves_resumePrint (sender : ResumeSender) (tag : Tag) (s : State) : Moves s (resumePrint sender tag s) := by
  unfold resumePrint
  split
  · next st => exact moves_stationRequest _ _ _ (moves_resumeWith (moves_replyStation st tag) st) s
  · split
    · exact moves_resumeWith (moves_replySite tag) _ s
    · exact moves_replySite ..

theorem moves_reprint (tag : Tag) (n : Nat) (item : ReprintItem) (station : Nat) (s : State) :
    Moves s (reprint tag n item station s) := by
  have taken (st : Station) : Moves s (takeReprint tag n (orderItemOf item) st s) :=
    (moves_replySite ..).after ((moves_laneComes ..).after ((moves_modifyLane ..).after
      (moves_modifySale (fun _ => rfl) (fun _ => rfl) (fun _ => rfl))))
  have checked (x : Sale) (st : Station) : Moves s (reprintOf tag n x item st s) := by
    unfold reprintOf
    dsimp only
    split
    · exact moves_replySite ..
    · split
      · exact moves_replySite ..
      · split
        · exact moves_replySite ..
        · split
          · exact moves_replySite ..
          · split
            · exact moves_replySite ..
            · split
              · exact moves_replySite ..
              · exact taken st
  unfold reprint
  split
  · exact moves_replySite ..
  · exact moves_replySite ..
  · split
    · exact moves_replySite ..
    · split
      · exact checked ..
      · exact moves_replySite ..

theorem moves_collect (st : Station) (tag : Tag) (ref : Chars 8) (s : State) : Moves s (collect st tag ref s) := by
  unfold collect
  split
  · exact moves_replyStation ..
  · split
    · exact moves_replyStation ..
    · split
      · exact moves_replyStation ..
      · exact (moves_replyStation ..).after ((moves_laneComes ..).after ((moves_modifyLane ..).after
          (moves_modifySale (fun _ => rfl) (fun _ => rfl) (fun _ => rfl))))

/-! ### Sales and the journal -/

theorem length_releaseUpTo {seq : Nat} : ∀ {l rest : List JournalRec}, releaseUpTo seq l = some rest → rest.length ≤ l.length
  | [], _, h => by cases h
  | r :: t, rest, h => by
    unfold releaseUpTo at h
    split at h
    · cases h; simp
    · exact (length_releaseUpTo h).trans (by simp)

theorem moves_journalRelease (tag : Tag) (seq : Nat) (s : State) : Moves s (journalRelease tag seq s) := by
  unfold journalRelease
  split
  · exact moves_replySite ..
  · next rest h =>
    exact (moves_replySite ..).after ((moves_judgeJournal ..).after
      (.single (.journals rest.length rfl (.inl (length_releaseUpTo h)) id)))

/-- A record written from a free entry (R122). -/
theorem moves_writeFree (sale : Option Nat) (amount : Nat) (body : JournalBody) {s : State} (h : s.journalFree ≠ 0) :
    Moves s (writeFree sale amount body s) := by
  refine (moves_judgeJournal ..).after (.single (.journals (s.journal.length + 1) ?_ (.inr ⟨rfl, h⟩) id))
  unfold State.books appendJournal
  simp only [List.length_append, List.length_singleton]
  rfl

/-- A pricing of a hold's seats with one category each lists the hold's seats (R113). -/
theorem refs_zipWith (slot : Nat) : ∀ (ps : List SeatPos) (cats : List Nat), cats.length = ps.length →
    (List.zipWith (fun (p : SeatPos) (c : Nat) => (⟨⟨slot, p.row, p.num⟩, c⟩ : SeatLine)) ps cats).map (·.ref) =
      ps.map (fun p => (⟨slot, p.row, p.num⟩ : SeatRef))
  | [], _, _ => rfl
  | p :: ps, [], h => by cases h
  | p :: ps, c :: cats, h => by
    rw [List.zipWith_cons_cons, List.map_cons, List.map_cons, refs_zipWith slot ps cats (Nat.succ.inj h)]

theorem siteHold_some {s : State} {n : Nat} {ref : Chars 8} {h : Hold} (hh : s.siteHold n ref = some h) :
    s.hold n = some h ∧ h.owner = .site := by
  unfold State.siteHold at hh
  split at hh
  · next g hg =>
    split at hh
    · next ho => cases hh; exact ⟨hg, ho.1⟩
    · cases hh
  · cases hh

theorem moves_siteSell (tag : Tag) (hold : Nat) (ref : Chars 8) (cats : List Nat) (snacks : List SnackLine) (s : State) :
    Moves s (siteSell tag hold ref cats snacks s) := by
  unfold siteSell
  split
  · exact moves_replySite ..
  · split
    · exact moves_replySite ..
    · next h hh =>
      obtain ⟨hn, ho⟩ := siteHold_some hh
      split
      · exact moves_replySite ..
      · next hlen =>
        unfold siteSellHold
        split
        · exact moves_replySite ..
        · split
          · exact moves_replySite ..
          · split
            · exact moves_replySite ..
            · split
              · exact moves_replySite ..
              · next hsales =>
                split
                · exact moves_replySite ..
                · next hjournal =>
                  split
                  · exact moves_replySite ..
                  · split
                    · exact moves_replySite ..
                    · refine .single (.sells hn ho ?_ hsales hjournal tag ref)
                      rw [refs_pricing]
                      exact refs_zipWith _ _ _ (by simpa using hlen)

theorem moves_refund (tag : Tag) (n : Nat) (s : State) : Moves s (refund tag n s) := by
  unfold refund
  split
  · exact moves_replySite ..
  · split
    · exact moves_replySite ..
    · next x hx =>
      split
      · exact moves_replySite ..
      · next hstate =>
        split
        · exact moves_replySite ..
        · split
          · exact moves_replySite ..
          · next hjournal => exact .single (.refunds hx hstate hjournal tag)

theorem moves_querySale (tag : Tag) (n : Nat) (s : State) : Moves s (querySale tag n s) := by
  unfold querySale
  split
  · exact moves_replySite ..
  · split <;> exact moves_replySite ..

theorem moves_wrongCode (st : Station) (tag : Tag) (serial : Nat) (v : Voucher) (s : State) :
    Moves s (wrongCode st tag serial v s) := by
  unfold wrongCode
  dsimp only
  split
  · exact (moves_replyStation ..).after (moves_putVoucher ..)
  · exact (moves_emit ..).after ((moves_replyStation ..).after (moves_putVoucher ..))

theorem moves_redeem (st : Station) (tag : Tag) (serial code : Nat) (s : State) : Moves s (redeem st tag serial code s) := by
  unfold redeem
  split
  · split
    · exact moves_replyStation ..
    · split
      · exact moves_replyStation ..
      · exact moves_replyStation ..
      · exact moves_replyStation ..
      · exact moves_replyStation ..
      · split
        · exact moves_wrongCode ..
        · split
          · exact moves_replyStation ..
          · next hjournal =>
            exact (moves_replyStation ..).after (Moves.after (moves_writeFree _ _ _ hjournal) (moves_putVoucher ..))
  · exact moves_replyStation ..

/-! ### Payments -/

theorem moves_pay (st : Station) (tag : Tag) (s : State) : Moves s (pay st tag s) := by
  unfold pay
  split
  · exact moves_replyStation ..
  · next h => exact .single (.accepts tag h)

/-- A payment in flight before the commit goes on. -/
theorem moves_modifyPayment {st : Station} {s : State} {f : Payment → Payment} {p : Payment} (hp : s.payment st = some p)
    (hph : p.phase ≠ .capturing) (hph' : (f p).phase ≠ .capturing) (hsale : (f p).resSale = p.resSale)
    (hjournal : (f p).resJournal = p.resJournal) : Moves s (modifyPayment st f s) := by
  unfold modifyPayment
  rw [hp]
  exact .single (.proceeds hp hph hph' hsale hjournal)

theorem moves_sendAbort {st : Station} {s : State} {p : Payment} (hp : s.payment st = some p) (hph : p.phase ≠ .capturing)
    (cause : AbortCause) : Moves s (sendAbort st cause s) :=
  (moves_emit ..).after (moves_modifyPayment hp hph (by simp) rfl rfl)

/-- An ABORT sent, and the station told of it (R90, R98). -/
theorem moves_sendAbort_reported {st : Station} {s : State} {p : Payment} (hp : s.payment st = some p) (hph : p.phase ≠ .capturing)
    (cause : AbortCause) : Moves s (modifyPayment st (fun p => { p with reported := true }) (sendAbort st cause s)) := by
  have hp' : (sendAbort st cause s).payment st = some { p with
      phase := .aborting, limit := none, cause := some cause, step := some ⟨s.timeBase, 10000⟩ } := by
    rw [sendAbort_frame, hp]; simp [State.payment, State.pay]
  exact Moves.after (moves_modifyPayment hp' (by simp) (by simp) rfl rfl) (moves_sendAbort hp hph cause)

theorem moves_cancelPay (st : Station) (tag : Tag) (s : State) : Moves s (cancelPay st tag s) := by
  unfold cancelPay
  split
  · exact moves_replyStation ..
  · next p hp =>
    split
    · next hph => exact (moves_replyStation ..).after (moves_modifyPayment hp (by simp [hph]) (by simp [hph]) rfl rfl)
    · next hph => exact (moves_replyStation ..).after (moves_sendAbort hp (by simp [hph]) _)
    · exact moves_replyStation ..
    · exact moves_replyStation ..
    · exact moves_replyStation ..

theorem moves_selectionFails {st : Station} {p : Payment} {s : State} (hp : s.payment st = some p) (hph : p.phase ≠ .capturing)
    (c : Code) (vs : List Val) : Moves s (selectionFails st p c vs s) :=
  Moves.after (.single (.ends (by rw [payment_answerPay]; exact hp) hph none)) (moves_answerPay ..)

theorem moves_selectedRecord (st : Station) (echo : Chars 4) (status : SelectStatus) (s : State) :
    Moves s (selectedRecord st echo status s) := by
  unfold selectedRecord
  split
  · exact .refl
  · next p hp =>
    split
    · next hph =>
      have hne : p.phase ≠ .capturing := by simp [hph]
      split
      · exact moves_selectionFails hp hne _ _
      · split
        · exact moves_selectionFails hp hne _ _
        · split
          · exact (moves_answerPay ..).after ((moves_emit ..).after (.single (.proceeds hp hne (by simp) rfl rfl)))
          · exact (moves_answerPay ..).after (moves_sendAbort_reported hp hne _)
    · exact .refl

theorem moves_selectStepReached (st : Station) (s : State) : Moves s (selectStepReached st s) := by
  unfold selectStepReached
  split
  · exact .refl
  · next p hp =>
    split
    · next h => exact moves_selectionFails hp (by simp [h.1]) _ _
    · exact .refl

theorem moves_progressRecord (st : Station) (stage : PayStage) (s : State) : Moves s (progressRecord st stage s) := by
  unfold progressRecord
  split
  · exact .refl
  · split
    · exact moves_emit ..
    · exact .refl

theorem moves_approve {st : Station} {p : Payment} {s : State} (hp : s.payment st = some p) (hph : p.phase = .authorising)
    (auth : Auth) : Moves s (approve st p auth s) :=
  (moves_laneComes ..).after ((moves_emit ..).after ((moves_emit ..).after (.single (.commits hp hph rfl rfl rfl))))

theorem moves_outcomeRecord (st : Station) (o : TermOutcome) (s : State) : Moves s (outcomeRecord st o s) := by
  unfold outcomeRecord
  split
  · exact .refl
  · next p hp =>
    split
    · next hph =>
      have hne : p.phase ≠ .capturing := by simp [hph]
      split
      · exact moves_approve hp hph _
      all_goals exact .single (.ends hp hne _)
    · next hph =>
      have hne : p.phase ≠ .capturing := by simp [hph]
      split
      · exact (moves_emit ..).after (.single (.proceeds hp hne (by simp) rfl rfl))
      all_goals exact .single (.ends hp hne _)
    all_goals exact .refl

theorem moves_timeLimitReached (st : Station) (s : State) : Moves s (timeLimitReached st s) := by
  unfold timeLimitReached
  split
  · exact .refl
  · next p hp =>
    split
    · next h => exact (moves_emit ..).after (moves_sendAbort_reported hp (by simp [h.1]) _)
    · exact .refl

theorem moves_abortStepReached (st : Station) (s : State) : Moves s (abortStepReached st s) := by
  unfold abortStepReached
  split
  · exact .refl
  · next p hp =>
    split
    · next h =>
      split
      · exact .single (.reverses hp (by simp [h.1]) _ _ _)
      · exact .single (.ends hp (by simp [h.1]) _)
    · exact .refl

theorem moves_reversedRecord (st : Station) (s : State) : Moves s (reversedRecord st s) := by
  unfold reversedRecord
  split
  · exact .refl
  · next p hp =>
    split
    · next h => exact .single (.reverses hp (by simp [h]) _ _ _)
    · exact .refl

theorem moves_reverseStepReached (st : Station) (s : State) : Moves s (reverseStepReached st s) := by
  unfold reverseStepReached
  split
  · exact .refl
  · next p hp =>
    split
    · next h => exact .single (.reverses hp (by simp [h.1]) _ _ _)
    · exact .refl

theorem moves_capturedRecord (st : Station) (s : State) : Moves s (capturedRecord st s) := by
  unfold capturedRecord
  split
  · exact .refl
  · next p hp =>
    split
    · next h => exact .single (.captures hp h _)
    · exact .refl

theorem moves_captureStepReached (st : Station) (s : State) : Moves s (captureStepReached st s) := by
  unfold captureStepReached
  split
  · exact .refl
  · next p hp =>
    split
    · next h => exact .single (.captures hp h.1 _)
    · exact .refl

theorem moves_terminalLost (st : Station) (s : State) : Moves s (terminalLost st s) := by
  unfold terminalLost
  split
  · exact .refl
  · next p hp =>
    split
    · next h => exact moves_selectionFails hp (by simp [h]) _ _
    · next h => exact .single (.reverses hp (by simp [h]) _ _ _)
    · next h =>
      split
      · exact .single (.reverses hp (by simp [h]) _ _ _)
      · exact .single (.ends hp (by simp [h]) _)
    · next h => exact .single (.reverses hp (by simp [h]) _ _ _)
    · next h => exact .single (.captures hp h _)

/-! ### Links -/

theorem moves_siteReset (tag : Tag) (s : State) : Moves s (siteReset tag s) := by
  have answered (before t : State) (st : Station) : Moves t (answerReset before t st) := by
    unfold answerReset
    split
    · exact moves_replyStation ..
    · exact .refl
  have aborted (before t : State) (st : Station) : Moves t (abortReset before t st) := by
    unfold abortReset
    split
    · exact .refl
    · exact moves_emit ..
  exact (Moves.foldl _ (aborted s) _ _).after ((Moves.foldl _ (answered s) _ _).after
    ((moves_replySite ..).after (.single (.restarts rfl rfl))))

theorem moves_configStation (tag : Tag) (station : Nat) (role : Option Role) (addr : Chars 4) (printer : Bool) (s : State) :
    Moves s (configStation tag station role addr printer s) := by
  unfold configStation
  split
  · exact moves_replySite ..
  · split
    · exact moves_replySite ..
    · exact (moves_replySite ..).after ((moves_modifyLane ..).after (.quiet rfl id))
  · exact moves_replySite ..
  · exact moves_replySite ..

theorem moves_noticeLine (l : Line) (x : LineState) (s : State) : Moves s (noticeLine l x s) := by
  unfold noticeLine
  split
  · exact moves_emit ..
  · exact .refl

theorem moves_stationLost (st : Station) (s : State) : Moves s (stationLost st s) := by
  have dropped : Moves s (match s.gathering st with
      | some (n, _) => releaseHold n s
      | none => s) := by
    split
    · next n h hg =>
      obtain ⟨hn, _, hp⟩ := gathering_mem hg
      exact .single (.releases hn (.inl hp))
    · exact .refl
  have emptied (u : State) : Moves u (if u.payIdle st then emptyBasket st u else u) := by
    split
    · next hidle => exact .single (.empties hidle)
    · exact .refl
  exact (emptied _).after dropped

theorem moves_lineLost (l : Line) (s : State) : Moves s (lineLost l s) := by
  have reported (t : State) : Moves t (reportLoss l t) := by
    unfold reportLoss
    split
    · exact .refl
    · exact moves_stationLost ..
    · exact moves_terminalLost ..
    · unfold printerLost
      split
      · exact moves_laneFault ..
      · exact .refl
  unfold lineLost
  split
  · exact .refl
  · exact (moves_noticeLine ..).after ((reported _).after (moves_modifyLine ..))

theorem moves_lineRegained (l : Line) (s : State) : Moves s (lineRegained l s) := by
  have reported (t : State) : Moves t (reportRegain l t) := by
    unfold reportRegain
    split
    · unfold printerRegained
      split
      · exact moves_modifyLane ..
      · exact .refl
    all_goals exact .refl
  unfold lineRegained
  split
  · exact (moves_noticeLine ..).after ((reported _).after (moves_modifyLine ..))
  · exact .refl

theorem moves_breakBegins (l : Line) (s : State) : Moves s (breakBegins l s) := by
  unfold breakBegins
  split
  · exact .refl
  · exact moves_modifyLine ..

theorem moves_breakEnds (l : Line) (s : State) : Moves s (breakEnds l s) := by
  unfold breakEnds
  split
  · exact .refl
  · exact moves_modifyLine ..

theorem moves_frameError (l : Line) (cause : FrameFault) (s : State) : Moves s (frameError l cause s) := by
  unfold frameError
  split
  · exact moves_modifyLine ..
  · exact .refl

theorem moves_trainTimeout (l : Line) (s : State) : Moves s (trainTimeout l s) := by
  unfold trainTimeout
  split
  · exact moves_modifyLine ..
  · exact .refl

theorem moves_trainInterrupted (l : Line) (kind : Byte) (tag : Tag) (body : List Byte) (s : State) :
    Moves s (trainInterrupted l kind tag body s) := by
  unfold trainInterrupted
  split
  · exact moves_modifyLine ..
  · exact .refl

theorem moves_recordSent (l : Line) (s : State) : Moves s (recordSent l s) := by
  have left (rest : List OutRec) (t : State) : Moves t (burstLeft l rest t) := by
    unfold burstLeft
    split
    · split
      · exact moves_setMover ..
      · exact .refl
    · exact .refl
  unfold recordSent
  split
  · exact .refl
  · next r rest _ =>
    have sent : Moves s (setSent l (framesOf l r) (modifyLine l (fun x => { x with out := rest }) s)) := .quiet rfl id
    dsimp only
    split
    · exact Moves.after (left rest _) sent
    · exact sent

/-! ### Every step -/

theorem moves_of_next {s t u : State} (h : (Host.Outcome.next u : Host.Outcome State Fault Refusal) = .next t) (m : Moves s u) :
    Moves s t := by cases h; exact m

/-- What a command can do to the books, said once. -/
theorem moves_exec {c : Instr} {s t : State} (h : exec c s = .next t) : Moves s t :=
  match c, h with
  | .powerOn, h => moves_of_next h (.single (.restarts rfl rfl))
  | .reset .., h => moves_of_next h (moves_siteReset ..)
  | .beginScreening .., h => moves_of_next h (moves_beginScreening ..)
  | .seatRow .., h => moves_of_next h (moves_seatRow ..)
  | .endLoad .., h => moves_of_next h (moves_endLoad ..)
  | .stopSales .., h => moves_of_next h (moves_stopSales ..)
  | .retireScreening .., h => moves_of_next h (moves_retireScreening ..)
  | .blockSeats .., h => moves_of_next h (moves_treatSlot sameOwner_blockSeat ..)
  | .unblockSeats .., h => moves_of_next h (moves_treatSlot sameOwner_unblockSeat ..)
  | .querySeats .., h => moves_of_next h (moves_querySeats ..)
  | .queryMap .., h => moves_of_next h (moves_stationRequest _ _ _ (moves_queryMap _ _ _ _ _) _)
  | .holdSeat .., h => moves_of_next h (moves_stationRequest _ _ _ (moves_holdSeat _ _ _) _)
  | .holdClose .., h => moves_of_next h (moves_stationRequest _ _ _ (moves_holdClose _ _) _)
  | .gatheringWindowExpiry _, h => moves_of_next h (moves_windowReached ..)
  | .dropHold .., h => moves_of_next h (moves_stationRequest _ _ _ (moves_dropHold _ _ _) _)
  | .siteHold .., h => moves_of_next h (moves_siteHold ..)
  | .ownDeadlineExpiry _, h => moves_of_next h (moves_ownReached ..)
  | .siteRelease .., h => moves_of_next h (moves_siteRelease ..)
  | .siteSell .., h => moves_of_next h (moves_siteSell ..)
  | .setCategory .., h => moves_of_next h (moves_stationRequest _ _ _ (moves_setCategory _ _ _ _) _)
  | .addSnack .., h => moves_of_next h (moves_stationRequest _ _ _ (moves_addSnack _ _ _ _) _)
  | .removeSnack .., h => moves_of_next h (moves_stationRequest _ _ _ (moves_removeSnack _ _ _ _) _)
  | .price .., h => moves_of_next h (moves_stationRequest _ _ _ (moves_price _ _) _)
  | .abandon .., h => moves_of_next h (moves_stationRequest _ _ _ (moves_abandon _ _) _)
  | .lapseDeadlineReached _, h => moves_of_next h (moves_lapseReached ..)
  | .pay .., h => moves_of_next h (moves_stationRequest _ _ _ (moves_pay _ _) _)
  | .cancelPay .., h => moves_of_next h (moves_stationRequest _ _ _ (moves_cancelPay _ _) _)
  | .selected .., h => moves_of_next h (moves_selectedRecord ..)
  | .selectStepDeadline _, h => moves_of_next h (moves_selectStepReached ..)
  | .progress .., h => moves_of_next h (moves_progressRecord ..)
  | .outcome .., h => moves_of_next h (moves_outcomeRecord ..)
  | .timeLimit _, h => moves_of_next h (moves_timeLimitReached ..)
  | .abortOutcome .., h => moves_of_next h (moves_outcomeRecord ..)
  | .abortStepDeadline _, h => moves_of_next h (moves_abortStepReached ..)
  | .reversed _, h => moves_of_next h (moves_reversedRecord ..)
  | .reverseStepDeadline _, h => moves_of_next h (moves_reverseStepReached ..)
  | .captured _, h => moves_of_next h (moves_capturedRecord ..)
  | .captureStepDeadline _, h => moves_of_next h (moves_captureStepReached ..)
  | .refund .., h => moves_of_next h (moves_refund ..)
  | .querySale .., h => moves_of_next h (moves_querySale ..)
  | .journalRead _, h => moves_of_next h (moves_replySite ..)
  | .journalRelease .., h => moves_of_next h (moves_journalRelease ..)
  | .loadTariff .., h => moves_of_next h (moves_loadTariff ..)
  | .loadSnacks .., h => moves_of_next h (moves_loadSnacks ..)
  | .setAllowance .., h => moves_of_next h (moves_setAllowance ..)
  | .querySnacks .., h => moves_of_next h (moves_querySnacks ..)
  | .loadSeed .., h => moves_of_next h (moves_loadSeed ..)
  | .redeem .., h => moves_of_next h (moves_stationRequest _ _ _ (moves_redeem _ _ _ _) _)
  | .unlockVoucher .., h => moves_of_next h (moves_unlockVoucher ..)
  | .queryVoucher .., h => moves_of_next h (moves_stationRequest _ _ _ (moves_queryVoucher _ _ _) _)
  | .reprint .., h => moves_of_next h (moves_reprint ..)
  | .collect .., h => moves_of_next h (moves_stationRequest _ _ _ (moves_collect _ _ _) _)
  | .resumePrint .., h => moves_of_next h (moves_resumePrint ..)
  | .accept .., h => moves_of_next h (moves_acceptRecord ..)
  | .level .., h => moves_of_next h (moves_levelRecord ..)
  | .cutDone _, h => moves_of_next h (moves_cutDoneRecord ..)
  | .fault .., h => moves_of_next h (moves_faultRecord ..)
  | .clear _, h => moves_of_next h (moves_clearRecord ..)
  | .burstDeadline, h => moves_of_next h (moves_burstDeadlineReached ..)
  | .cutDeadline _, h => moves_of_next h (moves_cutDeadlineReached ..)
  | .settlingDeadline _, h => moves_of_next h (moves_settlingReached ..)
  | .configStation .., h => moves_of_next h (moves_configStation ..)
  | .setLimits .., h => moves_of_next h ((moves_replySite ..).after (.quiet rfl id))
  | .siteStatus _, h => moves_of_next h (moves_replySite ..)
  | .status .., h => moves_of_next h (moves_stationRequest _ _ _ (fun _ => moves_replyStation ..) _)
  | .reject .., h => moves_of_next h (moves_emit ..)
  | .lineLost _, h => moves_of_next h (moves_lineLost ..)
  | .lineRegained _, h => moves_of_next h (moves_lineRegained ..)
  | .frameError .., h => moves_of_next h (moves_frameError ..)
  | .frameTimeout _, h => moves_of_next h (moves_modifyLine ..)
  | .trainTimeout _, h => moves_of_next h (moves_trainTimeout ..)
  | .trainInterrupted .., h => moves_of_next h (moves_trainInterrupted ..)
  | .recordSent _, h => moves_of_next h (moves_recordSent ..)
  | .breakBegins _, h => moves_of_next h (moves_breakBegins ..)
  | .breakEnds _, h => moves_of_next h (moves_breakEnds ..)

theorem moves_idle (s : State) : Moves s (idle s) := by rw [idle_frame]; exact .quiet rfl id

/-- Every step is a sequence of moves. -/
theorem moves_step {s t : State} (h : step s = .next t) : Moves s t := by
  unfold step at h
  split at h
  · next c rest _ => exact Moves.after (moves_exec h) (.quiet rfl id)
  · exact moves_of_next h (moves_idle s)

/-- What every move keeps, every step keeps. -/
theorem step_preserves_of_move {P : State → Prop} (hP : ∀ {s t : State}, Move s t → P s → P t) {s t : State} (h : step s = .next t)
    (hs : P s) : P t := by
  have hm := moves_step h
  clear h
  induction hm with
  | refl => exact hs
  | tail _ hlast ih => exact hP hlast ih

end Sys2Proof.Machine
end

section
/-! Every step keeps the tables canonical, the seats in order and the declared counts within the pool (O4, O6). -/

namespace Sys2Proof.Machine

/-! ### What a move does to the tables -/

/-- A move that changes which screenings stand, or the fields of one: RESET, the loading of a slot, a change of its state, and
its retirement. -/
inductive StoreMove (s t : State) : Prop
  | clears (hscreenings : t.screenings = []) (hholds : t.holds = []) (hsales : t.sales = []) (hvouchers : t.vouchers = [])
  | puts (slot : Nat) (sc : Screening) (hscreenings : t.screenings = s.screenings.put slot sc) (hholds : t.holds = s.holds)
      (hsales : t.sales = s.sales) (hvouchers : t.vouchers = s.vouchers)
      (hdecl : (∃ old, s.screening slot = some old ∧ sc.declared = old.declared) ∨
        (s.screening slot = none ∧ sc.declared ≤ s.poolFree))
      (hord : (∀ old, s.screening slot = some old → InSeatOrder old.seats) → InSeatOrder sc.seats)
  | removes (slot : Nat) (hscreenings : t.screenings = s.screenings.del slot) (hholds : t.holds = s.holds)
      (hsales : s.sales.wf = true → t.sales.wf = true) (hvouchers : s.vouchers.wf = true → t.vouchers.wf = true)

theorem books_eq {s t : State} (h : t.books = s.books) : t.screenings = s.screenings ∧ t.holds = s.holds ∧ t.sales = s.sales ∧
    t.baskets = s.baskets ∧ t.payment = s.payment ∧ t.salesReserved = s.salesReserved ∧ t.nextSale = s.nextSale ∧
    t.journal.length = s.journal.length ∧ t.journalReserved = s.journalReserved :=
  Books.mk.inj h

theorem tended_of_books {s t : State} (h : t.books = s.books) (hv : s.vouchers.wf = true → t.vouchers.wf = true) : Tended s t := by
  obtain ⟨h1, h2, h3, _⟩ := books_eq h
  exact .of_tables h1 h2 h3 hv

/-- Joining a basket reaches the one basket (R48). -/
theorem joinBasket_frame (st : Station) (n : Nat) (h : Hold) (s : State) :
    joinBasket st n h s = { s with baskets := s.baskets.set st ((joinBasket st n h s).basket st) } := basketGains_frame ..

theorem tended_joinBasket (st : Station) (n : Nat) (h : Hold) (s : State) : Tended s (joinBasket st n h s) := by
  rw [joinBasket_frame]; exact .of_tables rfl rfl rfl id

/-- Every move tends the tables, or is a move of the seat store. -/
theorem Move.tended_or_store {s t : State} (h : Move s t) : TablesTended s t ∨ StoreMove s t := by
  cases h with
  | quiet h hv => exact .inl (tended_of_books h hv).toTablesTended
  | restarts h hv =>
    obtain ⟨h1, h2, h3, _⟩ := Books.mk.inj h
    exact .inr (.clears h1 h2 h3 hv)
  | begins hslot hseats hfit =>
    exact .inr (.puts _ _ rfl rfl rfl rfl (.inr ⟨hslot, hfit⟩) (fun _ => by rw [hseats]; exact List.Pairwise.nil))
  | loads hsc _ _ hdecl hord _ =>
    exact .inr (.puts _ _ rfl rfl rfl rfl (.inl ⟨_, hsc, hdecl⟩) (fun h => hord (h _ hsc)))
  | turns hsc _ => exact .inr (.puts _ _ rfl rfl rfl rfl (.inl ⟨_, hsc, rfl⟩) (fun h => have ordered := h _ hsc; ordered))
  | abandons _ => exact .inr (.removes _ rfl rfl id id)
  | retires _ => exact .inr (.removes _ rfl rfl (fun h => Tbl.wf_filter h _) (fun h => Tbl.wf_filter h _))
  | touches _ _ hf => exact .inl (tended_mapSeats (fun x => (hf x).pos)).toTablesTended
  | amends _ _ _ _ => exact .inl (tended_putSale ..).toTablesTended
  | edits _ => exact .inl (tended_setBasket ..).toTablesTended
  | claims => exact .inl ((tablesTended_putHold ..).after (Tended.toTablesTended (tended_mapSeats (fun _ => rfl))))
  | closes hn ho hp =>
    exact .inl ((Tended.toTablesTended (tended_joinBasket ..)).after
      ((tablesTended_putHold ..).after (Tended.toTablesTended (tended_mapSeats (fun _ => rfl)))))
  | releases _ _ => exact .inl (tended_releaseHold ..).toTablesTended
  | drops _ _ _ _ =>
    exact .inl ((tended_basketLoses ..).after ((tended_setBasket ..).after (tended_releaseHold ..))).toTablesTended
  | empties _ => exact .inl (tended_emptyBasket ..).toTablesTended
  | siteHolds => exact .inl ((tablesTended_putHold ..).after (Tended.toTablesTended (tended_mapSeats (fun _ => rfl))))
  | accepts _ _ => exact .inl (tended_acceptPay ..).toTablesTended
  | proceeds _ _ _ _ _ => exact .inl (tended_setPayment ..).toTablesTended
  | ends _ _ _ => exact .inl (tended_endWithoutSale ..).toTablesTended
  | reverses _ _ _ _ _ => exact .inl (tended_reverseAndEnd ..).toTablesTended
  | captures _ _ _ => exact .inl (tended_endCapture ..).toTablesTended
  | commits _ _ _ _ _ => exact .inl ((tended_setPayment ..).after (tended_commit ..)).toTablesTended
  | sells _ _ _ _ _ _ _ => exact .inl (tended_takeSiteSell ..).toTablesTended
  | refunds _ _ _ _ => exact .inl (tended_takeRefund ..).toTablesTended
  | journals k h _ hv =>
    obtain ⟨h1, h2, h3, _⟩ := Books.mk.inj h
    exact .inl (Tended.of_tables h1 h2 h3 hv).toTablesTended

/-! ### Tables canonical -/

theorem wf_of_seatsChange {a b : Tbl Screening} (h : Relation.ReflTransGen SeatsChange a b) (ha : a.wf = true) : b.wf = true := by
  induction h with
  | refl => exact ha
  | tail _ hlast ih =>
    obtain ⟨slot, sc, f, _, _, rfl⟩ := hlast
    exact Tbl.wf_put ih _ _

theorem tablesCanonical_of_move {s t : State} (h : Move s t) (hs : TablesCanonical s) : TablesCanonical t := by
  obtain ⟨hscreenings, hholds, hsales, hvouchers⟩ := hs
  rcases h.tended_or_store with h | h
  · exact ⟨wf_of_seatsChange h.screenings hscreenings, h.holds hholds, h.sales hsales, h.vouchers hvouchers⟩
  · unfold TablesCanonical
    cases h with
    | clears e1 e2 e3 e4 => rw [e1, e2, e3, e4]; exact ⟨rfl, rfl, rfl, rfl⟩
    | puts slot sc e1 e2 e3 e4 =>
      rw [e1, e2, e3, e4]; exact ⟨Tbl.wf_put hscreenings slot sc, hholds, hsales, hvouchers⟩
    | removes slot e1 e2 w3 w4 => rw [e1, e2]; exact ⟨Tbl.wf_del hscreenings slot, hholds, w3 hsales, w4 hvouchers⟩

/-! ### Seats in order -/

theorem inSeatOrder_map {l : List Seat} {f : Seat → Seat} (hf : ∀ x, (f x).pos = x.pos) (h : InSeatOrder l) :
    InSeatOrder (l.map f) := by
  refine List.pairwise_map.mpr (h.imp fun {a b} hab => ?_)
  obtain ⟨ha1, ha2⟩ := SeatPos.mk.inj (hf a)
  obtain ⟨hb1, hb2⟩ := SeatPos.mk.inj (hf b)
  rw [ha1, ha2, hb1, hb2]
  exact hab

theorem seatsInOrder_of_seatsChange {a b : Tbl Screening} (h : Relation.ReflTransGen SeatsChange a b)
    (ha : ∀ e ∈ a, InSeatOrder e.2.seats) : ∀ e ∈ b, InSeatOrder e.2.seats := by
  induction h with
  | refl => exact ha
  | tail _ hlast ih =>
    obtain ⟨slot, sc, f, hsc, hf, rfl⟩ := hlast
    intro e he
    rcases Tbl.mem_put he with rfl | he
    · exact inSeatOrder_map hf (ih _ (Tbl.find_mem hsc))
    · exact ih e he

theorem seatsInOrder_of_move {s t : State} (h : Move s t) (hs : SeatsInOrder s) : SeatsInOrder t := by
  rcases h.tended_or_store with h | h
  · exact seatsInOrder_of_seatsChange h.screenings hs
  · unfold SeatsInOrder
    cases h with
    | clears e1 _ _ _ => rw [e1]; exact fun e he => nomatch he
    | puts slot sc e1 _ _ _ _ hord =>
      rw [e1]
      intro e he
      rcases Tbl.mem_put he with rfl | he
      · exact hord fun old hold => hs _ (Tbl.find_mem hold)
      · exact hs e he
    | removes slot e1 _ _ _ => rw [e1]; exact fun e he => hs e (List.mem_filter.mp he).1

/-- Settles O4: every step is a sequence of moves, and each move keeps both. -/
theorem tablesStayCanonical : Obligations.TablesStayCanonical :=
  ⟨fun _ _ hs h => step_preserves_of_move tablesCanonical_of_move h hs,
   fun _ _ hs h => step_preserves_of_move seatsInOrder_of_move h hs⟩

/-! ### The seat pool -/

/-- The declared counts of a table of screenings. -/
def declaredSum (t : Tbl Screening) : Nat := (t.map (fun e => e.2.declared)).sum

/-- A screening that takes the place of another changes the sum by the two declared counts. -/
theorem declaredSum_put_of_find {t : Tbl Screening} (hw : t.wf = true) {slot : Nat} {old : Screening} (h : t.find slot = some old)
    (sc : Screening) : declaredSum (t.put slot sc) + old.declared = declaredSum t + sc.declared := by
  rw [Tbl.wf_iff] at hw
  unfold declaredSum
  induction t with
  | nil => cases h
  | cons e t ih =>
    obtain ⟨k, w⟩ := e
    obtain ⟨hhead, htail⟩ := List.pairwise_cons.mp hw
    by_cases hk : k = slot
    · subst hk
      have : w = old := by simpa [Tbl.find] using h
      subst this
      simp [Tbl.put]; omega
    · rw [Tbl.find, if_neg hk] at h
      have hlt : k < slot := hhead _ (Tbl.find_mem h)
      have := ih htail h
      rw [Tbl.put, if_neg (by omega), if_neg (Ne.symm hk)]
      simp only [List.map_cons, List.sum_cons]
      omega

/-- A screening put into an EMPTY slot adds its declared count. -/
theorem declaredSum_put_of_none {t : Tbl Screening} {slot : Nat} (h : t.find slot = none) (sc : Screening) :
    declaredSum (t.put slot sc) = declaredSum t + sc.declared := by
  unfold declaredSum
  induction t with
  | nil => simp [Tbl.put]
  | cons e t ih =>
    obtain ⟨k, w⟩ := e
    by_cases hk : k = slot
    · subst hk; simp [Tbl.find] at h
    · rw [Tbl.find, if_neg hk] at h
      have := ih h
      unfold Tbl.put
      split
      · simp; omega
      · rw [if_neg (Ne.symm hk)]
        simp only [List.map_cons, List.sum_cons]
        omega

theorem declaredSum_del_le (t : Tbl Screening) (slot : Nat) : declaredSum (t.del slot) ≤ declaredSum t :=
  (List.filter_sublist.map _).sum_le_sum fun _ _ => Nat.zero_le _

theorem declaredSum_of_seatsChange {a b : Tbl Screening} (h : Relation.ReflTransGen SeatsChange a b) (ha : a.wf = true) :
    declaredSum b = declaredSum a := by
  induction h with
  | refl => rfl
  | tail hprev hlast ih =>
    obtain ⟨slot, sc, f, hsc, _, rfl⟩ := hlast
    have := declaredSum_put_of_find (wf_of_seatsChange hprev ha) hsc { sc with seats := sc.seats.map f }
    dsimp only at this
    omega

theorem poolFits_iff (s : State) : PoolFits s ↔ s.screenings.wf = true ∧ declaredSum s.screenings ≤ 8192 := Iff.rfl

theorem poolFits_of_move {s t : State} (h : Move s t) (hs : PoolFits s) : PoolFits t := by
  obtain ⟨hw, hsum⟩ := hs
  rw [poolFits_iff]
  rcases h.tended_or_store with h | h
  · exact ⟨wf_of_seatsChange h.screenings hw, (declaredSum_of_seatsChange h.screenings hw).trans_le hsum⟩
  · cases h with
    | clears e1 _ _ _ => rw [e1]; exact ⟨rfl, Nat.zero_le _⟩
    | puts slot sc e1 _ _ _ hdecl _ =>
      rw [e1]
      refine ⟨Tbl.wf_put hw slot sc, ?_⟩
      rcases hdecl with ⟨old, hold, hd⟩ | ⟨hnone, hfit⟩
      · have := declaredSum_put_of_find hw hold sc
        have : declaredSum s.screenings ≤ 8192 := hsum
        omega
      · rw [declaredSum_put_of_none hnone]
        have hfree : s.poolFree = 8192 - declaredSum s.screenings := rfl
        have : declaredSum s.screenings ≤ 8192 := hsum
        omega
    | removes slot e1 _ _ _ => rw [e1]; exact ⟨Tbl.wf_del hw slot, (declaredSum_del_le ..).trans hsum⟩

/-- Settles O6: every step is a sequence of moves, and each move keeps the declared counts within the pool. -/
theorem poolStaysFitting : Obligations.PoolStaysFitting :=
  fun _ _ hs h => step_preserves_of_move poolFits_of_move h hs

end Sys2Proof.Machine
end

section
/-! Reservations, payments and the next sale number under each move (R89, R109, R121, R110). -/

namespace Sys2Proof.Machine

/-! ### Counts of payments in flight -/

/-- A count over distinct members changes by the one member at which the predicate changes. -/
theorem countP_change {α : Type} {f g : α → Bool} {a : α} : ∀ {l : List α}, l.Nodup → a ∈ l → (∀ x ∈ l, x ≠ a → g x = f x) →
    l.countP g + (f a).toNat = l.countP f + (g a).toNat
  | b :: t, hn, ha, h => by
    obtain ⟨hb, ht⟩ := List.nodup_cons.mp hn
    have step (p : α → Bool) : (b :: t).countP p = t.countP p + (p b).toNat := by
      cases hp : p b <;> simp [hp]
    rw [step f, step g]
    by_cases e : a = b
    · subst e
      have : t.countP g = t.countP f := List.countP_congr fun x hx => by
        rw [h x (List.mem_cons_of_mem _ hx) (fun e => hb (e ▸ hx))]
      omega
    · have ih := countP_change ht ((List.mem_cons.mp ha).resolve_left e) fun x hx => h x (List.mem_cons_of_mem _ hx)
      rw [h b List.mem_cons_self (Ne.symm e)]
      omega

/-- From `s` to `t` the payment of one station becomes `q`. -/
structure PaymentTurns (st : Station) (q : Option Payment) (s t : State) : Prop where
  there : t.payment st = q
  elsewhere : ∀ st', st' ≠ st → t.payment st' = s.payment st'

theorem paymentTurns_of_pays {st : Station} {c : PayContext} {s t : State} (h : t.pays = s.pays.set st c) :
    PaymentTurns st c.current s t where
  there := by simp [State.payment, State.pay, h]
  elsewhere st' hne := by
    simp only [State.payment, State.pay, h, Fin.getElem_fin]
    rw [Vector.getElem_set_ne _ _ (by intro e; exact hne (Fin.ext e.symm))]

theorem PaymentTurns.inFlight {st : Station} {q : Option Payment} {s t : State} (h : PaymentTurns st q s t) :
    t.inFlight + (s.payment st).isSome.toNat = s.inFlight + q.isSome.toNat := by
  have := countP_change (f := fun x => (s.payment x).isSome) (g := fun x => (t.payment x).isSome) (a := st)
    (List.nodup_finRange 8) (List.mem_finRange st) (fun x _ hne => by rw [h.elsewhere x hne])
  rwa [h.there] at this

theorem PaymentTurns.uncommitted {st : Station} {q : Option Payment} {s t : State} (h : PaymentTurns st q s t) :
    t.uncommitted + ((s.payment st).any (·.resSale)).toNat = s.uncommitted + (q.any (·.resSale)).toNat := by
  have := countP_change (f := fun x => (s.payment x).any (·.resSale)) (g := fun x => (t.payment x).any (·.resSale)) (a := st)
    (List.nodup_finRange 8) (List.mem_finRange st) (fun x _ hne => by rw [h.elsewhere x hne])
  rwa [h.there] at this

/-! ### Reservations fit -/

/-- What ReservationsFit says of one payment. -/
def HoldsReservations (p : Payment) : Prop := p.resJournal = true ∧ p.resSale = decide (p.phase ≠ .capturing)

/-- Without a change of payments or reservations, records that still fit fit. -/
theorem reservationsFit_of_same {s t : State} (hs : ReservationsFit s) (hp : t.payment = s.payment)
    (hsr : t.salesReserved = s.salesReserved) (hjr : t.journalReserved = s.journalReserved) (hw : t.sales.wf = true)
    (hj : t.journal.length + s.journalReserved ≤ 512) (hl : t.sales.length + s.salesReserved ≤ 2048) : ReservationsFit t := by
  obtain ⟨_, h1, h2, _, _, h3⟩ := hs
  unfold ReservationsFit State.inFlight State.uncommitted at *
  rw [hp, hsr, hjr]
  exact ⟨hw, h1, h2, hj, hl, h3⟩

/-- A payment that turns with its reservations leaves reservations that fit. -/
theorem reservationsFit_of_turn {s t : State} {st : Station} {q : Option Payment} (hs : ReservationsFit s)
    (hp : PaymentTurns st q s t) (hq : ∀ p, q = some p → HoldsReservations p)
    (hsr : t.salesReserved + ((s.payment st).any (·.resSale)).toNat = s.salesReserved + (q.any (·.resSale)).toNat)
    (hjr : t.journalReserved + (s.payment st).isSome.toNat = s.journalReserved + q.isSome.toNat) (hw : t.sales.wf = true)
    (hj : t.journal.length + t.journalReserved ≤ 512) (hl : t.sales.length + t.salesReserved ≤ 2048) : ReservationsFit t := by
  obtain ⟨_, h1, h2, _, _, h3⟩ := hs
  have hin := hp.inFlight
  have hun := hp.uncommitted
  refine ⟨hw, by omega, by omega, hj, hl, fun st' p hp' => ?_⟩
  by_cases e : st' = st
  · subst e; rw [hp.there] at hp'; exact hq p hp'
  · rw [hp.elsewhere st' e] at hp'; exact h3 st' p hp'

/-- From `s` to `t` payments, reservations, the next sale number and the number of journal records stay, and no sale comes. -/
structure LedgerKept (s t : State) : Prop where
  payment : t.payment = s.payment
  salesReserved : t.salesReserved = s.salesReserved
  nextSale : t.nextSale = s.nextSale
  recorded : t.journal.length = s.journal.length
  journalReserved : t.journalReserved = s.journalReserved
  sales : s.sales.wf = true → t.sales.wf = true ∧ t.sales.length ≤ s.sales.length

theorem LedgerKept.of_same {s t : State} (hp : t.pays = s.pays) (h1 : t.salesReserved = s.salesReserved)
    (h2 : t.nextSale = s.nextSale) (h3 : t.journal = s.journal) (h4 : t.journalReserved = s.journalReserved)
    (h5 : t.sales = s.sales) : LedgerKept s t :=
  ⟨by unfold State.payment State.pay; rw [hp], h1, h2, by rw [h3], h4, by rw [h5]; exact fun h => ⟨h, le_rfl⟩⟩

theorem LedgerKept.refl (s : State) : LedgerKept s s := .of_same rfl rfl rfl rfl rfl rfl

theorem LedgerKept.trans {s t u : State} (h : LedgerKept s t) (k : LedgerKept t u) : LedgerKept s u where
  payment := k.payment.trans h.payment
  salesReserved := k.salesReserved.trans h.salesReserved
  nextSale := k.nextSale.trans h.nextSale
  recorded := k.recorded.trans h.recorded
  journalReserved := k.journalReserved.trans h.journalReserved
  sales hw := ⟨(k.sales (h.sales hw).1).1, (k.sales (h.sales hw).1).2.trans (h.sales hw).2⟩

theorem LedgerKept.after {s t u : State} (k : LedgerKept t u) (h : LedgerKept s t) : LedgerKept s u := h.trans k

theorem LedgerKept.foldl {α : Type} (op : State → α → State) (h : ∀ s a, LedgerKept s (op s a)) (l : List α) (s : State) :
    LedgerKept s (l.foldl op s) :=
  foldl_preserves (LedgerKept s) op (fun t a ht => ht.trans (h t a)) l s (.refl s)

theorem reservationsFit_of_kept {s t : State} (h : LedgerKept s t) (hs : ReservationsFit s) : ReservationsFit t := by
  have hsales := h.sales hs.1
  obtain ⟨_, _, _, hj, hl, _⟩ := id hs
  exact reservationsFit_of_same hs h.payment h.salesReserved h.journalReserved hsales.1 (by rw [h.recorded]; exact hj)
    (by omega)

theorem reservationsFit_of_books {s t : State} (h : t.books = s.books) (hs : ReservationsFit s) : ReservationsFit t := by
  obtain ⟨_, _, h3, _, hp, hsr, _, hj, hjr⟩ := books_eq h
  exact reservationsFit_of_kept ⟨hp, hsr, by obtain ⟨_, _, _, _, _, _, hn, _⟩ := books_eq h; exact hn, hj, hjr,
    by rw [h3]; exact fun h => ⟨h, le_rfl⟩⟩ hs

theorem reservationsFit_reset : ReservationsFit State.reset :=
  ⟨rfl, by decide, by decide, by decide, by decide, fun st p h => by revert st p h; decide⟩

/-! ### The ledger under the shared operations -/

theorem ledger_emit (l : Line) (r : OutRec) (s : State) : LedgerKept s (emit l r s) := by
  rw [emit_frame]; exact .of_same rfl rfl rfl rfl rfl rfl

theorem ledger_mapSeats (slot : Nat) (ps : List SeatPos) (f : Seat → Seat) (s : State) : LedgerKept s (mapSeats slot ps f s) := by
  rw [mapSeats_frame]; exact .of_same rfl rfl rfl rfl rfl rfl

theorem ledger_putHold (n : Nat) (h : Hold) (s : State) : LedgerKept s (putHold n h s) := .of_same rfl rfl rfl rfl rfl rfl

theorem ledger_setBasket (st : Station) (b : Basket) (s : State) : LedgerKept s (setBasket st b s) :=
  .of_same rfl rfl rfl rfl rfl rfl

theorem ledger_joinBasket (st : Station) (n : Nat) (h : Hold) (s : State) : LedgerKept s (joinBasket st n h s) := by
  rw [joinBasket_frame]; exact .of_same rfl rfl rfl rfl rfl rfl

theorem ledger_releaseHold (n : Nat) (s : State) : LedgerKept s (releaseHold n s) := by
  rw [releaseHold_frame]; exact .of_same rfl rfl rfl rfl rfl rfl

theorem ledger_emptyBasket (st : Station) (s : State) : LedgerKept s (emptyBasket st s) := by
  rw [emptyBasket_frame]; exact .of_same rfl rfl rfl rfl rfl rfl

theorem ledger_basketLoses (st : Station) (s : State) : LedgerKept s (basketLoses st s) := by
  rw [basketLoses_frame]; exact .of_same rfl rfl rfl rfl rfl rfl

theorem ledger_putSale {n : Nat} {x : Sale} {s : State} (hx : s.sale n = some x) (y : Sale) : LedgerKept s (putSale n y s) :=
  ⟨rfl, rfl, rfl, rfl, rfl, fun hw => ⟨Tbl.wf_put hw n y, (Tbl.length_put_of_find hw hx y).le⟩⟩

theorem ledger_modifySale (n : Nat) (f : Sale → Sale) (s : State) : LedgerKept s (modifySale n f s) := by
  unfold modifySale
  split
  · next x hx => exact ledger_putSale hx _
  · exact .refl s

theorem ledger_voidVoucher (serial : Nat) (s : State) : LedgerKept s (voidVoucher serial s) := by
  rw [voidVoucher_frame]; exact .of_same rfl rfl rfl rfl rfl rfl

theorem ledger_removeOrders (n : Nat) (s : State) : LedgerKept s (removeOrders n s) :=
  (ledger_modifySale ..).after (.foldl (removeUnstarted n) (fun _ _ => .of_same rfl rfl rfl rfl rfl rfl) _ s)

/-- A change of hold phases reads holds and the basket alone (R38). -/
theorem holds_setHoldPhases_congr {s u : State} (st : Station) (ph : HoldPhase) (hb : u.basket st = s.basket st)
    (hh : u.holds = s.holds) : (setHoldPhases st ph u).holds = (setHoldPhases st ph s).holds := by
  unfold setHoldPhases
  rw [hb]
  generalize (s.basket st).holds = l
  clear hb
  induction l generalizing s u with
  | nil => exact hh
  | cons n t ih =>
    rw [List.foldl_cons, List.foldl_cons]
    refine ih ?_
    have : u.hold n = s.hold n := by unfold State.hold; rw [hh]
    rw [this]
    cases s.hold n with
    | none => exact hh
    | some h => simp [hh]

/-- The acceptance of a PAY sets its reservations aside, starts the payment, and turns the holds of the basket PAYING (R88, R89). -/
theorem acceptPay_frame (st : Station) (tag : Tag) (s : State) : ∃ c p, c.current = some p ∧ p.phase = .selecting ∧ p.resSale = true ∧
    p.resJournal = true ∧ acceptPay st tag s = { s with
      holds := (setHoldPhases st .paying s).holds, pays := s.pays.set st c, salesReserved := s.salesReserved + 1,
      journalReserved := s.journalReserved + 1, journalArmed := (acceptPay st tag s).journalArmed,
      lanes := (acceptPay st tag s).lanes, requests := (acceptPay st tag s).requests,
      lines := (acceptPay st tag s).lines } := by
  refine ⟨{ count := succWrap Config.maxPayCount (s.pay st).count, current := some _ },
    newPayment s (((s.basket st).summary.map (·.total)).getD 0) (s.basket st).chainLength, rfl, rfl, rfl, rfl, ?_⟩
  unfold acceptPay
  dsimp only
  generalize h1 : judgeJournal _ = s1
  generalize h2 : setHoldPhases st .paying _ = s2
  generalize h3 : emit (.terminal st) _ s2 = s3
  have e1 := judgeJournal_frame { s with salesReserved := s.salesReserved + 1, journalReserved := s.journalReserved + 1 }
  rw [h1] at e1
  have e2 := setHoldPhases_frame st .paying (setPay st
    { count := succWrap Config.maxPayCount (s.pay st).count,
      current := some (newPayment s (((s.basket st).summary.map (·.total)).getD 0) (s.basket st).chainLength) }
    (modifyLane st (fun l => { l with reservedRoom := l.reservedRoom + (s.basket st).chainLength }) s1))
  rw [h2] at e2
  have hh : s2.holds = (setHoldPhases st .paying s).holds := by
    rw [← h2]; exact holds_setHoldPhases_congr st .paying (by rw [e1]; rfl) (by rw [e1]; rfl)
  have e3 := emit_frame (.terminal st) (.select (s.station st).addr) s2
  rw [h3] at e3
  clear h1 h2 h3
  rw [e3, e2, hh, e1]
  rfl

/-! ### Every move keeps the reservations -/

/-- What a PAY that no check of Table 5-5 refuses has found (R87). -/
theorem payRefusal_none {s : State} {st : Station} (h : payRefusal st s = none) : s.payment st = none ∧ s.gathering st = none ∧
    (s.basket st).summary.isSome = true ∧ s.salesFree ≠ 0 ∧ s.journalFree ≠ 0 := by
  unfold payRefusal at h
  dsimp only at h
  split at h
  · cases h
  · next hidle =>
    split at h
    · cases h
    · next hg =>
      split at h
      · cases h
      · split at h
        · cases h
        · next m hm =>
          refine ⟨by simpa [State.payIdle] using hidle, hg, by rw [hm]; rfl, ?_⟩
          split at h
          · cases h
          · split at h
            · cases h
            · split at h
              · cases h
              · split at h
                · cases h
                · next hsales =>
                  split at h
                  · cases h
                  · next hjournal => exact ⟨hsales, hjournal⟩

theorem salesFree_iff (s : State) : s.salesFree ≠ 0 ↔ s.sales.length + s.salesReserved < 2048 := by
  unfold State.salesFree Config.saleRecords; omega

theorem journalFree_iff (s : State) : s.journalFree ≠ 0 ↔ s.journal.length + s.journalReserved < 512 := by
  unfold State.journalFree Config.journalRecords; omega

theorem reservationsFit_acceptPay {s : State} {st : Station} (tag : Tag) (h : payRefusal st s = none) (hs : ReservationsFit s) :
    ReservationsFit (acceptPay st tag s) := by
  obtain ⟨hnone, _, _, hsales, hjournal⟩ := payRefusal_none h
  rw [salesFree_iff] at hsales
  rw [journalFree_iff] at hjournal
  obtain ⟨c, p, hc, hph, hrs, hrj, hframe⟩ := acceptPay_frame st tag s
  have hturn : PaymentTurns st (some p) s (acceptPay st tag s) := hc ▸ paymentTurns_of_pays (by rw [hframe])
  refine reservationsFit_of_turn hs hturn ?_ ?_ ?_ ?_ ?_ ?_
  · rintro _ ⟨⟩
    exact ⟨hrj, by simp [hrs, hph]⟩
  · rw [hframe]; simp [hnone, hrs]
  · rw [hframe]; simp [hnone]
  · rw [hframe]; exact hs.1
  · rw [hframe]; dsimp only; omega
  · rw [hframe]; dsimp only; omega

/-- A payment in flight counts among those in flight, and its sale record among those set aside. -/
theorem counts_of_payment {s : State} {st : Station} {p : Payment} (hs : ReservationsFit s) (hp : s.payment st = some p) :
    1 ≤ s.journalReserved ∧ (p.phase ≠ .capturing → 1 ≤ s.salesReserved) := by
  obtain ⟨_, h1, h2, _, _, h3⟩ := hs
  rw [h1, h2]
  refine ⟨List.one_le_countP_iff.mpr ⟨st, List.mem_finRange st, by simp [hp]⟩, fun hne => ?_⟩
  exact List.one_le_countP_iff.mpr ⟨st, List.mem_finRange st, by simp [hp, (h3 st p hp).2, hne]⟩

/-- A payment that ends gives its reservations back; with a record it may leave one in the journal. -/
theorem reservationsFit_of_end {s t : State} {st : Station} {p : Payment} (hs : ReservationsFit s) (hp : s.payment st = some p)
    (hturn : PaymentTurns st none s t) (hsr : t.salesReserved = s.salesReserved - p.resSale.toNat)
    (hjr : t.journalReserved = s.journalReserved - 1) (hw : t.sales.wf = true) (hl : t.sales.length ≤ s.sales.length)
    (hj : t.journal.length ≤ s.journal.length + 1) : ReservationsFit t := by
  obtain ⟨hone, hsale⟩ := counts_of_payment hs hp
  obtain ⟨_, h1, h2, hfit, hlen, h3⟩ := id hs
  have hres := (h3 st p hp).2
  refine reservationsFit_of_turn hs hturn (fun _ h => by cases h) ?_ ?_ hw (by omega) (by omega)
  · rw [hsr, hp]
    cases hr : p.resSale
    · simp [hr]
    · have := hsale (by simpa [hr] using hres)
      simp [hr]; omega
  · rw [hjr, hp]; simp; omega

theorem reservationsFit_endWithoutSale {s : State} {st : Station} {p : Payment} (hp : s.payment st = some p)
    (o : Option PayOutcome) (hs : ReservationsFit s) : ReservationsFit (endWithoutSale st p o s) := by
  have hframe := endWithoutSale_frame st p o s
  obtain ⟨hw, _, _, _, _, h3⟩ := id hs
  have hturn : PaymentTurns st none s (endWithoutSale st p o s) :=
    paymentTurns_of_pays (c := { s.pay st with current := none }) (by rw [hframe])
  refine reservationsFit_of_end hs hp hturn ?_ ?_ ?_ ?_ ?_
  · rw [hframe]; cases p.resSale <;> rfl
  · rw [hframe]; dsimp only; rw [if_pos (h3 st p hp).1]
  · rw [hframe]; exact hw
  · rw [hframe]
  · rw [hframe]; exact Nat.le_succ _

theorem reservationsFit_reverseAndEnd {s : State} {st : Station} {p : Payment} (hp : s.payment st = some p) (c : Bool)
    (r : ReversalReason) (o : Option PayOutcome) (hs : ReservationsFit s) : ReservationsFit (reverseAndEnd st p c r o s) := by
  have hframe := reverseAndEnd_frame st p c r o s
  have hturn : PaymentTurns st none s (reverseAndEnd st p c r o s) :=
    paymentTurns_of_pays (c := { s.pay st with current := none }) (by rw [hframe])
  refine reservationsFit_of_end hs hp hturn ?_ ?_ ?_ ?_ ?_
  · rw [hframe]; cases p.resSale <;> rfl
  · rw [hframe]
  · rw [hframe]; exact hs.1
  · rw [hframe]
  · rw [hframe]; simp

theorem reservationsFit_endCapture {s : State} {st : Station} {p : Payment} (hp : s.payment st = some p) (hph : p.phase = .capturing)
    (c : CaptureState) (hs : ReservationsFit s) : ReservationsFit (endCapture st p c s) := by
  obtain ⟨hw, _, _, _, _, h3⟩ := id hs
  obtain ⟨hrj, hrs⟩ := h3 st p hp
  have hrs : p.resSale = false := by simpa [hph] using hrs
  unfold endCapture
  split
  · have hframe := releaseReservations_frame st p s
    refine reservationsFit_of_end hs hp (paymentTurns_of_pays (c := { (releaseReservations st p s).pay st with current := none })
      (by rw [setPayment_pays, hframe])) ?_ ?_ ?_ ?_ ?_
    · rw [hframe]; simp [hrs]
    · rw [hframe]; simp [hrj]
    · rw [hframe]; exact hw
    · rw [hframe]; exact le_rfl
    · rw [hframe]; exact Nat.le_succ _
  · next n x hx =>
    have hsale : s.sale n = some x := by
      obtain ⟨k, _, hk⟩ := Option.bind_eq_some_iff.mp hx
      obtain ⟨y, hy, e⟩ := Option.map_eq_some_iff.mp hk
      cases e; exact hy
    refine reservationsFit_of_end hs hp (paymentTurns_of_pays (c := { s.pay st with current := none }) rfl) ?_ rfl
      (Tbl.wf_put hw _ _) (Tbl.length_put_of_find hw hsale _).le ?_
    · simp [hrs, writeReserved, appendJournal]
    · simp [writeReserved, appendJournal]

theorem length_put_put {α : Type} {t : Tbl α} (h : t.wf = true) (n : Nat) (v w : α) : ((t.put n v).put n w).length ≤ t.length + 1 := by
  rw [Tbl.length_put_of_find (Tbl.wf_put h n v) (Tbl.find_put_self t n v)]
  exact Tbl.length_put_le t n v

/-- A commit adds one sale for the record set aside (R112). -/
theorem commit_ledger (st : Station) (auth : Auth) (room : Nat) {s : State} (hw : s.sales.wf = true) :
    (commit st auth room s).pays = s.pays ∧ (commit st auth room s).salesReserved = s.salesReserved - 1 ∧
      (commit st auth room s).journalReserved = s.journalReserved ∧ (commit st auth room s).journal = s.journal ∧
      (commit st auth room s).nextSale = succWrap Config.maxSaleNumber s.freshSale ∧
      (commit st auth room s).sales.length ≤ s.sales.length + 1 := by
  obtain ⟨serials, _, hframe⟩ := commit_frame st auth room s
  rw [hframe]
  refine ⟨rfl, rfl, rfl, rfl, rfl, ?_⟩
  dsimp only
  rw [Tbl.length_put_of_find (Tbl.wf_put (Tbl.wf_put hw _ _) _ _) (Tbl.find_put_self _ _ _)]
  exact length_put_put hw ..

theorem reservationsFit_commit {s : State} {st : Station} {p p' : Payment} (hp : s.payment st = some p)
    (hph : p.phase = .authorising) (hph' : p'.phase = .capturing) (hsale : p'.resSale = false)
    (hjournal : p'.resJournal = p.resJournal) (auth : Auth) (room : Nat) (hs : ReservationsFit s) :
    ReservationsFit (setPayment st (some p') (commit st auth room s)) := by
  have hone := (counts_of_payment hs hp).2 (by simp [hph])
  obtain ⟨hw, _, _, hfit, hlen, h3⟩ := id hs
  obtain ⟨hrj, hrs⟩ := h3 st p hp
  obtain ⟨c1, c2, c3, c4, _, c6⟩ := commit_ledger st auth room hw
  have hturn : PaymentTurns st (some p') s (setPayment st (some p') (commit st auth room s)) :=
    paymentTurns_of_pays (c := { (commit st auth room s).pay st with current := some p' }) (by rw [setPayment_pays, c1])
  refine reservationsFit_of_turn hs hturn ?_ ?_ ?_ ((tended_commit st auth room s).sales hw) ?_ ?_
  · rintro _ ⟨⟩
    exact ⟨hjournal.trans hrj, by simp [hsale, hph']⟩
  · rw [setPayment_salesReserved, c2, hp]
    simp [hsale, hrs, hph]; omega
  · rw [setPayment_journalReserved, c3, hp]; rfl
  · rw [setPayment_journalReserved, setPayment_journal, c3, c4]; exact hfit
  · rw [setPayment_salesReserved, setPayment_sales, c2]; omega

/-- A SITE-SELL adds one sale and one record (R114). -/
theorem takeSiteSell_ledger (tag : Tag) (n : Nat) (h : Hold) (ref : Chars 8) (m : Summary) {s : State} (hw : s.sales.wf = true) :
    (takeSiteSell tag n h ref m s).payment = s.payment ∧ (takeSiteSell tag n h ref m s).salesReserved = s.salesReserved ∧
      (takeSiteSell tag n h ref m s).journalReserved = s.journalReserved ∧
      (takeSiteSell tag n h ref m s).nextSale = succWrap Config.maxSaleNumber s.freshSale ∧
      (takeSiteSell tag n h ref m s).sales.length ≤ s.sales.length + 1 ∧
      (takeSiteSell tag n h ref m s).journal.length ≤ s.journal.length + 1 := by
  unfold takeSiteSell
  dsimp only
  obtain ⟨serials, _, hframe⟩ := enterSale_frame s.freshSale (saleOf s m .remote (some h.slot) none none .notApplicable (some ref)) m
    [n] false s
  split
  · rw [hframe]; exact ⟨rfl, rfl, rfl, rfl, length_put_put hw .., Nat.le_succ _⟩
  · unfold replySite
    rw [emit_frame, writeFree_frame, hframe]
    exact ⟨rfl, rfl, rfl, rfl, length_put_put hw .., by simp⟩

/-- A REFUND adds one record (R117). -/
theorem takeRefund_ledger (tag : Tag) (n : Nat) (x : Sale) {s : State} (hw : s.sales.wf = true) :
    (takeRefund tag n x s).payment = s.payment ∧ (takeRefund tag n x s).salesReserved = s.salesReserved ∧
      (takeRefund tag n x s).journalReserved = s.journalReserved ∧ (takeRefund tag n x s).nextSale = s.nextSale ∧
      (takeRefund tag n x s).sales.length ≤ s.sales.length ∧
      (takeRefund tag n x s).journal.length ≤ s.journal.length + 1 := by
  have before := (ledger_removeOrders n _).after ((LedgerKept.foldl (fun s v => voidVoucher v s)
    (fun s v => ledger_voidVoucher v s) x.serials _).after (LedgerKept.foldl (fun s (l : SaleSeat) =>
      mapSeats l.ref.slot [refPos l.ref] Seat.refund s) (fun s l => ledger_mapSeats ..) x.seats s))
  have written (amount : Nat) (body : JournalBody) (u : State) :
      let w := writeFree (some n) amount body u
      w.payment = u.payment ∧ w.salesReserved = u.salesReserved ∧ w.journalReserved = u.journalReserved ∧ w.nextSale = u.nextSale ∧
        w.sales = u.sales ∧ w.journal.length = u.journal.length + 1 := by
    rw [writeFree_frame]; exact ⟨rfl, rfl, rfl, rfl, rfl, by simp⟩
  unfold takeRefund
  dsimp only
  generalize removeOrders n _ = u at before ⊢
  obtain ⟨w1, w2, w3, w4, w5, w6⟩ := written (s.refundAmount x)
    (.refund x.origin (x.serials.countP s.voidable) (x.serials.countP s.isRedeemed)) u
  have after := (ledger_emit .site (.reply tag .ok [.refundAmount (s.refundAmount x), .voided (x.serials.countP s.voidable),
    .leftRedeemed (x.serials.countP s.isRedeemed)]) _).after (ledger_modifySale n
    (fun y => { y with state := .refunded (s.refundAmount x) }) (writeFree (some n) (s.refundAmount x)
    (.refund x.origin (x.serials.countP s.voidable) (x.serials.countP s.isRedeemed)) u))
  have hb := before.sales hw
  have ha := after.sales (by rw [w5]; exact hb.1)
  rw [w5] at ha
  exact ⟨(after.payment.trans w1).trans before.payment, (after.salesReserved.trans w2).trans before.salesReserved,
    (after.journalReserved.trans w3).trans before.journalReserved, (after.nextSale.trans w4).trans before.nextSale,
    ha.2.trans hb.2, (after.recorded.trans (w6.trans (by rw [before.recorded]))).le⟩

theorem reservationsFit_of_move {s t : State} (h : Move s t) (hs : ReservationsFit s) : ReservationsFit t := by
  obtain ⟨hw, _, _, hfit, hlen, _⟩ := id hs
  cases h with
  | quiet h _ => exact reservationsFit_of_books h hs
  | restarts h _ => exact reservationsFit_of_books h reservationsFit_reset
  | begins | loads | turns | abandons | edits => exact hs
  | retires _ =>
    exact reservationsFit_of_same hs rfl rfl rfl (Tbl.wf_filter hw _) hfit
      ((Nat.add_le_add_right (List.length_filter_le _ _) _).trans hlen)
  | touches _ _ _ => exact reservationsFit_of_kept (ledger_mapSeats ..) hs
  | amends hx _ _ _ => exact reservationsFit_of_kept (ledger_putSale hx _) hs
  | claims | siteHolds => exact reservationsFit_of_kept ((ledger_putHold ..).after (ledger_mapSeats ..)) hs
  | closes _ _ _ =>
    exact reservationsFit_of_kept ((ledger_joinBasket ..).after ((ledger_putHold ..).after (ledger_mapSeats ..))) hs
  | releases _ _ => exact reservationsFit_of_kept (ledger_releaseHold ..) hs
  | drops _ _ _ _ =>
    exact reservationsFit_of_kept ((ledger_basketLoses ..).after ((ledger_setBasket ..).after (ledger_releaseHold ..))) hs
  | empties _ => exact reservationsFit_of_kept (ledger_emptyBasket ..) hs
  | accepts tag h => exact reservationsFit_acceptPay tag h hs
  | proceeds hp hph hph' hsale hjournal =>
    obtain ⟨_, _, _, _, _, h3⟩ := id hs
    obtain ⟨hrj, hrs⟩ := h3 _ _ hp
    refine reservationsFit_of_turn hs (paymentTurns_of_pays rfl) ?_ ?_ ?_ hw hfit hlen
    · rintro _ ⟨⟩
      exact ⟨hjournal.trans hrj, by rw [hsale, hrs]; simp [hph, hph']⟩
    · simp [hp, hsale]
    · simp [hp]
  | ends hp _ o => exact reservationsFit_endWithoutSale hp o hs
  | reverses hp _ c r o => exact reservationsFit_reverseAndEnd hp c r o hs
  | captures hp hph c => exact reservationsFit_endCapture hp hph c hs
  | commits hp hph hph' hsale hjournal => exact reservationsFit_commit hp hph hph' hsale hjournal _ _ hs
  | sells hn howner hm hsales hjournal tag ref =>
    obtain ⟨h1, h2, h3, _, h5, h6⟩ := takeSiteSell_ledger tag _ _ ref _ hw
    rw [salesFree_iff] at hsales
    rw [journalFree_iff] at hjournal
    exact reservationsFit_of_same hs h1 h2 h3 ((tended_takeSiteSell ..).sales hw) (by omega) (by omega)
  | refunds hx _ hjournal tag =>
    obtain ⟨h1, h2, h3, _, h5, h6⟩ := takeRefund_ledger tag _ _ hw
    rw [journalFree_iff] at hjournal
    exact reservationsFit_of_same hs h1 h2 h3 ((tended_takeRefund ..).sales hw) (by omega) (by omega)
  | journals k h hk _ =>
    obtain ⟨_, _, h3, _, hp, hsr, _, hj, hjr⟩ := Books.mk.inj h
    rw [journalFree_iff] at hk
    have hj : t.journal.length = k := hj
    exact reservationsFit_of_same hs hp hsr hjr (h3 ▸ hw) (by omega) (by rw [h3]; exact hlen)

/-! ### The next sale number -/

/-- The next sale number lies within its range (R110). -/
def NextSaleRange (s : State) : Prop := 1 ≤ s.nextSale ∧ s.nextSale ≤ 65535

theorem nextSaleRange_succWrap (n : Nat) : 1 ≤ succWrap Config.maxSaleNumber n ∧ succWrap Config.maxSaleNumber n ≤ 65535 :=
  succWrap_range (by decide)

theorem nextSaleRange_of_move {s t : State} (h : Move s t) (hw : s.sales.wf = true) (hs : NextSaleRange s) : NextSaleRange t := by
  have kept {u : State} (h : u.nextSale = s.nextSale) : NextSaleRange u := by unfold NextSaleRange; rw [h]; exact hs
  cases h with
  | quiet h _ => exact kept (congrArg Books.nextSale h)
  | restarts h _ =>
    have : t.nextSale = 1 := congrArg Books.nextSale h
    unfold NextSaleRange; omega
  | begins | loads | turns | abandons | edits | retires | amends => exact hs
  | touches _ _ _ => exact kept (ledger_mapSeats ..).nextSale
  | claims | siteHolds => exact kept ((ledger_putHold ..).after (ledger_mapSeats ..)).nextSale
  | closes _ _ _ => exact kept ((ledger_joinBasket ..).after ((ledger_putHold ..).after (ledger_mapSeats ..))).nextSale
  | releases _ _ => exact kept (ledger_releaseHold ..).nextSale
  | drops _ _ _ _ => exact kept ((ledger_basketLoses ..).after ((ledger_setBasket ..).after (ledger_releaseHold ..))).nextSale
  | empties _ => exact kept (ledger_emptyBasket ..).nextSale
  | accepts tag _ =>
    obtain ⟨_, _, _, _, _, _, hframe⟩ := acceptPay_frame _ tag s
    exact kept (by rw [hframe])
  | proceeds _ _ _ _ _ => exact hs
  | ends _ _ _ => exact kept (by rw [endWithoutSale_frame])
  | reverses _ _ _ _ _ => exact kept (by rw [reverseAndEnd_frame])
  | captures _ _ c =>
    refine kept ?_
    unfold endCapture
    split
    · rw [releaseReservations_frame]; rfl
    · rfl
  | commits _ _ _ _ _ =>
    obtain ⟨_, _, _, _, h5, _⟩ := commit_ledger _ _ _ hw
    unfold NextSaleRange
    rw [setPayment_nextSale, h5]
    exact nextSaleRange_succWrap _
  | sells _ _ _ _ _ tag ref =>
    obtain ⟨_, _, _, h4, _⟩ := takeSiteSell_ledger tag _ _ ref _ hw
    unfold NextSaleRange
    rw [h4]
    exact nextSaleRange_succWrap _
  | refunds _ _ _ tag =>
    obtain ⟨_, _, _, h4, _⟩ := takeRefund_ledger tag _ _ hw
    exact kept h4
  | journals k h _ _ => exact kept (congrArg Books.nextSale h)

end Sys2Proof.Machine
end

section
/-! Payments freeze holds and stand on a priced basket, under each move (R38, R60, R87). -/

namespace Sys2Proof.Machine

/-! ### Payments and gathering holds -/

theorem freeze_of_tended {s t : State} (h : Tended s t) (hidle : ∀ st, t.payIdle st = false → s.payIdle st = false)
    (hs : PaymentsFreezeHolds s) : PaymentsFreezeHolds t := by
  intro st hst
  refine gathering_eq_none.mpr fun e he ho hp => ?_
  obtain ⟨d, hd, hdo, hdp⟩ := h.gathers e he hp
  exact gathering_eq_none.mp (hs st (hidle st hst)) d hd (hdo.trans ho) hdp

theorem payIdle_of_payment {s t : State} (h : t.payment = s.payment) (st : Station) (ht : t.payIdle st = false) :
    s.payIdle st = false := by
  unfold State.payIdle at *; rwa [h] at ht

/-- A payment that ends, or goes on, leaves no station busy that was not. -/
theorem PaymentTurns.payIdle {st : Station} {q : Option Payment} {s t : State} (h : PaymentTurns st q s t)
    (hq : q.isSome = true → (s.payment st).isSome = true) (st' : Station) (ht : t.payIdle st' = false) : s.payIdle st' = false := by
  unfold State.payIdle at *
  by_cases e : st' = st
  · subst e
    rw [h.there] at ht
    cases q with
    | none => cases ht
    | some p =>
      have := hq rfl
      cases hp : s.payment st' with
      | none => rw [hp] at this; cases this
      | some _ => rfl
  · rwa [h.elsewhere st' e] at ht

theorem payment_eq_none_of_gathering {s : State} (hs : PaymentsFreezeHolds s) {st : Station} {n : Nat} {h : Hold}
    (hn : (n, h) ∈ s.holds) (ho : h.owner = .station st) (hp : h.phase = .gathering) : s.payment st = none := by
  by_contra hne
  have hbusy : s.payIdle st = false := by
    unfold State.payIdle
    cases hp : s.payment st with
    | none => exact absurd hp hne
    | some _ => rfl
  exact gathering_eq_none.mp (hs st hbusy) (n, h) hn ho hp

/-! ### The end of a capture, and sales, beside the payments -/

theorem turns_endCapture {st : Station} {p : Payment} {c : CaptureState} {s : State} :
    PaymentTurns st none s (endCapture st p c s) := by
  unfold endCapture
  split
  · refine paymentTurns_of_pays (c := { (releaseReservations st p s).pay st with current := none }) ?_
    rw [setPayment_pays, releaseReservations_frame]
  · exact paymentTurns_of_pays (c := { s.pay st with current := none }) rfl

theorem baskets_endCapture (st : Station) (p : Payment) (c : CaptureState) (s : State) :
    (endCapture st p c s).baskets = s.baskets := by
  unfold endCapture
  split
  · rw [setPayment_baskets, releaseReservations_frame]
  · rfl

theorem baskets_takeSiteSell (tag : Tag) (n : Nat) (h : Hold) (ref : Chars 8) (m : Summary) (s : State) :
    (takeSiteSell tag n h ref m s).baskets = s.baskets := by
  obtain ⟨serials, _, hframe⟩ := enterSale_frame s.freshSale (saleOf s m .remote (some h.slot) none none .notApplicable (some ref)) m
    [n] false s
  unfold takeSiteSell
  dsimp only
  split
  · rw [hframe]
  · unfold replySite
    rw [emit_frame, writeFree_frame, hframe]

/-- A hold that leaves its basket reaches no other basket (R34). -/
theorem baskets_leaveBasket (st : Station) (n : Nat) (h : Hold) (s : State) :
    (leaveBasket st n h (releaseHold n s)).baskets = s.baskets.set st ((leaveBasket st n h (releaseHold n s)).basket st) := by
  unfold leaveBasket
  generalize hu : modifyBasket st _ (releaseHold n s) = u
  have e : u.baskets = s.baskets.set st (u.basket st) := by
    subst hu; rw [releaseHold_frame]; simp [modifyBasket, State.basket]
  have e' := basketLoses_frame st u
  generalize basketLoses st u = t at e'
  rw [e']
  dsimp only
  rw [e, set_set]
  simp [State.basket]

/-- A REFUND reaches seats, sales, vouchers, items, lanes and journal alone (R117). -/
theorem takeRefund_frame (tag : Tag) (n : Nat) (x : Sale) (s : State) :
    (takeRefund tag n x s).baskets = s.baskets ∧ (takeRefund tag n x s).holds = s.holds := by
  have seats (l : List SaleSeat) (u : State) :
      (l.foldl (fun s l => mapSeats l.ref.slot [refPos l.ref] Seat.refund s) u).baskets = u.baskets ∧
      (l.foldl (fun s l => mapSeats l.ref.slot [refPos l.ref] Seat.refund s) u).holds = u.holds :=
    ⟨foldl_keeps (·.baskets) _ (fun s l => by rw [mapSeats_frame]) l u, foldl_keeps (·.holds) _ (fun s l => by rw [mapSeats_frame]) l u⟩
  have vouchers (l : List Nat) (u : State) : (l.foldl (fun s v => voidVoucher v s) u).baskets = u.baskets ∧
      (l.foldl (fun s v => voidVoucher v s) u).holds = u.holds :=
    ⟨foldl_keeps (·.baskets) _ (fun s v => by rw [voidVoucher_frame]) l u,
      foldl_keeps (·.holds) _ (fun s v => by rw [voidVoucher_frame]) l u⟩
  unfold takeRefund replySite
  dsimp only
  rw [emit_frame, modifySale_frame, writeFree_frame, removeOrders_frame]
  exact ⟨(vouchers _ _).1.trans (seats _ _).1, (vouchers _ _).2.trans (seats _ _).2⟩

theorem freeze_of_move {s t : State} (h : Move s t) (hw : s.sales.wf = true) (hs : PaymentsFreezeHolds s) :
    PaymentsFreezeHolds t := by
  cases h with
  | quiet h hv => exact freeze_of_tended (tended_of_books h hv) (payIdle_of_payment (congrArg Books.payment h)) hs
  | restarts h _ =>
    have he : t.holds = [] := congrArg Books.holds h
    exact fun st _ => gathering_eq_none.mpr (by rw [he]; exact fun e h => nomatch h)
  | begins | loads | turns | abandons | edits | retires | amends => exact hs
  | touches _ _ hf =>
    exact freeze_of_tended (tended_mapSeats (fun x => (hf x).pos)) (payIdle_of_payment (ledger_mapSeats ..).payment) hs
  | @claims st n h r x w hidle _ _ _ _ hn =>
    have hown : h.owner = .station st := by
      rcases hn with ⟨_, ho, _⟩ | ⟨_, rfl⟩
      · exact ho
      · rfl
    rw [mapSeats_frame]
    intro st' hbusy
    refine gathering_eq_none.mpr fun e he ho hp => ?_
    rcases Tbl.mem_put he with rfl | he
    · obtain rfl : st' = st := Owner.station.inj (ho.symm.trans hown)
      exact absurd hidle (by rw [show s.payIdle st' = false from hbusy]; decide)
    · exact gathering_eq_none.mp (hs st' hbusy) e he ho hp
  | @siteHolds n h sc _ _ hphase _ _ _ =>
    refine freeze_of_tended ((tended_putHold n _ (fun h => ?_)).after (tended_mapSeats (fun _ => rfl)))
      (payIdle_of_payment ((ledger_putHold ..).after (ledger_mapSeats ..)).payment) hs
    rw [hphase] at h; cases h
  | closes _ _ _ =>
    refine freeze_of_tended ((tended_joinBasket ..).after ((tended_putHold _ _ (fun h => ?_)).after (tended_mapSeats (fun _ => rfl))))
      (payIdle_of_payment ((ledger_joinBasket ..).after ((ledger_putHold ..).after (ledger_mapSeats ..))).payment) hs
    cases h
  | releases _ _ => exact freeze_of_tended (tended_releaseHold ..) (payIdle_of_payment (ledger_releaseHold ..).payment) hs
  | drops _ _ _ _ =>
    exact freeze_of_tended ((tended_basketLoses ..).after ((tended_setBasket ..).after (tended_releaseHold ..)))
      (payIdle_of_payment ((ledger_basketLoses ..).after ((ledger_setBasket ..).after (ledger_releaseHold ..))).payment) hs
  | empties _ => exact freeze_of_tended (tended_emptyBasket ..) (payIdle_of_payment (ledger_emptyBasket ..).payment) hs
  | @accepts st tag h =>
    obtain ⟨_, hg, _⟩ := payRefusal_none h
    obtain ⟨c, p, hc, _, _, _, hframe⟩ := acceptPay_frame st tag s
    have hturn : PaymentTurns st c.current s (acceptPay st tag s) := paymentTurns_of_pays (by rw [hframe])
    intro st' hbusy
    refine gathering_eq_none.mpr fun e he ho hp => ?_
    obtain ⟨d, hd, hdo, hdp⟩ := (tended_acceptPay st tag s).gathers e he hp
    by_cases hst : st' = st
    · subst hst; exact gathering_eq_none.mp hg d hd (hdo.trans ho) hdp
    · refine gathering_eq_none.mp (hs st' ?_) d hd (hdo.trans ho) hdp
      unfold State.payIdle at hbusy ⊢
      rwa [hturn.elsewhere st' hst] at hbusy
  | proceeds hp _ _ _ _ =>
    exact freeze_of_tended (tended_setPayment ..) ((paymentTurns_of_pays rfl).payIdle (fun _ => by rw [hp]; rfl)) hs
  | @ends st p hp _ o =>
    have hturn : PaymentTurns st none s (endWithoutSale st p o s) :=
      paymentTurns_of_pays (c := { s.pay st with current := none }) (by rw [endWithoutSale_frame])
    exact freeze_of_tended (tended_endWithoutSale ..) (hturn.payIdle (fun h => by cases h)) hs
  | @reverses st p hp _ c r o =>
    have hturn : PaymentTurns st none s (reverseAndEnd st p c r o s) :=
      paymentTurns_of_pays (c := { s.pay st with current := none }) (by rw [reverseAndEnd_frame])
    exact freeze_of_tended (tended_reverseAndEnd ..) (hturn.payIdle (fun h => by cases h)) hs
  | @captures st p hp _ c => exact freeze_of_tended (tended_endCapture ..) (turns_endCapture.payIdle (fun h => by cases h)) hs
  | @commits st p p' auth room hp _ _ _ _ =>
    obtain ⟨c1, _⟩ := commit_ledger st auth room hw
    have hturn : PaymentTurns st (some p') s (setPayment st (some p') (commit st auth room s)) :=
      paymentTurns_of_pays (c := { (commit st auth room s).pay st with current := some p' }) (by rw [setPayment_pays, c1])
    exact freeze_of_tended ((tended_setPayment ..).after (tended_commit ..)) (hturn.payIdle (fun _ => by rw [hp]; rfl)) hs
  | sells _ _ _ _ _ tag ref =>
    exact freeze_of_tended (tended_takeSiteSell ..) (payIdle_of_payment (takeSiteSell_ledger tag _ _ ref _ hw).1) hs
  | refunds _ _ _ tag => exact freeze_of_tended (tended_takeRefund ..) (payIdle_of_payment (takeRefund_ledger tag _ _ hw).1) hs
  | journals k h _ hv =>
    obtain ⟨h1, h2, h3, _, hp, _⟩ := Books.mk.inj h
    exact freeze_of_tended (.of_tables h1 h2 h3 hv) (payIdle_of_payment hp) hs

/-! ### Payments and summaries -/

/-- A summary stands in the basket of a payment in flight before the commit (R60, R87). -/
def PaymentsPriced (s : State) : Prop :=
  ∀ st p, s.payment st = some p → p.phase ≠ .capturing → (s.basket st).summary.isSome = true

theorem priced_of_same {s t : State} (hp : t.payment = s.payment) (hb : t.baskets = s.baskets) (hs : PaymentsPriced s) :
    PaymentsPriced t := by
  intro st p h hph
  rw [hp] at h
  unfold State.basket
  rw [hb]
  exact hs st p h hph

theorem basket_of_set {s t : State} {st : Station} {b : Basket} (h : t.baskets = s.baskets.set st b) : t.basket st = b ∧
    ∀ st', st' ≠ st → t.basket st' = s.basket st' := by
  unfold State.basket
  rw [h]
  refine ⟨by simp, fun st' hne => ?_⟩
  simp only [Fin.getElem_fin]
  exact Vector.getElem_set_ne _ _ (by intro e; exact hne (Fin.ext e.symm))

/-- One station's basket and payment change, and its payment stands on a summary. -/
theorem priced_of_turn {s t : State} {st : Station} {q : Option Payment} {b : Basket} (hp : PaymentTurns st q s t)
    (hb : t.baskets = s.baskets.set st b) (hq : ∀ p, q = some p → p.phase ≠ .capturing → b.summary.isSome = true)
    (hs : PaymentsPriced s) : PaymentsPriced t := by
  obtain ⟨hthere, hne⟩ := basket_of_set hb
  intro st' p h hph
  by_cases e : st' = st
  · subst e; rw [hp.there] at h; rw [hthere]; exact hq p h hph
  · rw [hp.elsewhere st' e] at h; rw [hne st' e]; exact hs st' p h hph

theorem paymentTurns_of_same {s t : State} (h : t.payment = s.payment) (st : Station) : PaymentTurns st (s.payment st) s t :=
  ⟨by rw [h], fun st' _ => by rw [h]⟩

theorem baskets_set_self (s : State) (st : Station) : s.baskets = s.baskets.set st (s.basket st) := (set_self s.baskets st).symm

theorem payment_eq_none_of_payIdle {s : State} {st : Station} (h : s.payIdle st = true) : s.payment st = none := by
  simpa [State.payIdle] using h

theorem priced_of_move {s t : State} (h : Move s t) (hw : s.sales.wf = true) (hf : PaymentsFreezeHolds s)
    (hs : PaymentsPriced s) : PaymentsPriced t := by
  cases h with
  | quiet h _ => exact priced_of_same (congrArg Books.payment h) (congrArg Books.baskets h) hs
  | restarts h _ =>
    have hnone : ∀ st, State.reset.payment st = none := by decide
    intro st p hp
    rw [show t.payment = State.reset.payment from congrArg Books.payment h, hnone] at hp
    cases hp
  | begins | loads | turns | abandons | retires | amends => exact hs
  | @edits st b hb =>
    have hturn : PaymentTurns st (s.payment st) s (setBasket st b s) :=
      paymentTurns_of_same (ledger_setBasket st b s).payment st
    refine priced_of_turn hturn rfl (fun p hp hph => ?_) hs
    rcases hb.priced with hidle | hkeep
    · rw [payment_eq_none_of_payIdle hidle] at hp; cases hp
    · exact hkeep (hs st p hp hph)
  | touches _ _ _ => exact priced_of_same (ledger_mapSeats ..).payment (by rw [mapSeats_frame]) hs
  | claims | siteHolds =>
    exact priced_of_same ((ledger_putHold ..).after (ledger_mapSeats ..)).payment (by rw [mapSeats_frame]; rfl) hs
  | @closes st n h hn ho hp =>
    have hl := (ledger_joinBasket st n h _).after ((ledger_putHold n { h with phase := .standing, window := none } _).after
      (ledger_mapSeats h.slot h.seats (fun x => { x with state := .held n }) s))
    refine priced_of_turn (paymentTurns_of_same hl.payment st) (by rw [joinBasket_frame, mapSeats_frame]; rfl)
      (fun p hp' => ?_) hs
    rw [payment_eq_none_of_gathering hf hn ho hp] at hp'; cases hp'
  | releases _ _ => exact priced_of_same (ledger_releaseHold ..).payment (by rw [releaseHold_frame]) hs
  | @drops st n h hidle _ _ _ =>
    have hl : LedgerKept s (leaveBasket st n h (releaseHold n s)) :=
      (ledger_basketLoses ..).after ((ledger_setBasket ..).after (ledger_releaseHold ..))
    refine priced_of_turn (paymentTurns_of_same hl.payment st) (baskets_leaveBasket ..) (fun p hp => ?_) hs
    rw [payment_eq_none_of_payIdle hidle] at hp; cases hp
  | @empties st hidle =>
    refine priced_of_turn (paymentTurns_of_same (ledger_emptyBasket st s).payment st) (by rw [emptyBasket_frame]) (fun p hp => ?_) hs
    rw [payment_eq_none_of_payIdle hidle] at hp; cases hp
  | @accepts st tag h =>
    obtain ⟨_, _, hsome, _⟩ := payRefusal_none h
    obtain ⟨c, _, _, _, _, _, hframe⟩ := acceptPay_frame st tag s
    exact priced_of_turn (paymentTurns_of_pays (st := st) (c := c) (by rw [hframe])) (by rw [hframe]; exact baskets_set_self s st)
      (fun _ _ _ => hsome) hs
  | @proceeds st p p' hp hph _ _ _ =>
    exact priced_of_turn (paymentTurns_of_pays (st := st) rfl) (baskets_set_self s st) (fun _ _ _ => hs st p hp hph) hs
  | @ends st p _ _ o =>
    exact priced_of_turn (paymentTurns_of_pays (st := st) (c := { s.pay st with current := none }) (by rw [endWithoutSale_frame]))
      (by rw [endWithoutSale_frame]) (fun _ h => by cases h) hs
  | @reverses st p _ _ c r o =>
    exact priced_of_turn (paymentTurns_of_pays (st := st) (c := { s.pay st with current := none }) (by rw [reverseAndEnd_frame]))
      (by rw [reverseAndEnd_frame]) (fun _ h => by cases h) hs
  | @captures st p _ _ c =>
    have hb : (endCapture st p c s).baskets = s.baskets.set st (s.basket st) := by
      rw [baskets_endCapture]; exact baskets_set_self s st
    exact priced_of_turn turns_endCapture hb (fun _ h => by cases h) hs
  | @commits st p p' auth room _ _ hph' _ _ =>
    obtain ⟨c1, _⟩ := commit_ledger st auth room hw
    obtain ⟨_, _, hframe⟩ := commit_frame st auth room s
    refine priced_of_turn (paymentTurns_of_pays (st := st) (c := { (commit st auth room s).pay st with current := some p' })
      (by rw [setPayment_pays, c1])) (by rw [setPayment_baskets, hframe]) ?_ hs
    rintro _ ⟨⟩ hne
    exact absurd hph' hne
  | sells _ _ _ _ _ tag ref =>
    exact priced_of_same (takeSiteSell_ledger tag _ _ ref _ hw).1 (baskets_takeSiteSell ..) hs
  | refunds _ _ _ tag => exact priced_of_same (takeRefund_ledger tag _ _ hw).1 (takeRefund_frame ..).1 hs
  | journals k h _ _ =>
    obtain ⟨_, _, _, hb, hp, _⟩ := Books.mk.inj h
    exact priced_of_same hp hb hs

end Sys2Proof.Machine
end

section
/-! Seats and their owners under the operations on seats, holds, sales and screenings (R11, R13, R14): the part of the agreement
that reads no basket and no payment. -/

namespace Sys2Proof.Machine

/-! ### The agreement of seats, holds and sales -/

/-- The seats an ACTIVE sale lists are its own. -/
def SaleOwnsSeats (s : State) (n : Nat) : Prop :=
  ∀ y, s.sale n = some y → y.state = .active → ∀ l ∈ y.seats, y.slot = some l.ref.slot ∧
    ∃ x, s.seat l.ref.slot (refPos l.ref) = some x ∧ x.inSale n

/-- Holds, sales and seats agree.  The sale `out`, if any, is left out of the second clause: while it is being entered or refunded
not all its seats are its own. -/
structure SeatCore (out : Option Nat) (s : State) : Prop where
  holds : HoldsOwnSeats s
  sales : ∀ n, some n ≠ out → SaleOwnsSeats s n
  listed : ∀ slot x, s.stands slot x → OwnerListsSeat s slot x
  loading : ∀ slot x, s.isLoading slot → s.stands slot x → x.unowned
  oneSlot : ∀ st m n g h, s.hold m = some g → s.hold n = some h → g.owner = .station st → h.owner = .station st → g.slot = h.slot

/-- The agreement reads screenings, holds and sales alone. -/
theorem SeatCore.congr {out : Option Nat} {s t : State} (h : SeatCore out s) (h1 : t.screenings = s.screenings)
    (h2 : t.holds = s.holds) (h3 : t.sales = s.sales) : SeatCore out t := by
  have e1 : t.screening = s.screening := by funext k; unfold State.screening; rw [h1]
  have e2 : t.hold = s.hold := by funext n; unfold State.hold; rw [h2]
  have e3 : t.sale = s.sale := by funext n; unfold State.sale; rw [h3]
  have e4 : t.seat = s.seat := by funext k p; unfold State.seat; rw [e1]
  have e5 : t.stands = s.stands := by funext k x; unfold State.stands; rw [e1]
  have e6 : t.isLoading = s.isLoading := by funext k; unfold State.isLoading; rw [e1]
  have e7 : OwnerListsSeat t = OwnerListsSeat s := by funext k x; unfold OwnerListsSeat; rw [e2, e3]
  refine ⟨?_, ?_, ?_, ?_, ?_⟩
  · unfold HoldsOwnSeats; rw [e2, e4]; exact h.holds
  · unfold SaleOwnsSeats; rw [e3, e4]; exact h.sales
  · rw [e5, e7]; exact h.listed
  · rw [e5, e6]; exact h.loading
  · rw [e2]; exact h.oneSlot

section Facts

variable {out : Option Nat} {s : State}

theorem ownerListsSeat_of_unowned {slot : Nat} {x : Seat} (h : x.unowned) : OwnerListsSeat s slot x :=
  (ownerListsSeat_iff s slot x).mpr ⟨fun _ hn => absurd hn (not_inHold_of_unowned h), fun _ hn => absurd hn (not_inSale_of_unowned h)⟩

theorem SeatCore.hold_of_seat (h : SeatCore out s) {slot n : Nat} {x : Seat} (hx : s.stands slot x) (hn : x.inHold n) :
    ∃ g, s.hold n = some g ∧ g.slot = slot ∧ x.pos ∈ g.seats :=
  ((ownerListsSeat_iff s slot x).mp (h.listed slot x hx)).1 n hn

theorem SeatCore.sale_of_seat (h : SeatCore out s) {slot n : Nat} {x : Seat} (hx : s.stands slot x) (hn : x.inSale n) :
    ∃ y, s.sale n = some y ∧ y.state = .active ∧ ∃ l ∈ y.seats, l.ref = ⟨slot, x.row, x.num⟩ :=
  ((ownerListsSeat_iff s slot x).mp (h.listed slot x hx)).2 n hn

theorem inHold_of_state {x : Seat} {n : Nat} {ph : HoldPhase} (h : x.state = if ph = .gathering then .pending n else .held n) :
    x.inHold n := by
  unfold Seat.inHold
  rw [h]
  split
  · exact .inl rfl
  · exact .inr rfl

theorem SeatCore.seat_of_hold (h : SeatCore out s) {n : Nat} {g : Hold} (hg : s.hold n = some g) {p : SeatPos} (hp : p ∈ g.seats) :
    ∃ x, s.seat g.slot p = some x ∧ x.inHold n := by
  obtain ⟨x, hx, hs⟩ := h.holds n g hg p hp
  exact ⟨x, hx, inHold_of_state hs⟩

/-- No seat stands in two holds. -/
theorem SeatCore.hold_unique (h : SeatCore out s) {m n : Nat} {g k : Hold} (hg : s.hold m = some g) (hk : s.hold n = some k)
    (hslot : g.slot = k.slot) {p : SeatPos} (hpg : p ∈ g.seats) (hpk : p ∈ k.seats) : m = n := by
  obtain ⟨x, hx, hm⟩ := h.seat_of_hold hg hpg
  obtain ⟨y, hy, hn⟩ := h.seat_of_hold hk hpk
  rw [hslot, hy] at hx
  cases hx
  exact inHold_unique hm hn

/-- No hold lists a seat of a LOADING slot. -/
theorem SeatCore.hold_not_loading (h : SeatCore out s) {n : Nat} {g : Hold} (hg : s.hold n = some g) {p : SeatPos} (hp : p ∈ g.seats) :
    ¬ s.isLoading g.slot := by
  intro hl
  obtain ⟨x, hx, hn⟩ := h.seat_of_hold hg hp
  exact not_inHold_of_unowned (h.loading g.slot x hl (stands_of_seat hx).1) hn

/-- No ACTIVE sale lists a seat of a LOADING slot. -/
theorem SeatCore.sale_not_loading (h : SeatCore none s) {n : Nat} {y : Sale} (hy : s.sale n = some y) (ha : y.state = .active)
    {l : SaleSeat} (hl : l ∈ y.seats) : ¬ s.isLoading l.ref.slot := by
  intro hload
  obtain ⟨_, x, hx, hn⟩ := h.sales n nofun y hy ha l hl
  exact not_inSale_of_unowned (h.loading _ x hload (stands_of_seat hx).1) hn

end Facts

/-! ### Seats that keep their owners -/

theorem SeatCore.touch {out : Option Nat} {s : State} (h : SeatCore out s) (slot : Nat) (ps : List SeatPos) {f : Seat → Seat}
    (hf : ∀ x, SameOwner x (f x)) : SeatCore out (mapSeats slot ps f s) := by
  have hpos := fun x => (hf x).pos
  have found {k : Nat} {p : SeatPos} {x : Seat} (hx : s.seat k p = some x) :
      ∃ y, (mapSeats slot ps f s).seat k p = some y ∧ SameOwner x y := by
    rw [seat_mapSeats hpos, hx]
    split
    · exact ⟨f x, rfl, hf x⟩
    · exact ⟨x, rfl, rfl, .inl rfl⟩
  have stood {k : Nat} {y : Seat} (hy : (mapSeats slot ps f s).stands k y) : ∃ x, s.stands k x ∧ SameOwner x y := by
    obtain ⟨x, hx, rfl⟩ := (stands_mapSeats ..).mp hy
    refine ⟨x, hx, ?_⟩
    split
    · exact hf x
    · exact ⟨rfl, .inl rfl⟩
  refine ⟨fun n g hg p hp => ?_, fun n hn y hy ha l hl => ?_, fun k y hy => ?_, fun k y hl hy => ?_, ?_⟩
  · rw [hold_mapSeats] at hg
    obtain ⟨x, hx, hs⟩ := h.holds n g hg p hp
    obtain ⟨y, hy, hsame⟩ := found hx
    exact ⟨y, hy, (hsame.state (inHold_of_state hs)).trans hs⟩
  · rw [sale_mapSeats] at hy
    obtain ⟨hslot, x, hx, hs⟩ := h.sales n hn y hy ha l hl
    obtain ⟨z, hz, hsame⟩ := found hx
    exact ⟨hslot, z, hz, (hsame.inSale n).mpr hs⟩
  · obtain ⟨x, hx, hsame⟩ := stood hy
    obtain ⟨hrow, hnum⟩ := SeatPos.mk.inj hsame.pos
    rw [ownerListsSeat_iff]
    simp only [hold_mapSeats, sale_mapSeats]
    rw [hsame.pos, hrow, hnum]
    exact ⟨fun n hn => h.hold_of_seat hx ((hsame.inHold n).mp hn), fun n hn => h.sale_of_seat hx ((hsame.inSale n).mp hn)⟩
  · obtain ⟨x, hx, hsame⟩ := stood hy
    exact hsame.unowned (h.loading k x ((isLoading_mapSeats ..).mp hl) hx)
  · simp only [hold_mapSeats]; exact h.oneSlot

/-! ### A hold takes seats (R25, R32, R41) -/

/-- Seats that are FREE or the hold's own become the hold's, and its record is put. -/
theorem SeatCore.assign {out : Option Nat} {s : State} (h : SeatCore out s) {n : Nat} {g : Hold} {ps : List SeatPos} {σ : SeatState}
    (hσ : σ = if g.phase = .gathering then .pending n else .held n)
    (hfound : ∀ p ∈ ps, ∃ x, s.seat g.slot p = some x ∧ (x.unowned ∨ x.inHold n))
    (hkeep : ∀ p ∈ g.seats, p ∉ ps → ∃ x, s.seat g.slot p = some x ∧ x.state = σ) (hsub : ∀ p ∈ ps, p ∈ g.seats)
    (hbefore : ∀ k, s.hold n = some k → k.slot = g.slot ∧ ∀ p ∈ k.seats, p ∈ g.seats)
    (hload : ∀ p ∈ ps, ¬ s.isLoading g.slot)
    (hone : ∀ st m k, s.hold m = some k → k.owner = .station st → g.owner = .station st → k.slot = g.slot) :
    SeatCore out (putHold n g (mapSeats g.slot ps (fun x => { x with state := σ }) s)) := by
  have hseat (k : Nat) (p : SeatPos) : (putHold n g (mapSeats g.slot ps (fun x => { x with state := σ }) s)).seat k p =
      if k = g.slot ∧ p ∈ ps then (s.seat k p).map (fun x => { x with state := σ }) else s.seat k p :=
    seat_mapSeats (f := fun x => { x with state := σ }) (fun _ => rfl) g.slot k ps p s
  have hhold (m : Nat) (hm : m ≠ n) : (putHold n g (mapSeats g.slot ps (fun x => { x with state := σ }) s)).hold m = s.hold m := by
    rw [hold_putHold_ne hm, hold_mapSeats]
  have hsale (m : Nat) : (putHold n g (mapSeats g.slot ps (fun x => { x with state := σ }) s)).sale m = s.sale m :=
    sale_mapSeats ..
  have hthere : (putHold n g (mapSeats g.slot ps (fun x => { x with state := σ }) s)).hold n = some g := hold_putHold ..
  have hstands (k : Nat) (y : Seat) : (putHold n g (mapSeats g.slot ps (fun x => { x with state := σ }) s)).stands k y ↔
      ∃ x, s.stands k x ∧ y = if k = g.slot ∧ x.pos ∈ ps then { x with state := σ } else x := stands_mapSeats ..
  have hloading (k : Nat) : (putHold n g (mapSeats g.slot ps (fun x => { x with state := σ }) s)).isLoading k ↔ s.isLoading k :=
    isLoading_mapSeats ..
  generalize putHold n g (mapSeats g.slot ps (fun x => { x with state := σ }) s) = t at *
  refine ⟨fun m k hk p hp => ?_, fun m hm y hy ha l hl => ?_, fun k y hy => ?_, fun k y hl hy => ?_,
    fun st m m' k k' hk hk' ho ho' => ?_⟩
  · by_cases hm : m = n
    · subst hm
      rw [hthere] at hk; cases hk
      rw [hseat, ← hσ]
      by_cases hin : p ∈ ps
      · obtain ⟨x, hx, _⟩ := hfound p hin
        exact ⟨{ x with state := σ }, by rw [if_pos ⟨rfl, hin⟩, hx]; rfl, rfl⟩
      · obtain ⟨x, hx, hs⟩ := hkeep p hp hin
        exact ⟨x, by rw [if_neg (fun h => hin h.2), hx], hs⟩
    · rw [hhold m hm] at hk
      obtain ⟨x, hx, hs⟩ := h.holds m k hk p hp
      refine ⟨x, ?_, hs⟩
      rw [hseat, if_neg, hx]
      rintro ⟨hslot, hin⟩
      obtain ⟨y, hy, hown⟩ := hfound p hin
      rw [← hslot, hx] at hy; cases hy
      rcases hown with hu | hn
      · exact not_inHold_of_unowned hu (inHold_of_state hs)
      · exact hm (inHold_unique (inHold_of_state hs) hn)
  · rw [hsale] at hy
    obtain ⟨hslot, x, hx, hs⟩ := h.sales m hm y hy ha l hl
    refine ⟨hslot, x, ?_, hs⟩
    rw [hseat, if_neg, hx]
    rintro ⟨hk, hin⟩
    obtain ⟨z, hz, hown⟩ := hfound _ hin
    rw [← hk, hx] at hz; cases hz
    rcases hown with hu | hn
    · exact not_inSale_of_unowned hu hs
    · exact not_inSale_of_inHold hn hs
  · obtain ⟨x, hx, rfl⟩ := (hstands k y).mp hy
    rw [ownerListsSeat_iff]
    split
    · next hin =>
      have hy : ({ x with state := σ } : Seat).inHold n := inHold_of_state hσ
      refine ⟨fun m hm => ?_, fun m hm => absurd hm (not_inSale_of_inHold hy)⟩
      rw [inHold_unique hm hy]
      exact ⟨g, hthere, hin.1.symm, hsub _ hin.2⟩
    · refine ⟨fun m hm => ?_, fun m hm => ?_⟩
      · obtain ⟨k', hk', hslot, hp⟩ := h.hold_of_seat hx hm
        by_cases e : m = n
        · subst e
          obtain ⟨hs, hsub'⟩ := hbefore k' hk'
          exact ⟨g, hthere, hs.symm.trans hslot, hsub' _ hp⟩
        · exact ⟨k', by rw [hhold m e, hk'], hslot, hp⟩
      · rw [hsale]; exact h.sale_of_seat hx hm
  · obtain ⟨x, hx, rfl⟩ := (hstands k y).mp hy
    rw [hloading] at hl
    split
    · next hin => exact absurd (hin.1 ▸ hl) (hload _ hin.2)
    · exact h.loading k x hl hx
  · by_cases hm : m = n <;> by_cases hm' : m' = n
    · subst hm; subst hm'
      rw [hk] at hk'; cases hk'; rfl
    · subst hm
      rw [hthere] at hk; cases hk
      rw [hhold m' hm'] at hk'
      exact (hone st m' k' hk' ho' ho).symm
    · subst hm'
      rw [hthere] at hk'; cases hk'
      rw [hhold m hm] at hk
      exact hone st m k hk ho ho'
    · rw [hhold m hm] at hk
      rw [hhold m' hm'] at hk'
      exact h.oneSlot st m m' k k' hk hk' ho ho'

/-! ### A hold lets its seats go, or sells them (R13, R14) -/

theorem hold_releaseHold (m n : Nat) (s : State) : (releaseHold n s).hold m = if m = n then none else s.hold m := by
  unfold releaseHold
  split
  · split
    · next e => subst e; simp
    · next e => rw [hold_delHold_ne e, hold_mapSeats]
  · next hn =>
    split
    · next e => subst e; exact hn
    · rfl

/-- The seats of a hold that is freed become `f` of what they were, and each new owner lists them. -/
theorem SeatCore.free_hold {out : Option Nat} {s : State} (h : SeatCore out s) {n : Nat} {g : Hold} (hg : s.hold n = some g)
    {f : Seat → Seat} (hpos : ∀ x, (f x).pos = x.pos)
    (hlist : ∀ x, s.stands g.slot x → x.pos ∈ g.seats → OwnerListsSeat (delHold n s) g.slot (f x)) :
    SeatCore out (delHold n (mapSeats g.slot g.seats f s)) := by
  have hgone (m : Nat) : (delHold n s).hold m = if m = n then none else s.hold m := by
    split
    · next e => subst e; exact hold_delHold ..
    · next e => exact hold_delHold_ne e s
  have hhold (m : Nat) : (delHold n (mapSeats g.slot g.seats f s)).hold m = if m = n then none else s.hold m := by
    rw [← hgone]; rw [mapSeats_frame]; rfl
  have hsale (m : Nat) : (delHold n (mapSeats g.slot g.seats f s)).sale m = s.sale m := sale_mapSeats ..
  have hseat (k : Nat) (p : SeatPos) : (delHold n (mapSeats g.slot g.seats f s)).seat k p =
      if k = g.slot ∧ p ∈ g.seats then (s.seat k p).map f else s.seat k p := seat_mapSeats hpos g.slot k g.seats p s
  have hstands (k : Nat) (y : Seat) : (delHold n (mapSeats g.slot g.seats f s)).stands k y ↔
      ∃ x, s.stands k x ∧ y = if k = g.slot ∧ x.pos ∈ g.seats then f x else x := stands_mapSeats ..
  have hloading (k : Nat) : (delHold n (mapSeats g.slot g.seats f s)).isLoading k ↔ s.isLoading k := isLoading_mapSeats ..
  have hlists (k : Nat) (x : Seat) : OwnerListsSeat (delHold n (mapSeats g.slot g.seats f s)) k x ↔
      OwnerListsSeat (delHold n s) k x := by
    rw [ownerListsSeat_iff, ownerListsSeat_iff]
    simp only [hhold, hgone, hsale]
    rfl
  generalize delHold n (mapSeats g.slot g.seats f s) = t at *
  refine ⟨fun m k hk p hp => ?_, fun m hm y hy ha l hl => ?_, fun k y hy => ?_, fun k y hl hy => ?_, fun st m m' k k' hk hk' => ?_⟩
  · rw [hhold] at hk
    split at hk
    · cases hk
    · next hmn =>
      rw [hseat, if_neg]
      · exact h.holds m k hk p hp
      · rintro ⟨hslot, hin⟩
        exact hmn (h.hold_unique hk hg hslot hp hin)
  · rw [hsale] at hy
    obtain ⟨hslot, x, hx, hs⟩ := h.sales m hm y hy ha l hl
    refine ⟨hslot, x, ?_, hs⟩
    rw [hseat, if_neg, hx]
    rintro ⟨hk, hin⟩
    obtain ⟨z, hz, hown⟩ := h.seat_of_hold hg hin
    rw [← hk, hx] at hz; cases hz
    exact not_inSale_of_inHold hown hs
  · obtain ⟨x, hx, rfl⟩ := (hstands k y).mp hy
    rw [hlists]
    split
    · next hin => obtain ⟨rfl, hin⟩ := hin; exact hlist x hx hin
    · next hin =>
      rw [ownerListsSeat_iff]
      refine ⟨fun m hm => ?_, fun m hm => h.sale_of_seat hx hm⟩
      obtain ⟨k', hk', hslot, hp⟩ := h.hold_of_seat hx hm
      have hmn : m ≠ n := by
        rintro rfl
        rw [hg] at hk'; cases hk'
        exact hin ⟨hslot.symm, hp⟩
      exact ⟨k', by rw [hgone, if_neg hmn, hk'], hslot, hp⟩
  · obtain ⟨x, hx, rfl⟩ := (hstands k y).mp hy
    rw [hloading] at hl
    split
    · next hin => exact absurd (hin.1 ▸ hl) (h.hold_not_loading hg hin.2)
    · exact h.loading k x hl hx
  · rw [hhold] at hk hk'
    split at hk
    · cases hk
    · split at hk'
      · cases hk'
      · exact h.oneSlot st m m' k k' hk hk'

theorem SeatCore.release {out : Option Nat} {s : State} (h : SeatCore out s) (n : Nat) : SeatCore out (releaseHold n s) := by
  unfold releaseHold
  split
  · next g hg =>
    refine h.free_hold hg pos_release (fun x hx _ => ?_)
    rcases release_cases x with hu | ⟨he, hno⟩
    · exact ownerListsSeat_of_unowned hu
    · rw [he, ownerListsSeat_iff]
      exact ⟨fun m hm => absurd hm (hno m), fun m hm => h.sale_of_seat hx hm⟩
  · exact h

theorem SeatCore.releases {out : Option Nat} {s : State} (h : SeatCore out s) (l : List Nat) :
    SeatCore out (l.foldl (fun s n => releaseHold n s) s) :=
  foldl_preserves (SeatCore out) _ (fun _ n ht => ht.release n) l s h

theorem hold_releaseHolds (m : Nat) : ∀ (l : List Nat) (s : State),
    (l.foldl (fun s n => releaseHold n s) s).hold m = if m ∈ l then none else s.hold m
  | [], _ => by simp
  | n :: l, s => by
    rw [List.foldl_cons, hold_releaseHolds m l, hold_releaseHold]
    by_cases e : m = n <;> simp [e]

theorem hold_sellHold_eq (k m n : Nat) (s : State) : (sellHold k n s).hold m = if m = n then none else s.hold m := by
  split
  · next e => subst e; exact hold_sellHold ..
  · next e =>
    unfold sellHold
    split
    · rw [hold_delHold_ne e, hold_mapSeats]
    · rfl

theorem hold_sellHolds_eq (k m : Nat) : ∀ (l : List Nat) (s : State),
    (l.foldl (fun s n => sellHold k n s) s).hold m = if m ∈ l then none else s.hold m
  | [], _ => by simp
  | n :: l, s => by
    rw [List.foldl_cons, hold_sellHolds_eq k m l, hold_sellHold_eq]
    by_cases e : m = n <;> simp [e]

theorem sale_sellHold (k m n : Nat) (s : State) : (sellHold k n s).sale m = s.sale m := by rw [sellHold_frame]; rfl

theorem SeatCore.sell {s : State} {k n : Nat} {y : Sale} (h : SeatCore (some k) s) (hy : s.sale k = some y) (ha : y.state = .active)
    (hall : ∀ g, s.hold n = some g → ∀ p ∈ g.seats, ∃ l ∈ y.seats, l.ref = ⟨g.slot, p.row, p.num⟩) :
    SeatCore (some k) (sellHold k n s) := by
  unfold sellHold
  split
  · next g hg =>
    refine h.free_hold hg (pos_sell k) (fun x _ hx => ?_)
    rw [ownerListsSeat_iff]
    have hsold : (x.sell k).inSale k := .inl rfl
    refine ⟨fun m hm => absurd hsold (not_inSale_of_inHold hm), fun m hm => ?_⟩
    rw [inSale_unique hm hsold]
    exact ⟨y, hy, ha, hall g hg x.pos hx⟩
  · exact h

/-- What a seat of a hold, or of the sale, finds once the hold is sold. -/
theorem seat_sellHold {s : State} {k n : Nat} {slot : Nat} {p : SeatPos} {x : Seat} (hx : s.seat slot p = some x)
    (h : x.inSale k ∨ ∃ g, s.hold n = some g ∧ g.slot = slot ∧ p ∈ g.seats) :
    ∃ z, (sellHold k n s).seat slot p = some z ∧ z.inSale k := by
  unfold sellHold
  split
  · next g hg =>
    have hseat : (delHold n (mapSeats g.slot g.seats (Seat.sell k) s)).seat slot p = _ := seat_mapSeats (pos_sell k) ..
    rw [hseat, hx]
    split
    · exact ⟨_, rfl, .inl rfl⟩
    · next hout =>
      refine ⟨x, rfl, h.elim id ?_⟩
      rintro ⟨g', hg', hslot, hp⟩
      rw [hg] at hg'; cases hg'
      exact absurd ⟨hslot.symm, hp⟩ hout
  · next hn =>
    refine ⟨x, hx, h.elim id ?_⟩
    rintro ⟨g', hg', _⟩
    rw [hn] at hg'; cases hg'

/-- A seat of a sale that is being entered: sold already, or of a hold still to sell. -/
def Ready (s : State) (k : Nat) (l : List Nat) (r : SeatRef) : Prop :=
  (∃ x, s.seat r.slot (refPos r) = some x ∧ x.inSale k) ∨ ∃ n ∈ l, ∃ g, s.hold n = some g ∧ g.slot = r.slot ∧ refPos r ∈ g.seats

theorem Ready.step {s : State} {k n : Nat} {l : List Nat} {r : SeatRef} (hc : SeatCore (some k) s) (h : Ready s k (n :: l) r) :
    Ready (sellHold k n s) k l r := by
  rcases h with ⟨x, hx, hk⟩ | ⟨m, hm, g, hg, hslot, hp⟩
  · exact .inl (seat_sellHold hx (.inl hk))
  · by_cases e : m = n
    · subst e
      obtain ⟨x, hx, _⟩ := hc.seat_of_hold hg hp
      rw [hslot] at hx
      exact .inl (seat_sellHold hx (.inr ⟨g, hg, hslot, hp⟩))
    · exact .inr ⟨m, (List.mem_cons.mp hm).resolve_left e, g, by rw [hold_sellHold_eq, if_neg e, hg], hslot, hp⟩

/-- The sale left out comes in again when its seats are its own. -/
theorem SeatCore.settle {s : State} {k : Nat} (h : SeatCore (some k) s) (hk : SaleOwnsSeats s k) : SeatCore none s := by
  refine { h with sales := fun n _ => ?_ }
  by_cases e : n = k
  · rw [e]; exact hk
  · exact h.sales n (by simpa using e)

theorem SeatCore.sellAll {k : Nat} {y : Sale} (ha : y.state = .active) : ∀ (l : List Nat) (s : State), SeatCore (some k) s →
    s.sale k = some y →
    (∀ n ∈ l, ∀ g, s.hold n = some g → ∀ p ∈ g.seats, ∃ x ∈ y.seats, x.ref = ⟨g.slot, p.row, p.num⟩) →
    (∀ x ∈ y.seats, y.slot = some x.ref.slot ∧ Ready s k l x.ref) → SeatCore none (l.foldl (fun s n => sellHold k n s) s)
  | [], s, h, hy, _, hready => by
    refine h.settle (fun z hz _ x hx => ?_)
    rw [hy] at hz; cases hz
    obtain ⟨hslot, hr⟩ := hready x hx
    exact ⟨hslot, hr.resolve_right (fun ⟨_, h, _⟩ => nomatch h)⟩
  | n :: l, s, h, hy, hall, hready => by
    refine sellAll ha l _ (h.sell hy ha (hall n List.mem_cons_self)) (by rw [sale_sellHold, hy]) (fun m hm g hg => ?_)
      (fun x hx => ⟨(hready x hx).1, (hready x hx).2.step h⟩)
    rw [hold_sellHold_eq] at hg
    split at hg
    · cases hg
    · exact hall m (List.mem_cons_of_mem _ hm) g hg

/-- A fresh sale is left out until its seats are its own. -/
theorem SeatCore.enter {s : State} {k : Nat} (h : SeatCore none s) (hk : s.sale k = none) (y : Sale) :
    SeatCore (some k) (putSale k y s) := by
  refine ⟨h.holds, fun n hn => ?_, fun slot x hx => ?_, h.loading, h.oneSlot⟩
  · have hne : n ≠ k := by simpa using hn
    unfold SaleOwnsSeats
    rw [sale_putSale_ne hne]
    exact h.sales n nofun
  · refine (ownerListsSeat_iff ..).mpr ⟨fun n hn => h.hold_of_seat hx hn, fun n hn => ?_⟩
    obtain ⟨z, hz, hrest⟩ := h.sale_of_seat hx hn
    have hne : n ≠ k := by rintro rfl; rw [hk] at hz; cases hz
    exact ⟨z, by rw [sale_putSale_ne hne, hz], hrest⟩

/-- A sale put in the place of one with the same slot, seats and state. -/
theorem SeatCore.amend {out : Option Nat} {s : State} {n : Nat} {y z : Sale} (h : SeatCore out s) (hy : s.sale n = some y)
    (hslot : z.slot = y.slot) (hseats : z.seats = y.seats) (hstate : z.state = y.state) : SeatCore out (putSale n z s) := by
  refine ⟨h.holds, fun m hm => ?_, fun slot x hx => ?_, h.loading, h.oneSlot⟩
  · by_cases e : m = n
    · subst e
      intro w hw ha
      rw [sale_putSale] at hw; cases hw
      rw [hseats, hslot]
      exact h.sales m hm y hy (hstate ▸ ha)
    · unfold SaleOwnsSeats
      rw [sale_putSale_ne e]
      exact h.sales m hm
  · refine (ownerListsSeat_iff ..).mpr ⟨fun m hm => h.hold_of_seat hx hm, fun m hm => ?_⟩
    obtain ⟨w, hw, ha, hl⟩ := h.sale_of_seat hx hm
    by_cases e : m = n
    · subst e
      rw [hy] at hw; cases hw
      exact ⟨z, sale_putSale .., hstate.trans ha, by rw [hseats]; exact hl⟩
    · exact ⟨w, by rw [sale_putSale_ne e, hw], ha, hl⟩

theorem SeatCore.modifySale {out : Option Nat} {s : State} {n : Nat} {f : Sale → Sale} (h : SeatCore out s)
    (hslot : ∀ y, (f y).slot = y.slot) (hseats : ∀ y, (f y).seats = y.seats) (hstate : ∀ y, (f y).state = y.state) :
    SeatCore out (modifySale n f s) := by
  unfold Machine.modifySale
  split
  · next y hy => exact h.amend hy (hslot y) (hseats y) (hstate y)
  · exact h

theorem SeatCore.enterSale {s : State} (h : SeatCore none s) {k : Nat} (hk : s.sale k = none) {y : Sale} (ha : y.state = .active)
    {l : List Nat} (m : Summary) (fromReserved : Bool)
    (hall : ∀ n ∈ l, ∀ g, s.hold n = some g → ∀ p ∈ g.seats, ∃ x ∈ y.seats, x.ref = ⟨g.slot, p.row, p.num⟩)
    (hready : ∀ x ∈ y.seats, y.slot = some x.ref.slot ∧ ∃ n ∈ l, ∃ g, s.hold n = some g ∧ g.slot = x.ref.slot ∧ refPos x.ref ∈ g.seats) :
    SeatCore none (enterSale k y m l fromReserved s) := by
  have entered : SeatCore (some k) { putSale k y s with
      nextSale := succWrap Config.maxSaleNumber k, draws := s.draws + y.seats.length } :=
    (h.enter hk y).congr rfl rfl rfl
  have sold := entered.sellAll ha l _ (sale_putSale ..) hall (fun x hx => ⟨(hready x hx).1, .inr (hready x hx).2⟩)
  unfold Machine.enterSale
  refine SeatCore.modifySale (sold.congr ?_ ?_ ?_) (fun _ => rfl) (fun _ => rfl) (fun _ => rfl) <;> rw [createVouchers_frame]

/-! ### A sale gives its seats back (R14, R117) -/

/-- A seat of the sale left out, or of no owner, becomes FREE. -/
theorem SeatCore.refund {s : State} {k slot : Nat} {p : SeatPos} (h : SeatCore (some k) s)
    (hfound : ∀ x, s.seat slot p = some x → x.inSale k ∨ x.unowned) : SeatCore (some k) (mapSeats slot [p] Seat.refund s) := by
  have hseat (j : Nat) (q : SeatPos) := seat_mapSeats pos_refund slot j [p] q s
  refine ⟨fun n g hg q hq => ?_, fun n hn y hy ha l hl => ?_, fun j y hy => ?_, fun j y hl hy => ?_, ?_⟩
  · rw [hold_mapSeats] at hg
    obtain ⟨x, hx, hs⟩ := h.holds n g hg q hq
    refine ⟨x, ?_, hs⟩
    rw [hseat, if_neg, hx]
    rintro ⟨hslot, hin⟩
    rw [hslot, List.mem_singleton.mp hin] at hx
    rcases hfound x hx with hk | hu
    · exact not_inSale_of_inHold (inHold_of_state hs) hk
    · exact not_inHold_of_unowned hu (inHold_of_state hs)
  · rw [sale_mapSeats] at hy
    obtain ⟨hslot, x, hx, hs⟩ := h.sales n hn y hy ha l hl
    refine ⟨hslot, x, ?_, hs⟩
    rw [hseat, if_neg, hx]
    rintro ⟨hk, hin⟩
    rw [hk, List.mem_singleton.mp hin] at hx
    rcases hfound x hx with hk | hu
    · exact hn (congrArg some (inSale_unique hs hk))
    · exact not_inSale_of_unowned hu hs
  · obtain ⟨x, hx, rfl⟩ := (stands_mapSeats ..).mp hy
    split
    · exact ownerListsSeat_of_unowned (.inl rfl)
    · rw [ownerListsSeat_iff]
      simp only [hold_mapSeats, sale_mapSeats]
      exact ⟨fun n hn => h.hold_of_seat hx hn, fun n hn => h.sale_of_seat hx hn⟩
  · obtain ⟨x, hx, rfl⟩ := (stands_mapSeats ..).mp hy
    split
    · exact .inl rfl
    · exact h.loading j x ((isLoading_mapSeats ..).mp hl) hx
  · simp only [hold_mapSeats]; exact h.oneSlot

/-- After the refund of the seats of a list, none of them is of the sale, and each other seat stands as it stood. -/
theorem SeatCore.refunds {k : Nat} : ∀ (l : List SaleSeat) (s : State), SeatCore (some k) s →
    (∀ a ∈ l, ∀ x, s.seat a.ref.slot (refPos a.ref) = some x → x.inSale k ∨ x.unowned) →
    SeatCore (some k) (l.foldl (fun s a => mapSeats a.ref.slot [refPos a.ref] Seat.refund s) s) ∧
    ∀ slot y, (l.foldl (fun s a => mapSeats a.ref.slot [refPos a.ref] Seat.refund s) s).stands slot y → y.inSale k →
      s.stands slot y ∧ ∀ a ∈ l, a.ref ≠ ⟨slot, y.row, y.num⟩
  | [], s, h, _ => ⟨h, fun _ _ hy _ => ⟨hy, fun _ h => nomatch h⟩⟩
  | a :: l, s, h, hfound => by
    rw [List.foldl_cons]
    obtain ⟨hc, hleft⟩ := refunds l (mapSeats a.ref.slot [refPos a.ref] Seat.refund s) (h.refund (hfound a List.mem_cons_self))
      (fun b hb x hx => by
        rw [seat_mapSeats pos_refund] at hx
        split at hx
        · obtain ⟨z, _, rfl⟩ := Option.map_eq_some_iff.mp hx
          exact .inr (.inl rfl)
        · exact hfound b (List.mem_cons_of_mem _ hb) x hx)
    refine ⟨hc, fun slot y hy hk => ?_⟩
    obtain ⟨hy, hl⟩ := hleft slot y hy hk
    obtain ⟨x, hx, he⟩ := (stands_mapSeats ..).mp hy
    split at he
    · rw [he] at hk
      exact absurd hk (not_inSale_of_unowned (.inl rfl))
    · next hout =>
      subst he
      refine ⟨hx, fun b hb hr => ?_⟩
      rcases List.mem_cons.mp hb with rfl | hb
      · exact hout (by rw [hr]; exact ⟨rfl, List.mem_singleton.mpr rfl⟩)
      · exact hl b hb hr

/-- A sale of which no seat is left becomes REFUNDED. -/
theorem SeatCore.close_sale {s : State} {k : Nat} (h : SeatCore (some k) s) (hnone : ∀ slot x, s.stands slot x → ¬ x.inSale k)
    {a : Nat} : SeatCore none (Machine.modifySale k (fun y => { y with state := .refunded a }) s) := by
  have hput (y : Sale) (hy : y.state ≠ .active) : SeatCore none (putSale k y s) := by
    refine ⟨h.holds, fun n _ => ?_, fun slot x hx => ?_, h.loading, h.oneSlot⟩
    · by_cases e : n = k
      · subst e
        intro z hz ha
        rw [sale_putSale] at hz; cases hz
        exact absurd ha hy
      · unfold SaleOwnsSeats
        rw [sale_putSale_ne e]
        exact h.sales n (by simpa using e)
    · refine (ownerListsSeat_iff ..).mpr ⟨fun n hn => h.hold_of_seat hx hn, fun n hn => ?_⟩
      have e : n ≠ k := by rintro rfl; exact hnone slot x hx hn
      rw [sale_putSale_ne e]
      exact h.sale_of_seat hx hn
  unfold Machine.modifySale
  split
  · exact hput _ nofun
  · next hk =>
    refine h.settle (fun y hy => ?_)
    rw [hk] at hy; cases hy

/-! ### Screenings loaded, opened and retired (R3 to R10) -/

/-- One slot changes: it was LOADING or EMPTY, or its seats are found as before. -/
theorem SeatCore.of_slot {s t : State} (h : SeatCore none s) (slot : Nat) (hh : t.holds = s.holds) (hs : t.sales = s.sales)
    (hne : ∀ k, k ≠ slot → t.screening k = s.screening k)
    (hseat : s.isLoading slot ∨ ∀ p, t.seat slot p = s.seat slot p)
    (hnew : ∀ x, t.stands slot x → x.unowned ∨ (s.stands slot x ∧ ¬ t.isLoading slot)) : SeatCore none t := by
  have hhold : t.hold = s.hold := by funext n; unfold State.hold; rw [hh]
  have hsale : t.sale = s.sale := by funext n; unfold State.sale; rw [hs]
  have hlists : OwnerListsSeat t = OwnerListsSeat s := by funext k x; unfold OwnerListsSeat; rw [hhold, hsale]
  have found {k : Nat} (p : SeatPos) (hl : ¬ s.isLoading k) : t.seat k p = s.seat k p := by
    by_cases e : k = slot
    · rw [e]; exact hseat.resolve_left (e ▸ hl) p
    · unfold State.seat; rw [hne k e]
  refine ⟨fun n g hg p hp => ?_, fun n hn y hy ha l hl => ?_, fun k x hx => ?_, fun k x hl hx => ?_, ?_⟩
  · rw [hhold] at hg
    rw [found p (h.hold_not_loading hg hp)]
    exact h.holds n g hg p hp
  · rw [hsale] at hy
    rw [found _ (h.sale_not_loading hy ha hl)]
    exact h.sales n hn y hy ha l hl
  · rw [hlists]
    by_cases e : k = slot
    · subst e
      rcases hnew x hx with hu | ⟨hx, _⟩
      · exact ownerListsSeat_of_unowned hu
      · exact h.listed k x hx
    · unfold State.stands at hx
      rw [hne k e] at hx
      exact h.listed k x hx
  · by_cases e : k = slot
    · subst e
      rcases hnew x hx with hu | ⟨_, hno⟩
      · exact hu
      · exact absurd hl hno
    · unfold State.stands at hx
      unfold State.isLoading at hl
      rw [hne k e] at hx hl
      exact h.loading k x hl hx
  · rw [hhold]; exact h.oneSlot

theorem find_of_mem {α : Type} {t : Tbl α} (hw : t.wf = true) {n : Nat} {v : α} (h : (n, v) ∈ t) : t.find n = some v := by
  rw [Tbl.wf_iff] at hw
  induction hw with
  | nil => cases h
  | @cons e t hlt _ ih =>
    rcases List.mem_cons.mp h with rfl | h
    · simp [Tbl.find]
    · have hne : e.1 ≠ n := (hlt (n, v) h).ne
      simp [Tbl.find, hne, ih h]

theorem find_filter {α : Type} {t : Tbl α} (hw : t.wf = true) (p : Nat × α → Bool) (n : Nat) :
    Tbl.find (t.filter p) n = (t.find n).filter (fun v => p (n, v)) := by
  ext v
  rw [Option.filter_eq_some_iff]
  constructor
  · intro h
    obtain ⟨hm, hp⟩ := List.mem_filter.mp (Tbl.find_mem h)
    exact ⟨find_of_mem hw hm, hp⟩
  · rintro ⟨h, hp⟩
    exact find_of_mem (Tbl.wf_filter hw p) (List.mem_filter.mpr ⟨Tbl.find_mem h, hp⟩)

/-- The retirement of a slot that no hold lists frees the sales of its seats (R10). -/
theorem SeatCore.retire {s : State} {slot : Nat} (h : SeatCore none s) (hw : s.sales.wf = true) (hholds : s.holdsIn slot = 0)
    (vs : Tbl Voucher) : SeatCore none (delScreening slot { s with
      sales := s.sales.filter (fun e => !s.retires slot e.2.slot), vouchers := vs }) := by
  generalize ht : delScreening slot { s with
      sales := s.sales.filter (fun e => !s.retires slot e.2.slot), vouchers := vs } = t
  have hhold : t.hold = s.hold := by subst ht; rfl
  have hsale (n : Nat) (y : Sale) : t.sale n = some y ↔ s.sale n = some y ∧ s.retires slot y.slot = false := by
    subst ht
    show Tbl.find (s.sales.filter _) n = some y ↔ _
    rw [find_filter hw, Option.filter_eq_some_iff]
    simp [State.sale]
  have hscreen (k : Nat) : t.screening k = if k = slot then none else s.screening k := by
    subst ht; exact screening_delScreening k slot _
  have hseat {k : Nat} (p : SeatPos) (hk : k ≠ slot) : t.seat k p = s.seat k p := by
    unfold State.seat; rw [hscreen, if_neg hk]
  have hstands {k : Nat} {x : Seat} (hx : t.stands k x) : k ≠ slot ∧ s.stands k x := by
    obtain ⟨sc, hsc, hx⟩ := hx
    rw [hscreen] at hsc
    split at hsc
    · cases hsc
    · next hk => exact ⟨hk, sc, hsc, hx⟩
  have hno {n : Nat} {g : Hold} (hg : s.hold n = some g) : g.slot ≠ slot := by
    have := List.countP_eq_zero.mp hholds (n, g) (Tbl.find_mem hg)
    simpa using this
  refine ⟨fun n g hg p hp => ?_, fun n hn y hy ha l hl => ?_, fun k x hx => ?_, fun k x hl hx => ?_, ?_⟩
  · rw [hhold] at hg
    rw [hseat p (hno hg)]
    exact h.holds n g hg p hp
  · obtain ⟨hy, hstay⟩ := (hsale n y).mp hy
    obtain ⟨hslot, hfound⟩ := h.sales n hn y hy ha l hl
    rw [hslot] at hstay
    rw [hseat _ (by simpa [State.retires] using hstay)]
    exact ⟨hslot, hfound⟩
  · obtain ⟨hk, hx⟩ := hstands hx
    refine (ownerListsSeat_iff ..).mpr ⟨fun n hn => by rw [hhold]; exact h.hold_of_seat hx hn, fun n hn => ?_⟩
    obtain ⟨y, hy, ha, l, hl, hr⟩ := h.sale_of_seat hx hn
    obtain ⟨hslot, _⟩ := h.sales n nofun y hy ha l hl
    refine ⟨y, (hsale n y).mpr ⟨hy, ?_⟩, ha, l, hl, hr⟩
    rw [hslot, hr]
    simpa [State.retires] using hk
  · obtain ⟨hk, hx⟩ := hstands hx
    unfold State.isLoading at hl
    rw [hscreen, if_neg hk] at hl
    exact h.loading k x hl hx
  · rw [hhold]; exact h.oneSlot

/-! ### Phases of holds (R38) -/

/-- The holds of a state after some changed phase: owner, slot and seats stay, and none begins or ends to gather. -/
structure HoldsAlike (s t : State) : Prop where
  back : ∀ n h, t.hold n = some h → ∃ g, s.hold n = some g ∧ g.owner = h.owner ∧ g.slot = h.slot ∧ g.seats = h.seats ∧
    (g.phase = .gathering ↔ h.phase = .gathering)
  forth : ∀ n g, s.hold n = some g → ∃ h, t.hold n = some h ∧ g.owner = h.owner ∧ g.slot = h.slot ∧ g.seats = h.seats ∧
    (g.phase = .gathering ↔ h.phase = .gathering)

theorem SeatCore.of_alike {out : Option Nat} {s t : State} (h : SeatCore out s) (hh : HoldsAlike s t)
    (h1 : t.screenings = s.screenings) (h3 : t.sales = s.sales) : SeatCore out t := by
  have e1 : t.screening = s.screening := by funext k; unfold State.screening; rw [h1]
  have e3 : t.sale = s.sale := by funext n; unfold State.sale; rw [h3]
  have e4 : t.seat = s.seat := by funext k p; unfold State.seat; rw [e1]
  have e5 : t.stands = s.stands := by funext k x; unfold State.stands; rw [e1]
  have e6 : t.isLoading = s.isLoading := by funext k; unfold State.isLoading; rw [e1]
  refine ⟨fun n g hg p hp => ?_, fun n hn => ?_, fun k x hx => ?_, ?_, fun st m n g k hg hk ho ho' => ?_⟩
  · obtain ⟨g', hg', _, hslot, hseats, hph⟩ := hh.back n g hg
    obtain ⟨x, hx, hs⟩ := h.holds n g' hg' p (hseats ▸ hp)
    simp only [hph] at hs
    exact ⟨x, by rw [e4, ← hslot, hx], hs⟩
  · unfold SaleOwnsSeats; rw [e3, e4]; exact h.sales n hn
  · rw [e5] at hx
    refine (ownerListsSeat_iff ..).mpr ⟨fun n hn => ?_, fun n hn => by rw [e3]; exact h.sale_of_seat hx hn⟩
    obtain ⟨g, hg, hslot, hp⟩ := h.hold_of_seat hx hn
    obtain ⟨g', hg', _, hslot', hseats, _⟩ := hh.forth n g hg
    exact ⟨g', hg', hslot'.symm.trans hslot, hseats ▸ hp⟩
  · rw [e5, e6]; exact h.loading
  · obtain ⟨g', hg', hgo, hgs, _⟩ := hh.back m g hg
    obtain ⟨k', hk', hko, hks, _⟩ := hh.back n k hk
    rw [← hgs, ← hks]
    exact h.oneSlot st m n g' k' hg' hk' (hgo.trans ho) (hko.trans ho')

end Sys2Proof.Machine
end

section
/-! Baskets and the holds they list, and the whole agreement of seats, holds, sales and baskets under the shared operations (R46,
R48, R58, R62, R94, R112, R114). -/

namespace Sys2Proof.Machine

/-! ### The agreement of one basket -/

/-- A basket lists holds of its station that do not gather, its seat lines are their seats, and its summary lists the seat lines. -/
structure BasketAgrees (s : State) (st : Station) : Prop where
  own : ∀ n ∈ (s.basket st).holds, ∃ h, s.hold n = some h ∧ h.owner = .station st ∧ h.phase ≠ .gathering
  lines : ∀ r, (∃ l ∈ (s.basket st).seatLines, l.ref = r) ↔
    ∃ n ∈ (s.basket st).holds, ∃ h, s.hold n = some h ∧ h.slot = r.slot ∧ refPos r ∈ h.seats
  summary : ∀ m, (s.basket st).summary = some m → m.seats.map (·.ref) = (s.basket st).seatLines.map (·.ref)

theorem basketsListHolds_iff (s : State) : BasketsListHolds s ↔ (∀ st, BasketAgrees s st) ∧ PaymentsPriced s :=
  ⟨fun h => ⟨fun st => ⟨(h st).1, (h st).2.1, (h st).2.2.1⟩, fun st p => (h st).2.2.2 p⟩,
    fun h st => ⟨(h.1 st).own, (h.1 st).lines, (h.1 st).summary, fun p => h.2 st p⟩⟩

theorem basketAgrees_of_vacant {s : State} {st : Station} (h : s.basket st = Basket.vacant) : BasketAgrees s st := by
  constructor <;> rw [h]
  · exact fun n hn => nomatch hn
  · exact fun r => ⟨fun ⟨_, h, _⟩ => (nomatch h), fun ⟨_, h, _⟩ => (nomatch h)⟩
  · exact fun m hm => nomatch hm

/-- The station's holds that do not gather stay so, each with its owner, slot and seats. -/
def HoldsStay (st : Station) (s t : State) : Prop :=
  ∀ n g, s.hold n = some g → g.owner = .station st → g.phase ≠ .gathering →
    ∃ h, t.hold n = some h ∧ h.owner = g.owner ∧ h.slot = g.slot ∧ h.seats = g.seats ∧ h.phase ≠ .gathering

theorem holdsStay_of_same {s t : State} (h : t.holds = s.holds) (st : Station) : HoldsStay st s t := fun n g hg _ hp =>
  ⟨g, by unfold State.hold; rw [h]; exact hg, rfl, rfl, rfl, hp⟩

theorem holdsStay_of_alike {s t : State} (h : HoldsAlike s t) (st : Station) : HoldsStay st s t := by
  intro n g hg _ hp
  obtain ⟨k, hk, ho, hs, hl, hph⟩ := h.forth n g hg
  exact ⟨k, hk, ho.symm, hs.symm, hl.symm, fun e => hp (hph.mpr e)⟩

/-- Which seats the holds of a list have, when they stay. -/
theorem BasketAgrees.seats_stay {s t : State} {st : Station} (h : BasketAgrees s st) (hs : HoldsStay st s t) (r : SeatRef) :
    (∃ n ∈ (s.basket st).holds, ∃ g, t.hold n = some g ∧ g.slot = r.slot ∧ refPos r ∈ g.seats) ↔
    ∃ n ∈ (s.basket st).holds, ∃ g, s.hold n = some g ∧ g.slot = r.slot ∧ refPos r ∈ g.seats := by
  refine exists_congr fun n => and_congr_right fun hn => ?_
  obtain ⟨g, hg, ho, hp⟩ := h.own n hn
  obtain ⟨k, hk, _, hslot, hseats, _⟩ := hs n g hg ho hp
  simp [hg, hk, hslot, hseats]

/-- A basket edited while the holds it lists stay. -/
theorem BasketAgrees.edit {s t : State} {st : Station} (h : BasketAgrees s st) (hs : HoldsStay st s t)
    (hholds : (t.basket st).holds = (s.basket st).holds)
    (hlines : (t.basket st).seatLines.map (·.ref) = (s.basket st).seatLines.map (·.ref))
    (hsummary : ∀ m, (t.basket st).summary = some m →
      (s.basket st).summary = some m ∨ m.seats.map (·.ref) = (t.basket st).seatLines.map (·.ref)) : BasketAgrees t st where
  own n hn := by
    obtain ⟨g, hg, ho, hp⟩ := h.own n (hholds ▸ hn)
    obtain ⟨k, hk, ho', _, _, hp'⟩ := hs n g hg ho hp
    exact ⟨k, hk, ho'.trans ho, hp'⟩
  lines r := by
    rw [hholds, h.seats_stay hs, ← h.lines, ← List.mem_map, ← List.mem_map, hlines]
  summary m hm := by
    rcases hsummary m hm with hm | hm
    · rw [hlines]; exact h.summary m hm
    · exact hm

theorem BasketAgrees.kept {s t : State} {st : Station} (h : BasketAgrees s st) (hs : HoldsStay st s t)
    (hb : t.basket st = s.basket st) : BasketAgrees t st :=
  h.edit hs (by rw [hb]) (by rw [hb]) (fun m hm => .inl (by rwa [hb] at hm))

/-! ### The whole agreement -/

/-- Seats, holds, sales and baskets agree. -/
structure OwnersAgree (s : State) : Prop where
  core : SeatCore none s
  baskets : ∀ st, BasketAgrees s st

theorem OwnersAgree.congr {s t : State} (h : OwnersAgree s) (h1 : t.screenings = s.screenings) (h2 : t.holds = s.holds)
    (h3 : t.sales = s.sales) (h4 : t.baskets = s.baskets) : OwnersAgree t where
  core := h.core.congr h1 h2 h3
  baskets st := (h.baskets st).kept (holdsStay_of_same h2 st) (by unfold State.basket; rw [h4])

/-- Baskets and holds stay, and the seats agree. -/
theorem OwnersAgree.of_core {s t : State} (h : OwnersAgree s) (hc : SeatCore none t) (h2 : t.holds = s.holds)
    (h4 : t.baskets = s.baskets) : OwnersAgree t :=
  ⟨hc, fun st => (h.baskets st).kept (holdsStay_of_same h2 st) (by unfold State.basket; rw [h4])⟩

theorem OwnersAgree.emit {s : State} (h : OwnersAgree s) (l : Line) (r : OutRec) : OwnersAgree (emit l r s) := by
  rw [emit_frame]; exact h.congr rfl rfl rfl rfl

/-- One basket is edited. -/
theorem OwnersAgree.edit {s : State} (h : OwnersAgree s) {st : Station} {b : Basket} (hholds : b.holds = (s.basket st).holds)
    (hlines : b.seatLines.map (·.ref) = (s.basket st).seatLines.map (·.ref))
    (hsummary : ∀ m, b.summary = some m →
      (s.basket st).summary = some m ∨ m.seats.map (·.ref) = b.seatLines.map (·.ref)) : OwnersAgree (setBasket st b s) where
  core := h.core.congr rfl rfl rfl
  baskets st' := by
    by_cases e : st' = st
    · subst e
      refine (h.baskets st').edit (holdsStay_of_same rfl st') ?_ ?_ ?_ <;> rw [basket_setBasket]
      exacts [hholds, hlines, hsummary]
    · exact (h.baskets st').kept (holdsStay_of_same rfl st') (basket_setBasket_ne e b s)

/-- A basket loses its summary, and nothing else of the agreement. -/
theorem OwnersAgree.unprice {s : State} (h : OwnersAgree s) {st : Station} {f : Basket → Basket} (hholds : ∀ b, (f b).holds = b.holds)
    (hlines : ∀ b, (f b).seatLines = b.seatLines) (hsummary : ∀ b, (f b).summary = none) : OwnersAgree (modifyBasket st f s) :=
  h.edit (hholds _) (by rw [hlines]) (fun m hm => by rw [hsummary] at hm; cases hm)

theorem OwnersAgree.basketChange {s : State} (h : OwnersAgree s) (st : Station) : OwnersAgree (basketChange st s) :=
  h.unprice (fun _ => rfl) (fun _ => rfl) (fun _ => rfl)

/-! ### Emptying -/

/-- Holds freed, one basket made vacant: the other baskets stay when none of theirs was freed. -/
theorem holdsStay_of_freed {s t : State} {l : List Nat} (h : ∀ m, t.hold m = if m ∈ l then none else s.hold m) {st st' : Station}
    (hl : ∀ n ∈ l, ∀ g, s.hold n = some g → g.owner = .station st) (hne : st' ≠ st) : HoldsStay st' s t := by
  intro n g hg ho hp
  have hout : n ∉ l := by
    intro hn
    have := (hl n hn g hg).symm.trans ho
    exact hne (Owner.station.inj this).symm
  exact ⟨g, by rw [h, if_neg hout, hg], rfl, rfl, rfl, hp⟩

theorem returned_frame (l : List SnackLine) (s : State) :
    l.foldl (fun s x => returnUnits x.item x.qty s) s = { s with
      items := (l.foldl (fun s x => returnUnits x.item x.qty s) s).items,
      lines := (l.foldl (fun s x => returnUnits x.item x.qty s) s).lines } :=
  (foldl_frame _ (fun s t => { s with items := t.items, lines := t.lines })
    (fun s x => (returnUnits_frame x.item x.qty s).symm) (fun _ => rfl) (by rintro s t u h1 h2; rw [← h2, ← h1]) l s).symm

/-- The station's basket is emptied where the seats and every other basket agree, and it lists holds of the station alone (R35). -/
theorem ownersAgree_emptyBasket {s : State} {st : Station} (hc : SeatCore none s) (hw : s.holds.wf = true)
    (hown : ∀ n ∈ (s.basket st).holds, ∀ g, s.hold n = some g → g.owner = .station st)
    (hb : ∀ st', st' ≠ st → BasketAgrees s st') : OwnersAgree (emptyBasket st s) := by
  have hreleased : ∀ n ∈ s.holdsToRelease st, ∀ g, s.hold n = some g → g.owner = .station st := by
    intro n hn g hg
    rcases List.mem_append.mp hn with hn | hn
    · exact hown n hn g hg
    · obtain ⟨⟨m, k⟩, hk, rfl⟩ := Option.map_eq_some_iff.mp (Option.mem_toList.mp hn)
      obtain ⟨hmem, ho, _⟩ := gathering_mem hk
      rw [show s.hold m = some k from find_of_mem hw hmem] at hg; cases hg; exact ho
  unfold Machine.emptyBasket
  dsimp only
  rw [returned_frame]
  have hc := hc.releases (s.holdsToRelease st)
  have hhold := fun m => hold_releaseHolds m (s.holdsToRelease st) s
  have hbaskets : ((s.holdsToRelease st).foldl (fun s n => releaseHold n s) s).baskets = s.baskets :=
    foldl_keeps (·.baskets) _ (fun s n => by rw [releaseHold_frame]) _ _
  generalize (s.holdsToRelease st).foldl (fun s n => releaseHold n s) s = t at *
  refine ⟨hc.congr rfl rfl rfl, fun st' => ?_⟩
  by_cases e : st' = st
  · subst e; exact basketAgrees_of_vacant (basket_setBasket ..)
  · refine (hb st' e).kept (t := setBasket st Basket.vacant _) (holdsStay_of_freed hhold hreleased e) ?_
    rw [basket_setBasket_ne e]
    unfold State.basket
    rw [hbaskets]

theorem BasketAgrees.owned {s : State} {st : Station} (h : BasketAgrees s st) {n : Nat} (hn : n ∈ (s.basket st).holds) {g : Hold}
    (hg : s.hold n = some g) : g.owner = .station st := by
  obtain ⟨k, hk, ho, _⟩ := h.own n hn
  rw [hg] at hk; cases hk; exact ho

theorem OwnersAgree.emptyBasket {s : State} (h : OwnersAgree s) (hw : s.holds.wf = true) (st : Station) :
    OwnersAgree (emptyBasket st s) :=
  ownersAgree_emptyBasket h.core hw (fun _ hn _ hg => (h.baskets st).owned hn hg) (fun st' _ => h.baskets st')

/-! ### The end of a payment -/

/-- The phases that a payment gives to the holds of its basket do not gather (R38). -/
theorem BasketAgrees.alike_setHoldPhases {s : State} {st : Station} (h : BasketAgrees s st) {ph : HoldPhase} (hph : ph ≠ .gathering) :
    HoldsAlike s (setHoldPhases st ph s) := by
  constructor
  · intro n k hk
    rw [hold_setHoldPhases] at hk
    split at hk
    · next hn =>
      obtain ⟨g, hg, _, hp⟩ := h.own n hn
      rw [hg] at hk; cases hk
      exact ⟨g, hg, rfl, rfl, rfl, iff_of_false hp hph⟩
    · exact ⟨k, hk, rfl, rfl, rfl, .rfl⟩
  · intro n g hg
    rw [hold_setHoldPhases]
    split
    · next hn =>
      obtain ⟨g', hg', _, hp⟩ := h.own n hn
      rw [hg] at hg'; cases hg'
      exact ⟨{ g with phase := ph }, by rw [hg]; rfl, rfl, rfl, rfl, iff_of_false hp hph⟩
    · exact ⟨g, hg, rfl, rfl, rfl, .rfl⟩

theorem OwnersAgree.of_alike {s t : State} (h : OwnersAgree s) (hh : HoldsAlike s t) (h1 : t.screenings = s.screenings)
    (h3 : t.sales = s.sales) (h4 : t.baskets = s.baskets) : OwnersAgree t :=
  ⟨h.core.of_alike hh h1 h3, fun st => (h.baskets st).kept (holdsStay_of_alike hh st) (by unfold State.basket; rw [h4])⟩

theorem OwnersAgree.setHoldPhases {s : State} (h : OwnersAgree s) (st : Station) {ph : HoldPhase} (hph : ph ≠ .gathering) :
    OwnersAgree (setHoldPhases st ph s) :=
  h.of_alike ((h.baskets st).alike_setHoldPhases hph) (by rw [setHoldPhases_frame]) (by rw [setHoldPhases_frame])
    (by rw [setHoldPhases_frame])

theorem OwnersAgree.settleBasket {s : State} (h : OwnersAgree s) (hw : s.holds.wf = true) (st : Station) :
    OwnersAgree (settleBasket st s) := by
  unfold Machine.settleBasket
  dsimp only
  split
  · exact (h.emptyBasket hw st).emit _ _
  · split
    · exact h.emptyBasket hw st
    · split
      · exact OwnersAgree.emit (h.unprice (f := fun b => { b with summary := none, stale := true, payLoad := none })
          (fun _ => rfl) (fun _ => rfl) (fun _ => rfl)) _ _
      · exact h

theorem OwnersAgree.endWithoutSale {s : State} (h : OwnersAgree s) (hw : s.holds.wf = true) (st : Station) (p : Payment)
    (o : Option PayOutcome) : OwnersAgree (endWithoutSale st p o s) := by
  have released : OwnersAgree (releaseReservations st p s) := by
    rw [releaseReservations_frame]; exact h.congr rfl rfl rfl rfl
  have hwr : (releaseReservations st p s).holds.wf = true := (tended_releaseReservations st p s).holds hw
  have attempts {u : State} (hu : OwnersAgree u) (hwu : u.holds.wf = true) :
      let v := if p.asked then modifyBasket st (fun b => { b with attempts := b.attempts + 1 }) u else u
      OwnersAgree v ∧ v.holds.wf = true := by
    dsimp only
    split
    · exact ⟨hu.edit rfl rfl (fun _ hm => .inl hm), hwu⟩
    · exact ⟨hu, hwu⟩
  unfold Machine.endWithoutSale
  dsimp only
  obtain ⟨ha, hwa⟩ := attempts released hwr
  have settled := (ha.setHoldPhases st (ph := .standing) (by decide)).settleBasket
    ((tended_setHoldPhases st (by decide) _).holds hwa) st
  rw [tellOutcome_frame]
  exact settled.congr rfl rfl rfl rfl

theorem OwnersAgree.reverseAndEnd {s : State} (h : OwnersAgree s) (hw : s.holds.wf = true) (st : Station) (p : Payment) (c : Bool)
    (r : ReversalReason) (o : Option PayOutcome) : OwnersAgree (reverseAndEnd st p c r o s) :=
  OwnersAgree.endWithoutSale (h.congr (t := writeReserved ..) rfl rfl rfl rfl) hw st _ o

theorem OwnersAgree.modifySale {s : State} (h : OwnersAgree s) {n : Nat} {f : Sale → Sale} (hslot : ∀ y, (f y).slot = y.slot)
    (hseats : ∀ y, (f y).seats = y.seats) (hstate : ∀ y, (f y).state = y.state) : OwnersAgree (modifySale n f s) :=
  h.of_core (h.core.modifySale hslot hseats hstate) (by rw [modifySale_frame]) (by rw [modifySale_frame])

theorem OwnersAgree.endCapture {s : State} (h : OwnersAgree s) (st : Station) (p : Payment) (c : CaptureState) :
    OwnersAgree (endCapture st p c s) := by
  unfold Machine.endCapture
  split
  · rw [releaseReservations_frame]; exact h.congr rfl rfl rfl rfl
  · next n x hx =>
    have hsale : s.sale n = some x := by
      obtain ⟨k, _, hk⟩ := Option.bind_eq_some_iff.mp hx
      obtain ⟨y, hy, e⟩ := Option.map_eq_some_iff.mp hk
      cases e; exact hy
    exact (h.of_core (h.core.amend (z := { x with capture := c }) hsale rfl rfl rfl) rfl rfl).congr rfl rfl rfl rfl

end Sys2Proof.Machine
end

section
/-! Holds that are made, join and leave baskets, and are sold; refunds: seats, holds, sales and baskets agree after each (R24, R32, R34,
R41, R112, R114, R117). -/

namespace Sys2Proof.Machine

/-! ### Holds made (R25, R41) -/

theorem not_isLoading_of_opened {s : State} {slot : Nat} (h : s.slotState slot = .opened) : ¬ s.isLoading slot := by
  rintro ⟨sc, hsc, hl⟩
  simp [State.slotState, hsc, hl] at h

/-- The holds beside one that is put in a free record, or in the place of one that gathers. -/
theorem holdsStay_of_put {s t : State} {n : Nat} {g : Hold} (h : ∀ m, m ≠ n → t.hold m = s.hold m)
    (hn : s.hold n = none ∨ ∃ k, s.hold n = some k ∧ k.phase = .gathering) (st : Station) (ht : t.hold n = some g) :
    HoldsStay st s t := by
  intro m k hk ho hp
  have hne : m ≠ n := by
    rintro rfl
    rcases hn with hn | ⟨k', hk', hp'⟩
    · rw [hn] at hk; cases hk
    · rw [hk] at hk'; cases hk'; exact hp hp'
  exact ⟨k, by rw [h m hne, hk], rfl, rfl, rfl, hp⟩

theorem OwnersAgree.claim {s : State} (hs : OwnersAgree s) (hw : s.holds.wf = true) {st : Station} {n : Nat} {h : Hold} {r : SeatRef}
    {x : Seat} {w : Option Deadline} (hopen : s.slotState r.slot = .opened) (hx : s.seat r.slot (refPos r) = some x)
    (hfree : x.state = .free) (hone : ∀ e ∈ s.holds, e.2.owner = .station st → e.2.slot = r.slot)
    (hn : ((n, h) ∈ s.holds ∧ h.owner = .station st ∧ h.phase = .gathering) ∨ (s.hold n = none ∧ h = newHold st r.slot)) :
    OwnersAgree (putHold n { h with seats := h.seats ++ [refPos r], window := w }
      (mapSeats r.slot [refPos r] (fun x => { x with state := .pending n }) s)) := by
  have hown : h.owner = .station st ∧ h.phase = .gathering ∧ h.slot = r.slot := by
    rcases hn with ⟨hm, ho, hp⟩ | ⟨_, rfl⟩
    · exact ⟨ho, hp, hone _ hm ho⟩
    · exact ⟨rfl, rfl, rfl⟩
  obtain ⟨ho, hp, hslot⟩ := hown
  have hbefore : s.hold n = none ∧ h.seats = [] ∨ s.hold n = some h := by
    rcases hn with ⟨hm, _⟩ | ⟨hno, rfl⟩
    · exact .inr (find_of_mem hw hm)
    · exact .inl ⟨hno, rfl⟩
  rw [← hslot] at hx hone hopen
  rw [show r.slot = ({ h with seats := h.seats ++ [refPos r], window := w } : Hold).slot from hslot.symm]
  refine ⟨hs.core.assign (if_pos hp).symm ?_ ?_ ?_ ?_ (fun _ _ => not_isLoading_of_opened hopen) ?_, fun st' => ?_⟩
  · intro p hpr
    rw [List.mem_singleton.mp hpr]
    exact ⟨x, hx, .inl (.inl hfree)⟩
  · intro p hpin hout
    have hpin : p ∈ h.seats := (List.mem_append.mp hpin).resolve_right hout
    rcases hbefore with ⟨_, he⟩ | hh
    · rw [he] at hpin; cases hpin
    · obtain ⟨y, hy, hstate⟩ := hs.core.holds n h hh p hpin
      exact ⟨y, hy, hstate.trans (if_pos hp)⟩
  · exact fun p hpr => List.mem_append_right _ hpr
  · intro k hk
    rcases hbefore with ⟨hno, _⟩ | hh
    · rw [hno] at hk; cases hk
    · rw [hh] at hk; cases hk
      exact ⟨rfl, fun p hpk => List.mem_append_left _ hpk⟩
  · intro st' m k hk hko hgo
    have : st' = st := Owner.station.inj (hgo.symm.trans ho)
    exact hone _ (Tbl.find_mem hk) (this ▸ hko)
  · refine (hs.baskets st').kept (holdsStay_of_put (fun m hm => by rw [hold_putHold_ne hm, hold_mapSeats]) ?_ st' (hold_putHold ..))
      (basket_mapSeats ..)
    rcases hbefore with ⟨hno, _⟩ | hh
    · exact .inl hno
    · exact .inr ⟨h, hh, hp⟩

theorem OwnersAgree.siteHold {s : State} (hs : OwnersAgree s) {n : Nat} {h : Hold} {sc : Screening} (hn : s.hold n = none)
    (howner : h.owner = .site) (hphase : h.phase = .standing) (hsc : s.screening h.slot = some sc) (hopen : sc.phase = .opened)
    (hfree : ∀ p ∈ h.seats, ∃ x, sc.seat p = some x ∧ x.state = .free) :
    OwnersAgree (putHold n h (mapSeats h.slot h.seats (fun x => { x with state := .held n }) s)) := by
  have hslot : s.slotState h.slot = .opened := by simp [State.slotState, hsc, hopen]
  refine ⟨hs.core.assign (by rw [hphase]; rfl) ?_ (fun p hp hout => absurd hp hout) (fun p hp => hp) ?_
    (fun _ _ => not_isLoading_of_opened hslot) ?_, fun st => ?_⟩
  · intro p hp
    obtain ⟨x, hx, hf⟩ := hfree p hp
    exact ⟨x, by simp [State.seat, hsc, hx], .inl (.inl hf)⟩
  · intro k hk; rw [hn] at hk; cases hk
  · intro st m k _ _ ho; rw [howner] at ho; cases ho
  · exact (hs.baskets st).kept (holdsStay_of_put (fun m hm => by rw [hold_putHold_ne hm, hold_mapSeats]) (.inl hn) st (hold_putHold ..))
      (basket_mapSeats ..)

/-! ### A hold joins its basket (R32, R48) -/

theorem basket_joinBasket (st : Station) (n : Nat) (h : Hold) (s : State) :
    ((joinBasket st n h s).basket st).holds = (s.basket st).holds ++ [n] ∧
      ((joinBasket st n h s).basket st).seatLines = (s.basket st).seatLines ++ s.linesOf h ∧
      ((joinBasket st n h s).basket st).summary = none := by
  unfold joinBasket basketGains
  split <;> simp [basketOpens, basketChange, modifyBasket]

theorem basket_joinBasket_ne {st st' : Station} (hne : st' ≠ st) (n : Nat) (h : Hold) (s : State) :
    (joinBasket st n h s).basket st' = s.basket st' :=
  (basket_of_set (congrArg State.baskets (joinBasket_frame st n h s))).2 st' hne

/-- The references of the seat lines a hold brings are its seats. -/
theorem mem_linesOf {s : State} {h : Hold} {r : SeatRef} : (∃ l ∈ s.linesOf h, l.ref = r) ↔ h.slot = r.slot ∧ refPos r ∈ h.seats := by
  unfold State.linesOf
  constructor
  · rintro ⟨l, hl, rfl⟩
    obtain ⟨p, hp, rfl⟩ := List.mem_map.mp hl
    exact ⟨rfl, hp⟩
  · rintro ⟨hslot, hp⟩
    exact ⟨_, List.mem_map.mpr ⟨refPos r, hp, rfl⟩, by rw [hslot]; rfl⟩

theorem BasketAgrees.join {s u : State} {st : Station} {n : Nat} {h g : Hold} (hs : BasketAgrees s st) (hstay : HoldsStay st s u)
    (hb : u.basket st = s.basket st) (hg : u.hold n = some g) (ho : g.owner = .station st) (hp : g.phase ≠ .gathering)
    (hslot : g.slot = h.slot) (hseats : g.seats = h.seats) : BasketAgrees (joinBasket st n h u) st := by
  obtain ⟨hholds, hlines, hsummary⟩ := basket_joinBasket st n h u
  have hhold : (joinBasket st n h u).hold = u.hold := by rw [joinBasket_frame]; rfl
  refine ⟨fun m hm => ?_, fun r => ?_, fun m hm => by rw [hsummary] at hm; cases hm⟩
  · rw [hholds, hb] at hm
    rw [hhold]
    rcases List.mem_append.mp hm with hm | hm
    · obtain ⟨k, hk, hko, hkp⟩ := hs.own m hm
      obtain ⟨k', hk', hko', _, _, hkp'⟩ := hstay m k hk hko hkp
      exact ⟨k', hk', hko'.trans hko, hkp'⟩
    · rw [List.mem_singleton.mp hm]
      exact ⟨g, hg, ho, hp⟩
  · have hnew : (∃ m ∈ [n], ∃ k, u.hold m = some k ∧ k.slot = r.slot ∧ refPos r ∈ k.seats) ↔ ∃ l ∈ u.linesOf h, l.ref = r := by
      rw [mem_linesOf, ← hslot, ← hseats]
      simp [hg]
    rw [hholds, hlines, hhold, hb]
    simp only [List.mem_append, or_and_right, exists_or]
    rw [hnew, hs.lines, hs.seats_stay hstay]

theorem OwnersAgree.close {s : State} (hs : OwnersAgree s) (hw : s.holds.wf = true) {st : Station} {n : Nat} {h : Hold}
    (hn : (n, h) ∈ s.holds) (howner : h.owner = .station st) (hphase : h.phase = .gathering) :
    OwnersAgree (joinBasket st n h (putHold n { h with phase := .standing, window := none }
      (mapSeats h.slot h.seats (fun x => { x with state := .held n }) s))) := by
  have hh : s.hold n = some h := find_of_mem hw hn
  have hc := hs.core.assign (n := n) (g := { h with phase := .standing, window := none }) (ps := h.seats) (σ := .held n) rfl
    (fun p hp => (hs.core.seat_of_hold hh hp).imp fun x hx => ⟨hx.1, .inr hx.2⟩) (fun p hp hout => absurd hp hout) (fun p hp => hp)
    (fun k hk => by rw [hh] at hk; cases hk; exact ⟨rfl, fun _ => id⟩)
    (fun _ hp => show ¬ s.isLoading h.slot from hs.core.hold_not_loading hh hp)
    (fun st' m k hk hko ho => hs.core.oneSlot st' m n k h hk hh hko ho)
  have hstay (st' : Station) : HoldsStay st' s (putHold n { h with phase := .standing, window := none }
      (mapSeats h.slot h.seats (fun x => { x with state := .held n }) s)) :=
    holdsStay_of_put (fun m hm => by rw [hold_putHold_ne hm, hold_mapSeats]) (.inr ⟨h, hh, hphase⟩) st' (hold_putHold ..)
  refine ⟨hc.congr ?_ ?_ ?_, fun st' => ?_⟩
  · rw [joinBasket_frame]
  · rw [joinBasket_frame]
  · rw [joinBasket_frame]
  · by_cases e : st' = st
    · subst e
      exact (hs.baskets st').join (hstay st') (basket_mapSeats ..) (hold_putHold ..) howner nofun rfl rfl
    · refine (hs.baskets st').kept (fun m k hk hko hkp => ?_) ((basket_joinBasket_ne e ..).trans (basket_mapSeats ..))
      obtain ⟨k', hk', hrest⟩ := hstay st' m k hk hko hkp
      exact ⟨k', by rw [joinBasket_frame]; exact hk', hrest⟩

/-! ### A hold leaves its basket (R34) -/

theorem OwnersAgree.release {s : State} (hs : OwnersAgree s) (hw : s.holds.wf = true) {n : Nat} {h : Hold} (hn : (n, h) ∈ s.holds)
    (hout : h.phase = .gathering ∨ h.owner = .site) : OwnersAgree (releaseHold n s) := by
  have hh : s.hold n = some h := find_of_mem hw hn
  refine ⟨hs.core.release n, fun st => (hs.baskets st).kept (fun m k hk ho hp => ?_) (by rw [releaseHold_frame]; rfl)⟩
  have hne : m ≠ n := by
    rintro rfl
    rw [hh] at hk; cases hk
    rcases hout with hp' | ho'
    · exact hp hp'
    · rw [ho'] at ho; cases ho
  exact ⟨k, by rw [hold_releaseHold, if_neg hne, hk], rfl, rfl, rfl, hp⟩

/-- A basket without a hold and the seat lines of its seats. -/
def Basket.without (n : Nat) (h : Hold) (b : Basket) : Basket :=
  { b with
    holds := b.holds.filter (fun m => m ≠ n),
    seatLines := b.seatLines.filter (fun l => !(decide (l.ref.slot = h.slot) && decide (refPos l.ref ∈ h.seats))) }

theorem leaveBasket_eq (st : Station) (n : Nat) (h : Hold) (s : State) :
    leaveBasket st n h s = basketLoses st (setBasket st ((s.basket st).without n h) s) := rfl

theorem mem_holds_without {n m : Nat} {h : Hold} {b : Basket} : m ∈ (b.without n h).holds ↔ m ∈ b.holds ∧ m ≠ n := by
  simp [Basket.without]

theorem mem_lines_without {n : Nat} {h : Hold} {b : Basket} {r : SeatRef} : (∃ l ∈ (b.without n h).seatLines, l.ref = r) ↔
    (∃ l ∈ b.seatLines, l.ref = r) ∧ ¬ (h.slot = r.slot ∧ refPos r ∈ h.seats) := by
  unfold Basket.without
  simp only [List.mem_filter]
  constructor
  · rintro ⟨l, ⟨hl, hkeep⟩, rfl⟩
    refine ⟨⟨l, hl, rfl⟩, fun ⟨hslot, hp⟩ => ?_⟩
    simp [hslot, hp] at hkeep
  · rintro ⟨⟨l, hl, rfl⟩, hout⟩
    refine ⟨l, ⟨hl, ?_⟩, rfl⟩
    by_contra hno
    have hno : l.ref.slot = h.slot ∧ refPos l.ref ∈ h.seats := by simpa using hno
    exact hout ⟨hno.1.symm, hno.2⟩

/-- A hold leaves, with the lines of its seats, while every other hold of the basket stays. -/
theorem BasketAgrees.leave {s t : State} {st : Station} {n : Nat} {h : Hold} (hs : BasketAgrees s st) (hc : SeatCore none s)
    (hn : s.hold n = some h) (hhold : ∀ m, m ≠ n → t.hold m = s.hold m)
    (hholds : (t.basket st).holds = ((s.basket st).without n h).holds)
    (hlines : (t.basket st).seatLines = ((s.basket st).without n h).seatLines) (hsummary : (t.basket st).summary = none) :
    BasketAgrees t st where
  own m hm := by
    rw [hholds] at hm
    obtain ⟨hm, hne⟩ := mem_holds_without.mp hm
    rw [hhold m hne]
    exact hs.own m hm
  lines r := by
    rw [hlines, mem_lines_without, hs.lines, hholds]
    constructor
    · rintro ⟨⟨m, hm, g, hg, hslot, hp⟩, hout⟩
      have hne : m ≠ n := by
        rintro rfl
        rw [hn] at hg; cases hg
        exact hout ⟨hslot, hp⟩
      exact ⟨m, mem_holds_without.mpr ⟨hm, hne⟩, g, (hhold m hne).trans hg, hslot, hp⟩
    · rintro ⟨m, hm, g, hg, hslot, hp⟩
      obtain ⟨hm, hne⟩ := mem_holds_without.mp hm
      have hg : s.hold m = some g := (hhold m hne).symm.trans hg
      exact ⟨⟨m, hm, g, hg, hslot, hp⟩, fun ⟨hslot', hp'⟩ => hne (hc.hold_unique hg hn (hslot.trans hslot'.symm) hp hp')⟩
  summary m hm := by rw [hsummary] at hm; cases hm

theorem OwnersAgree.drop {s : State} (hs : OwnersAgree s) (hw : s.holds.wf = true) {st : Station} {n : Nat} {h : Hold}
    (hn : s.hold n = some h) (howner : h.owner = .station st) : OwnersAgree (leaveBasket st n h (releaseHold n s)) := by
  have hhold (m : Nat) : (releaseHold n s).hold m = if m = n then none else s.hold m := hold_releaseHold m n s
  have hb (st' : Station) : (releaseHold n s).basket st' = s.basket st' := by rw [releaseHold_frame]; rfl
  have hc := hs.core.release n
  have hwu := (tended_releaseHold n s).holds hw
  have hothers (st' : Station) (hne : st' ≠ st) : HoldsStay st' s (releaseHold n s) :=
    holdsStay_of_freed (l := [n]) (fun m => by rw [hhold]; simp) (fun m hm g hg => by
      rw [List.mem_singleton.mp hm, hn] at hg; cases hg; exact howner) hne
  rw [leaveBasket_eq, hb]
  generalize releaseHold n s = u at *
  have hkept (m : Nat) (hm : m ≠ n) : u.hold m = s.hold m := (hhold m).trans (if_neg hm)
  have hother (st' : Station) (hne : st' ≠ st) : BasketAgrees (setBasket st ((s.basket st).without n h) u) st' :=
    (hs.baskets st').kept (hothers st' hne) ((basket_setBasket_ne hne _ u).trans (hb st'))
  unfold Machine.basketLoses
  split
  · refine ownersAgree_emptyBasket (hc.congr rfl rfl rfl) hwu (fun m hm g hg => ?_) hother
    rw [basket_setBasket] at hm
    obtain ⟨hm, hne⟩ := mem_holds_without.mp hm
    exact (hs.baskets st).owned hm ((hkept m hne).symm.trans hg)
  · refine ⟨hc.congr rfl rfl rfl, fun st' => ?_⟩
    by_cases e : st' = st
    · subst e
      refine (hs.baskets st').leave (t := Machine.basketChange st' _) hs.core hn hkept ?_ ?_ ?_ <;>
        simp [Machine.basketChange, modifyBasket]
    · exact (hother st' e).kept (t := Machine.basketChange st _) (holdsStay_of_same rfl st') (basket_setBasket_ne e ..)

end Sys2Proof.Machine
end

section
/-! Sales and refunds, and the settlement of O60: every move keeps seats, holds, sales and baskets agreed. -/

namespace Sys2Proof.Machine

/-! ### Sales entered (R112, R114) -/

theorem refs_saleSeats (s : State) (m : Summary) : (s.saleSeats m).map (·.ref) = m.seats.map (·.ref) := by
  have h : ∀ (l : List PricedSeat) (k : Nat), ((l.zipIdx k).map (fun e =>
      ({ ref := e.1.ref, cat := e.1.cat, label := s.labelOf m e.1.cat e.2, fare := e.1.fare, fee := e.1.fee,
         total := e.1.total, clamped := e.1.clamped } : SaleSeat))).map (·.ref) = l.map (·.ref) := by
    intro l
    induction l with
    | nil => intro k; rfl
    | cons a t ih => intro k; simp only [List.zipIdx_cons, List.map_cons, ih]
  exact h m.seats 0

theorem hold_enterSale_eq (k : Nat) (y : Sale) (m : Summary) (l : List Nat) (fromReserved : Bool) (s : State) (j : Nat) :
    (enterSale k y m l fromReserved s).hold j = if j ∈ l then none else s.hold j := by
  unfold Machine.enterSale
  dsimp only
  rw [modifySale_frame, createVouchers_frame]
  exact hold_sellHolds_eq k j l _

/-- A fresh sale takes the holds of a list, whose seats are its seats. -/
theorem seatCore_enterSale {s : State} (h : SeatCore none s) {k : Nat} (hk : s.sale k = none) {y : Sale} (ha : y.state = .active)
    {l : List Nat} (m : Summary) (fromReserved : Bool)
    (hrefs : ∀ r, (∃ x ∈ y.seats, x.ref = r) ↔ ∃ n ∈ l, ∃ g, s.hold n = some g ∧ g.slot = r.slot ∧ refPos r ∈ g.seats)
    (hslot : ∀ n ∈ l, ∀ g, s.hold n = some g → y.slot = some g.slot) : SeatCore none (enterSale k y m l fromReserved s) := by
  refine h.enterSale hk ha m fromReserved (fun n hn g hg p hp => ?_) (fun x hx => ?_)
  · exact (hrefs ⟨g.slot, p.row, p.num⟩).mpr ⟨n, hn, g, hg, rfl, hp⟩
  · obtain ⟨n, hn, g, hg, hgs, hp⟩ := (hrefs x.ref).mp ⟨x, hx, rfl⟩
    exact ⟨hgs ▸ hslot n hn g hg, n, hn, g, hg, hgs, hp⟩

theorem OwnersAgree.siteSell {s : State} (hs : OwnersAgree s) (hfresh : s.sale s.freshSale = none) {n : Nat} {h : Hold} {m : Summary}
    (hn : s.hold n = some h) (howner : h.owner = .site)
    (hm : m.seats.map (·.ref) = h.seats.map (fun p => ⟨h.slot, p.row, p.num⟩)) (tag : Tag) (ref : Chars 8) :
    OwnersAgree (takeSiteSell tag n h ref m s) := by
  have hrefs (r : SeatRef) : (∃ x ∈ s.saleSeats m, x.ref = r) ↔
      ∃ j ∈ [n], ∃ g, s.hold j = some g ∧ g.slot = r.slot ∧ refPos r ∈ g.seats := by
    rw [← List.mem_map, refs_saleSeats, hm, List.mem_map]
    simp only [List.mem_singleton, exists_eq_left, hn, Option.some.injEq, exists_eq_left']
    constructor
    · rintro ⟨p, hp, rfl⟩; exact ⟨rfl, hp⟩
    · rintro ⟨hslot, hp⟩; exact ⟨refPos r, hp, by rw [hslot]; rfl⟩
  have hc := seatCore_enterSale hs.core hfresh (y := saleOf s m .remote (some h.slot) none none .notApplicable (some ref)) rfl m
    false hrefs (fun j hj g hg => by rw [List.mem_singleton.mp hj, hn] at hg; cases hg; rfl)
  have hhold := hold_enterSale_eq s.freshSale (saleOf s m .remote (some h.slot) none none .notApplicable (some ref)) m [n] false s
  obtain ⟨_, _, hframe⟩ := enterSale_frame s.freshSale (saleOf s m .remote (some h.slot) none none .notApplicable (some ref)) m
    [n] false s
  have entered : OwnersAgree (enterSale s.freshSale (saleOf s m .remote (some h.slot) none none .notApplicable (some ref)) m [n]
      false s) := by
    refine ⟨hc, fun st => (hs.baskets st).kept (fun j g hg ho hp => ?_) (by rw [hframe]; rfl)⟩
    have hne : j ∉ [n] := by
      intro hj
      rw [List.mem_singleton.mp hj, hn] at hg; cases hg
      rw [howner] at ho; cases ho
    exact ⟨g, by rw [hhold, if_neg hne, hg], rfl, rfl, rfl, hp⟩
  unfold takeSiteSell
  dsimp only
  split
  · exact entered
  · exact OwnersAgree.emit (by rw [writeFree_frame]; exact entered.congr rfl rfl rfl rfl) _ _

theorem SeatCore.queueSale {s : State} (h : SeatCore none s) (st : Station) (n room : Nat) : SeatCore none (queueSale st n room s) := by
  unfold Machine.queueSale
  split
  · exact h
  · next x hx => exact (h.amend (z := { x with outstanding := (chainOf n x true).length }) hx rfl rfl rfl).congr rfl rfl rfl

theorem hold_queueSale (st : Station) (n room : Nat) (s : State) (j : Nat) : (queueSale st n room s).hold j = s.hold j := by
  unfold Machine.queueSale
  split <;> rfl

/-- The commit of a basket whose summary stands (R112). -/
theorem OwnersAgree.commit {s : State} (hs : OwnersAgree s) (hfresh : s.sale s.freshSale = none) {st : Station}
    (hsome : (s.basket st).summary.isSome = true) (auth : Auth) (room : Nat) : OwnersAgree (commit st auth room s) := by
  obtain ⟨m, hm⟩ := Option.isSome_iff_exists.mp hsome
  have hb := hs.baskets st
  have hrefs (r : SeatRef) : (∃ x ∈ s.saleSeats m, x.ref = r) ↔
      ∃ j ∈ (s.basket st).holds, ∃ g, s.hold j = some g ∧ g.slot = r.slot ∧ refPos r ∈ g.seats := by
    rw [← List.mem_map, refs_saleSeats, hb.summary m hm, List.mem_map, hb.lines]
  have hslot : ∀ n ∈ (s.basket st).holds, ∀ g, s.hold n = some g → (s.stationSale st m auth).slot = some g.slot := by
    intro n hn g hg
    show (((s.basket st).holds.head?.bind s.hold).map (·.slot)) = some g.slot
    obtain ⟨j, t, hl⟩ := List.exists_cons_of_ne_nil (List.ne_nil_of_mem hn)
    have hj : j ∈ (s.basket st).holds := by rw [hl]; exact List.mem_cons_self
    obtain ⟨k, hk, hko, _⟩ := hb.own j hj
    simp [hl, hk, hs.core.oneSlot st j n k g hk hg hko (hb.owned hn hg)]
  have entered : SeatCore none (enterSale s.freshSale (s.stationSale st m auth) m (s.basket st).holds true
      { s with salesReserved := s.salesReserved - 1 }) :=
    seatCore_enterSale (s := { s with salesReserved := s.salesReserved - 1 }) (hs.core.congr rfl rfl rfl) hfresh rfl m true hrefs hslot
  obtain ⟨_, _, hframe⟩ := commit_frame st auth room s
  have hbaskets : (Machine.commit st auth room s).baskets = s.baskets.set st Basket.vacant := by rw [hframe]
  have hcommit : Machine.commit st auth room s = Machine.queueSale st s.freshSale room
      (Machine.enterSale s.freshSale (s.stationSale st m auth) m (s.basket st).holds true
        { s with salesReserved := s.salesReserved - 1 }) := by
    unfold Machine.commit; rw [hm]; rfl
  have hhold (j : Nat) : (Machine.commit st auth room s).hold j = if j ∈ (s.basket st).holds then none else s.hold j := by
    rw [hcommit, hold_queueSale, hold_enterSale_eq]; rfl
  refine ⟨by rw [hcommit]; exact entered.queueSale st _ room, fun st' => ?_⟩
  by_cases e : st' = st
  · subst e; exact basketAgrees_of_vacant (basket_of_set hbaskets).1
  · exact (hs.baskets st').kept (holdsStay_of_freed hhold (fun n hn g hg => hb.owned hn hg) e) ((basket_of_set hbaskets).2 st' e)

/-! ### Refunds (R117) -/

theorem SeatCore.leave_out {s : State} (h : SeatCore none s) (k : Nat) : SeatCore (some k) s :=
  { h with sales := fun n _ => h.sales n nofun }

theorem stands_of_screenings {s t : State} (h : t.screenings = s.screenings) {slot : Nat} {x : Seat} :
    t.stands slot x ↔ s.stands slot x := by
  unfold State.stands State.screening; rw [h]

theorem screenings_removeOrders (n : Nat) (s : State) : (removeOrders n s).screenings = s.screenings := by rw [removeOrders_frame]

theorem SeatCore.removeOrders {out : Option Nat} {s : State} (h : SeatCore out s) (n : Nat) : SeatCore out (removeOrders n s) := by
  refine SeatCore.modifySale ?_ (fun _ => rfl) (fun _ => rfl) (fun _ => rfl)
  exact foldl_preserves (SeatCore out) (removeUnstarted n) (fun _ _ ht => ht.congr rfl rfl rfl) _ s h

theorem voided_frame (l : List Nat) (s : State) : (l.foldl (fun s v => voidVoucher v s) s).screenings = s.screenings ∧
    (l.foldl (fun s v => voidVoucher v s) s).holds = s.holds ∧ (l.foldl (fun s v => voidVoucher v s) s).sales = s.sales :=
  ⟨foldl_keeps (·.screenings) _ (fun s v => by rw [voidVoucher_frame]) l s,
    foldl_keeps (·.holds) _ (fun s v => by rw [voidVoucher_frame]) l s,
    foldl_keeps (·.sales) _ (fun s v => by rw [voidVoucher_frame]) l s⟩

theorem SeatCore.emit {out : Option Nat} {s : State} (h : SeatCore out s) (l : Line) (r : OutRec) : SeatCore out (emit l r s) := by
  rw [emit_frame]; exact h.congr rfl rfl rfl

theorem SeatCore.writeFree {out : Option Nat} {s : State} (h : SeatCore out s) (sale : Option Nat) (amount : Nat) (body : JournalBody) :
    SeatCore out (writeFree sale amount body s) := by
  rw [writeFree_frame]; exact h.congr rfl rfl rfl

theorem SeatCore.takeRefund {s : State} (h : SeatCore none s) {n : Nat} {x : Sale} (hx : s.sale n = some x) (ha : x.state = .active)
    (tag : Tag) : SeatCore none (takeRefund tag n x s) := by
  obtain ⟨hc, hleft⟩ := SeatCore.refunds x.seats s (h.leave_out n) (fun a hin y hy => by
    obtain ⟨_, z, hz, hs⟩ := h.sales n nofun x hx ha a hin
    rw [hy] at hz; cases hz; exact .inl hs)
  have hnone : ∀ slot y, (x.seats.foldl (fun s a => mapSeats a.ref.slot [refPos a.ref] Seat.refund s) s).stands slot y →
      ¬ y.inSale n := by
    intro slot y hy hn
    obtain ⟨hy, hl⟩ := hleft slot y hy hn
    obtain ⟨w, hw, _, l, hin, hr⟩ := h.sale_of_seat hy hn
    rw [hx] at hw; cases hw
    exact hl l hin hr
  unfold Machine.takeRefund
  dsimp only
  generalize x.seats.foldl (fun s a => mapSeats a.ref.slot [refPos a.ref] Seat.refund s) s = u at hc hnone ⊢
  obtain ⟨v1, v2, v3⟩ := voided_frame x.serials u
  have hc := SeatCore.removeOrders (hc.congr v1 v2 v3) n
  have hnone (slot : Nat) (y : Seat) (hy : (Machine.removeOrders n (x.serials.foldl (fun s v => voidVoucher v s) u)).stands slot y) :
      ¬ y.inSale n := by
    rw [stands_of_screenings ((screenings_removeOrders n _).trans v1)] at hy
    exact hnone slot y hy
  generalize Machine.removeOrders n (x.serials.foldl (fun s v => voidVoucher v s) u) = w at hc hnone ⊢
  refine SeatCore.emit (SeatCore.close_sale (hc.writeFree ..) fun slot y hy => hnone slot y ?_) _ _
  exact (stands_of_screenings (by rw [writeFree_frame])).mp hy

/-! ### The agreement under a move -/

theorem ownersAgree_reset {t : State} (h : t.books = State.reset.books) : OwnersAgree t := by
  have hscreen : t.screenings = [] := congrArg Books.screenings h
  have hholds : t.holds = [] := congrArg Books.holds h
  have hsales : t.sales = [] := congrArg Books.sales h
  have hbaskets : t.baskets = State.reset.baskets := congrArg Books.baskets h
  have nohold (n : Nat) : t.hold n = none := by unfold State.hold; rw [hholds]; rfl
  have nosale (n : Nat) : t.sale n = none := by unfold State.sale; rw [hsales]; rfl
  have nostand {slot : Nat} {x : Seat} (hx : t.stands slot x) : False := by
    obtain ⟨sc, hsc, _⟩ := hx
    unfold State.screening at hsc
    rw [hscreen] at hsc; cases hsc
  refine ⟨⟨fun n g hg => ?_, fun n _ y hy => ?_, fun slot x hx => (nostand hx).elim, fun slot x _ hx => (nostand hx).elim,
    fun st m n g k hg => ?_⟩, fun st => basketAgrees_of_vacant ?_⟩
  · rw [nohold] at hg; cases hg
  · rw [nosale] at hy; cases hy
  · rw [nohold] at hg; cases hg
  · have hvacant : ∀ st, State.reset.basket st = Basket.vacant := by decide
    unfold State.basket
    rw [hbaskets]
    exact hvacant st

/-- A screening of one slot is put, with the seats of a slot that was EMPTY or LOADING, or with the seats it had. -/
theorem OwnersAgree.put_screening {s : State} (hs : OwnersAgree s) {slot : Nat} {sc : Screening}
    (h : (s.isLoading slot ∧ ∀ x ∈ sc.seats, x.unowned) ∨ (s.screening slot = none ∧ sc.seats = []) ∨
      ∃ old, s.screening slot = some old ∧ sc.seats = old.seats ∧ sc.phase ≠ .loading) :
    OwnersAgree (putScreening slot sc s) := by
  have hthere : (putScreening slot sc s).screening slot = some sc := Tbl.find_put_self ..
  have hfound (p : SeatPos) : (putScreening slot sc s).seat slot p = sc.seat p := by unfold State.seat; rw [hthere]; rfl
  have hstands {x : Seat} (hx : (putScreening slot sc s).stands slot x) : x ∈ sc.seats := by
    obtain ⟨sc', hsc, hx⟩ := hx
    rw [hthere] at hsc; cases hsc; exact hx
  refine hs.of_core (hs.core.of_slot slot rfl rfl (fun k hk => screening_putScreening_ne hk sc s) ?_ (fun x hx => ?_)) rfl rfl
  · rcases h with ⟨hl, _⟩ | ⟨hno, he⟩ | ⟨old, hold, he, _⟩
    · exact .inl hl
    · refine .inr fun p => ?_
      rw [hfound, seat_of_no_screening hno]; unfold Screening.seat; rw [he]; rfl
    · refine .inr fun p => ?_
      rw [hfound]; unfold State.seat Screening.seat; rw [hold, he]; rfl
  · have hx := hstands hx
    rcases h with ⟨_, hu⟩ | ⟨_, he⟩ | ⟨old, hold, he, hp⟩
    · exact .inl (hu x hx)
    · rw [he] at hx; cases hx
    · refine .inr ⟨⟨old, hold, he ▸ hx⟩, ?_⟩
      rintro ⟨sc', hsc, hl⟩
      rw [hthere] at hsc; cases hsc; exact hp hl

theorem OwnersAgree.abandon {s : State} (hs : OwnersAgree s) {slot : Nat} (hload : s.isLoading slot) :
    OwnersAgree (delScreening slot s) := by
  refine hs.of_core (hs.core.of_slot slot rfl rfl (fun k hk => by rw [screening_delScreening, if_neg hk]) (.inl hload)
    (fun x hx => ?_)) rfl rfl
  obtain ⟨sc, hsc, _⟩ := hx
  rw [screening_delScreening, if_pos rfl] at hsc; cases hsc

theorem OwnersAgree.accept {s : State} (hs : OwnersAgree s) (st : Station) (tag : Tag) : OwnersAgree (acceptPay st tag s) := by
  obtain ⟨c, p, _, _, _, _, hframe⟩ := acceptPay_frame st tag s
  rw [hframe]
  exact (hs.setHoldPhases st (ph := .paying) (by decide)).congr (by rw [setHoldPhases_frame]) rfl (by rw [setHoldPhases_frame])
    (by rw [setHoldPhases_frame])

theorem OwnersAgree.touch {s : State} (hs : OwnersAgree s) (slot : Nat) (ps : List SeatPos) {f : Seat → Seat}
    (hf : ∀ x, SameOwner x (f x)) : OwnersAgree (mapSeats slot ps f s) :=
  hs.of_core (hs.core.touch slot ps hf) (by rw [mapSeats_frame]) (by rw [mapSeats_frame])

theorem ownersAgree_of_move {s t : State} (h : Move s t) (hw : TablesCanonical s) (hr : ReservationsFit s) (hn : NextSaleRange s)
    (hp : PaymentsPriced s) (hs : OwnersAgree s) : OwnersAgree t := by
  obtain ⟨_, hwh, hws, _⟩ := hw
  have hfresh : s.sale s.freshSale = none := by
    obtain ⟨_, _, _, _, hlen, _⟩ := hr
    exact (sale_freshSale (by omega) hn.1 hn.2).1
  cases h with
  | quiet h _ =>
    obtain ⟨h1, h2, h3, h4, _⟩ := books_eq h
    exact hs.congr h1 h2 h3 h4
  | restarts h _ => exact ownersAgree_reset h
  | begins hslot hseats _ => exact hs.put_screening (.inr (.inl ⟨hslot, hseats⟩))
  | @loads slot sc sc' hsc hload _ _ _ hnew =>
    refine hs.put_screening (.inl ⟨⟨sc, hsc, hload⟩, fun x hx => (hnew x hx).elim (fun hx => ?_) id⟩)
    exact hs.core.loading slot x ⟨sc, hsc, hload⟩ ⟨sc, hsc, hx⟩
  | turns hsc hph => exact hs.put_screening (.inr (.inr ⟨_, hsc, rfl, hph⟩))
  | abandons hload => exact hs.abandon hload
  | retires hholds => exact hs.of_core (hs.core.retire hws hholds _) rfl rfl
  | touches slot ps hf => exact hs.touch slot ps hf
  | amends hx hslot hseats hstate => exact hs.of_core (hs.core.amend hx hslot hseats hstate) rfl rfl
  | edits h => exact hs.edit h.holds h.lines h.summary
  | claims _ hopen hx hfree hone hn => exact hs.claim hwh hopen hx hfree hone hn
  | closes hn howner hphase => exact hs.close hwh hn howner hphase
  | releases hn hout => exact hs.release hwh hn hout
  | drops _ hn howner _ => exact hs.drop hwh hn howner
  | empties _ => exact hs.emptyBasket hwh _
  | siteHolds hn howner hphase hsc hopen hfree => exact hs.siteHold hn howner hphase hsc hopen hfree
  | accepts tag _ => exact hs.accept _ tag
  | proceeds _ _ _ _ _ => exact hs.congr rfl rfl rfl rfl
  | ends _ _ o => exact hs.endWithoutSale hwh _ _ o
  | reverses _ _ c r o => exact hs.reverseAndEnd hwh _ _ c r o
  | captures _ _ c => exact hs.endCapture _ _ c
  | commits hpay hph _ _ _ =>
    exact (hs.commit hfresh (hp _ _ hpay (by rw [hph]; decide)) _ _).congr rfl rfl rfl rfl
  | sells hn howner hm _ _ tag ref => exact hs.siteSell hfresh hn howner hm tag ref
  | refunds hx hstate _ tag =>
    obtain ⟨hb, hh⟩ := takeRefund_frame tag _ _ s
    exact hs.of_core (hs.core.takeRefund hx hstate tag) hh hb
  | journals k h _ _ =>
    obtain ⟨h1, h2, h3, h4, _⟩ := Books.mk.inj h
    exact hs.congr h1 h2 h3 h4

theorem seatOwnersAgree_iff (s : State) : SeatOwnersAgree s ↔ TablesCanonical s ∧ ReservationsFit s ∧ PaymentsFreezeHolds s ∧
    NextSaleRange s ∧ PaymentsPriced s ∧ OwnersAgree s := by
  constructor
  · rintro ⟨ht, hr, hf, hn, hh, hs, hb, hseats, hone⟩
    obtain ⟨hb, hp⟩ := (basketsListHolds_iff s).mp hb
    exact ⟨ht, hr, hf, hn, hp, ⟨hh, fun n _ => hs n, fun slot x ⟨sc, hsc, hx⟩ => (hseats slot sc hsc x hx).1,
      fun slot x ⟨sc, hsc, hl⟩ ⟨sc', hsc', hx⟩ => by rw [hsc] at hsc'; cases hsc'; exact (hseats slot sc hsc x hx).2 hl, hone⟩, hb⟩
  · rintro ⟨ht, hr, hf, hn, hp, hc, hb⟩
    exact ⟨ht, hr, hf, hn, hc.holds, fun n => hc.sales n nofun, (basketsListHolds_iff s).mpr ⟨hb, hp⟩,
      fun slot sc hsc x hx => ⟨hc.listed slot x ⟨sc, hsc, hx⟩, fun hl => hc.loading slot x ⟨sc, hsc, hl⟩ ⟨sc, hsc, hx⟩⟩, hc.oneSlot⟩

theorem seatOwnersAgree_of_move {s t : State} (h : Move s t) (hs : SeatOwnersAgree s) : SeatOwnersAgree t := by
  obtain ⟨ht, hr, hf, hn, hp, ho⟩ := (seatOwnersAgree_iff s).mp hs
  exact (seatOwnersAgree_iff t).mpr ⟨tablesCanonical_of_move h ht, reservationsFit_of_move h hr, freeze_of_move h hr.1 hf,
    nextSaleRange_of_move h hr.1 hn, priced_of_move h hr.1 hf hp, ownersAgree_of_move h ht hr hn hp ho⟩

/-- Settles O60: every step is a sequence of moves, and each move keeps seats, holds, sales and baskets agreed. -/
theorem seatOwnersStayAgreed : Obligations.SeatOwnersStayAgreed :=
  fun _ _ hs h => step_preserves_of_move seatOwnersAgree_of_move h hs

end Sys2Proof.Machine
end

section
/-! Loading, opening and stopping a screening past the checks of its records (R3 to R7): O23 and O24. -/

namespace Sys2Proof.Machine

/-! ### Fields in range -/

theorem within_iff {lo hi n : Nat} : within lo hi n = true ↔ lo ≤ n ∧ n ≤ hi := by simp [within]

theorem slotOk_of {n : Nat} (h1 : 1 ≤ n) (h2 : n ≤ 32) : slotOk n = true := within_iff.mpr ⟨h1, h2⟩

theorem rowOk_of {n : Nat} (h1 : 1 ≤ n) (h2 : n ≤ 40) : rowOk n = true := within_iff.mpr ⟨h1, h2⟩

theorem firstFault_eq_none {l : List (Bool × FieldName)} : firstFault l = none ↔ ∀ e ∈ l, e.1 = true := by
  induction l with
  | nil => simp [firstFault]
  | cons e t ih =>
    obtain ⟨ok, f⟩ := e
    cases ok <;> simp [firstFault, ih]

theorem beginFault_eq_none {f : BeginFields} (h1 : 1 ≤ f.slot) (h2 : f.slot ≤ 32) (h3 : 1 ≤ f.auditorium) (h4 : f.auditorium ≤ 16)
    (h5 : f.start ≤ 1439) (h6 : 500 ≤ f.band) (h7 : f.band ≤ 1500) (h8 : ∀ x ∈ f.fares.toList, x ≤ 20000) (h9 : 1 ≤ f.declared)
    (h10 : f.declared ≤ 800) : beginFault f = none := by
  refine firstFault_eq_none.mpr fun e he => ?_
  rcases List.mem_append.mp he with he | he
  · rcases List.mem_append.mp he with he | he
    · simp only [List.mem_cons, List.not_mem_nil, or_false] at he
      rcases he with rfl | rfl | rfl | rfl
      · exact slotOk_of h1 h2
      · exact within_iff.mpr ⟨h3, h4⟩
      · exact within_iff.mpr ⟨Nat.zero_le _, h5⟩
      · exact within_iff.mpr ⟨h6, h7⟩
    · obtain ⟨d, hd, rfl⟩ := List.mem_map.mp he
      exact within_iff.mpr ⟨Nat.zero_le _, h8 _ (List.fst_mem_of_mem_zipIdx hd)⟩
  · rw [List.mem_singleton.mp he]
    exact within_iff.mpr ⟨h9, h10⟩

/-! ### BEGIN-SCREENING (R3) -/

/-- A screening put into an EMPTY slot takes its declared count from the pool (R2). -/
theorem poolFree_putScreening {slot : Nat} {s : State} (h : s.screening slot = none) (sc : Screening) :
    (putScreening slot sc s).poolFree = s.poolFree - sc.declared := by
  have hsum := declaredSum_put_of_none h sc
  show 8192 - declaredSum (s.screenings.put slot sc) = 8192 - declaredSum s.screenings - sc.declared
  rw [hsum]
  omega

theorem beginScreening_of_free {tag : Tag} {f : BeginFields} {s : State} (hf : beginFault f = none)
    (hslot : s.screening f.slot = none) (hfit : f.declared ≤ s.poolFree) :
    beginScreening tag f s = emit .site (.reply tag .ok [.poolFree (s.poolFree - f.declared)])
      (putScreening f.slot
        { phase := .loading, code := f.code, auditorium := f.auditorium, start := f.start, band := f.band,
          gapRule := f.gapRule, fares := f.fares, declared := f.declared, loaded := 0, runCount := 0, seats := [] } s) := by
  unfold beginScreening
  simp only [hf, hslot, Nat.not_lt.mpr hfit, if_false, poolFree_putScreening hslot]
  rfl

/-! ### SEAT-ROW (R4, R5) -/

/-- A seat of a run stands in the run's seats. -/
theorem loadedSeat_mem_runSeats {r : RunSpec} (hr : runOk r = true) (row runId : Nat) {j : Nat} {k : SeatKind}
    (hk : r.kinds[j]? = some (some k)) : loadedSeat row runId r k j ∈ runSeats row runId r := by
  obtain ⟨_, _, _, _, _, hsome⟩ := (runOk_iff r).mp hr
  rw [← map_some_filterMap_id hsome, List.getElem?_map, Option.map_eq_some_iff] at hk
  obtain ⟨k', hk', e⟩ := hk
  cases e
  exact List.mem_map.mpr ⟨(k, j), List.mem_zipIdx_iff_getElem?.mpr hk', rfl⟩

theorem loadedSeat_mem_rowSeats {runs : List RunSpec} (row c : Nat) {i j : Nat} {r : RunSpec} {k : SeatKind} (hr : runOk r = true)
    (hi : runs[i]? = some r) (hk : r.kinds[j]? = some (some k)) : loadedSeat row (c + 1 + i) r k j ∈ rowSeats row c runs :=
  List.mem_flatMap.mpr ⟨(r, i), List.mem_zipIdx_iff_getElem?.mpr hi, loadedSeat_mem_runSeats hr row (c + 1 + i) hk⟩

theorem seatRow_of_checks {tag : Tag} {slot row : Nat} {runs : List RunSpec} {sc : Screening} {s : State} (hslot : slotOk slot = true)
    (hrow : rowOk row = true) (hlen : within 1 8 runs.length = true) (hruns : ∀ r ∈ runs, runOk r = true)
    (hsc : s.screening slot = some sc) (hload : sc.phase = .loading) (hnew : ∀ x ∈ sc.seats, x.row ≠ row)
    (hnum : (runs.flatMap runNumbers).Nodup) (hcount : sc.runCount + runs.length ≤ 160)
    (hfit : sc.loaded + rowCount runs ≤ sc.declared) :
    seatRow tag slot row runs s = takeSeatRow tag slot row runs sc s := by
  have hany : sc.seats.any (fun x => decide (x.row = row)) = false := by
    rw [List.any_eq_false]; simpa using hnew
  have hall : runs.all runOk = true := List.all_eq_true.mpr hruns
  have hlimit : ¬ Config.runLimit < sc.runCount + runs.length := Nat.not_lt.mpr hcount
  have hdecl : ¬ sc.declared < sc.loaded + rowCount runs := Nat.not_lt.mpr hfit
  unfold seatRow
  simp [hslot, hrow, hlen, hall, hsc, hload, hany, hasRepeat_eq_false.mpr hnum, hlimit, hdecl]

/-- Settles O23: an EMPTY slot is loaded from the pool, and a row past the checks of R4 adds the seats of its runs to those that
stand. -/
theorem loadingTaken : Obligations.LoadingTaken := by
  refine ⟨fun tag f s h1 h2 h3 h4 h5 h6 h7 h8 h9 h10 hslot hfit => ?_, fun tag slot row runs sc s h1 h2 h3 h4 h5 h6 hruns hsc hload
    hnew hnum hcount hfit => ?_⟩
  · exact congrArg Host.Outcome.next (beginScreening_of_free (beginFault_eq_none h1 h2 h3 h4 h5 h6 h7 h8 h9 h10) hslot hfit)
  · have hok : ∀ r ∈ runs, runOk r = true := fun r hr => by
      obtain ⟨hc, hf, hlast, hcls, hlen, hk⟩ := hruns r hr
      exact (runOk_iff r).mpr ⟨hc, hf, by omega, hcls, hlen, fun k hkin => Option.isSome_iff_ne_none.mpr (hk k hkin)⟩
    refine ⟨(rowSeats row sc.runCount runs).foldl (fun l x => insertSeat x l) sc.seats,
      congrArg Host.Outcome.next (seatRow_of_checks (slotOk_of h1 h2) (rowOk_of h3 h4) (within_iff.mpr ⟨h5, h6⟩) hok hsc hload
        hnew hnum hcount hfit), ?_, fun x hx => (mem_insertSeats _ _).mpr (.inr hx), fun i r j k hi hk => ?_⟩
    · rw [length_insertSeats, length_rowSeats hok]; rfl
    · exact (mem_insertSeats _ _).mpr (.inl (loadedSeat_mem_rowSeats row sc.runCount (hok r (List.mem_of_getElem? hi)) hi hk))

/-! ### END-LOAD and STOP-SALES (R6, R7) -/

section

variable (tag : Tag) {slot : Nat} {s : State} (hslot : slotOk slot = true)

include hslot

theorem endLoad_of_empty (h : s.screening slot = none) : endLoad tag slot s = emit .site (.reply tag .notFound []) s := by
  simp [endLoad, hslot, h, replySite]

theorem endLoad_of_loaded {sc : Screening} (h : s.screening slot = some sc) (hp : sc.phase = .loading)
    (hc : sc.loaded = sc.declared) :
    endLoad tag slot s = emit .site (.reply tag .ok []) (putScreening slot { sc with phase := .opened } s) := by
  simp [endLoad, hslot, h, hp, hc, replySite]

theorem endLoad_of_short {sc : Screening} (h : s.screening slot = some sc) (hp : sc.phase = .loading)
    (hc : sc.loaded < sc.declared) : endLoad tag slot s =
      emit .site (.reply tag .countMismatch [.declaredCount sc.declared, .loadedCount sc.loaded]) s := by
  simp [endLoad, hslot, h, hp, hc.ne, replySite]

theorem endLoad_of_not_loading {sc : Screening} (h : s.screening slot = some sc) (hp : sc.phase ≠ .loading) :
    endLoad tag slot s = emit .site (.reply tag .notLoading [.slotState (s.slotState slot)]) s := by
  simp [endLoad, hslot, h, hp, replySite]

theorem stopSales_of_empty (h : s.screening slot = none) : stopSales tag slot s = emit .site (.reply tag .notFound []) s := by
  simp [stopSales, hslot, h, replySite]

theorem stopSales_of_loading {sc : Screening} (h : s.screening slot = some sc) (hp : sc.phase = .loading) :
    stopSales tag slot s = emit .site (.reply tag .notOpen []) s := by
  simp [stopSales, hslot, h, hp, replySite]

theorem stopSales_of_opened {sc : Screening} (h : s.screening slot = some sc) (hp : sc.phase = .opened) :
    stopSales tag slot s = emit .site (.reply tag .ok []) (putScreening slot { sc with phase := .stopped } s) := by
  simp [stopSales, hslot, h, hp, replySite]

theorem stopSales_of_stopped {sc : Screening} (h : s.screening slot = some sc) (hp : sc.phase = .stopped) :
    stopSales tag slot s = emit .site (.reply tag .already []) s := by
  simp [stopSales, hslot, h, hp, replySite]

end

/-- Settles O24: each branch of END-LOAD and of STOP-SALES, by the state of the slot. -/
theorem endLoadAndStopSales : Obligations.EndLoadAndStopSales := by
  refine ⟨fun tag slot s h1 h2 => ?_, fun tag slot s h1 h2 => ?_⟩ <;> have hslot := slotOk_of h1 h2
  · exact ⟨fun h => congrArg Host.Outcome.next (endLoad_of_empty tag hslot h), fun sc h =>
      ⟨fun hp hc => congrArg Host.Outcome.next (endLoad_of_loaded tag hslot h hp hc),
        fun hp hc => congrArg Host.Outcome.next (endLoad_of_short tag hslot h hp hc),
        fun hp => congrArg Host.Outcome.next (endLoad_of_not_loading tag hslot h hp)⟩⟩
  · exact ⟨fun h => congrArg Host.Outcome.next (stopSales_of_empty tag hslot h), fun sc h =>
      ⟨fun hp => congrArg Host.Outcome.next (stopSales_of_loading tag hslot h hp),
        fun hp => congrArg Host.Outcome.next (stopSales_of_opened tag hslot h hp),
        fun hp => congrArg Host.Outcome.next (stopSales_of_stopped tag hslot h hp)⟩⟩

end Sys2Proof.Machine
end

section
/-! The retirement of a screening and the blocking of seats past the checks of their records (R8 to R10, R15, R16): O25 and O26. -/

namespace Sys2Proof.Machine

/-! ### RETIRE-SCREENING (R8, R9, R10) -/

/-- A retirement frees what stands in the slot, and what stands in none when the slot is the last. -/
theorem retires_eq (s : State) (slot : Nat) (of : Option Nat) : s.retires slot of =
    (decide (of = some slot) || (decide (of = none) && s.screenings.all (fun e => decide (e.1 = slot)))) := by
  cases of <;> simp [State.retires, State.lastSlot]

theorem retireScreening_of_loading (tag : Tag) {slot : Nat} {s : State} {sc : Screening} (hslot : slotOk slot = true)
    (h : s.screening slot = some sc) (hp : sc.phase = .loading) : retireScreening tag slot s =
      emit .site (.reply tag .ok [.poolFree (delScreening slot s).poolFree]) (delScreening slot s) := by
  simp [retireScreening, hslot, h, hp, replySite]

theorem retireScreening_of_clear (tag : Tag) {slot : Nat} {s : State} {sc : Screening} (hslot : slotOk slot = true)
    (h : s.screening slot = some sc) (hp : sc.phase ≠ .loading) (hh : s.holdsIn slot = 0) (hc : s.capturesIn slot = 0)
    (ho : s.ordersIn slot = 0) : retireScreening tag slot s = takeRetire tag slot s := by
  unfold retireScreening
  cases hph : sc.phase
  case loading => exact absurd hph hp
  all_goals simp [hslot, h, hph, hh, hc, ho]

theorem holdsIn_eq_zero {s : State} {slot : Nat} (h : ∀ e ∈ s.holds, e.2.slot ≠ slot) : s.holdsIn slot = 0 :=
  List.countP_eq_zero.mpr fun e he => by simpa using h e he

theorem capturesIn_eq_zero {s : State} {slot : Nat} (h : ∀ e ∈ s.sales, s.retires slot e.2.slot = true → e.2.capture ≠ .pending) :
    s.capturesIn slot = 0 := by
  refine List.countP_eq_zero.mpr fun e he hboth => ?_
  obtain ⟨hr, hc⟩ := Bool.and_eq_true_iff.mp hboth
  exact h e he hr (of_decide_eq_true hc)

theorem ordersIn_eq_zero {s : State} {slot : Nat}
    (h : ∀ st, ∀ o ∈ (s.lane st).queue, ∀ x, s.sale o.sale = some x → s.retires slot x.slot = false) : s.ordersIn slot = 0 := by
  have hzero : ∀ st, (s.lane st).queue.countP (s.orderIn slot) = 0 := by
    refine fun st => List.countP_eq_zero.mpr fun o ho => ?_
    unfold State.orderIn
    split
    · next x hx => rw [h st o ho x hx]; decide
    · decide
  simp [State.ordersIn, hzero]

/-- What a filter drops is counted. -/
theorem length_sub_length_filter_not {α : Type} (l : List α) (p : α → Bool) :
    l.length - (l.filter (fun a => !p a)).length = l.countP p := by
  have hlen := List.length_eq_countP_add_countP p (l := l)
  rw [← List.countP_eq_length_filter]
  have hnot : l.countP (fun a => !p a) = l.countP (fun a => decide ¬ p a = true) := by
    congr 1; funext a; cases p a <;> rfl
  omega

/-- The retirement's state, its reply beside: the slot's sales and vouchers go with it (R10). -/
theorem takeRetire_eq (tag : Tag) (slot : Nat) (s : State) : takeRetire tag slot s =
    let s' := delScreening slot { s with
      sales := s.sales.filter (fun e => !s.retires slot e.2.slot), vouchers := s.vouchers.filter (fun e => !s.retires slot e.2.slot) }
    emit .site (.reply tag .ok
      [.salesFreed (s.sales.countP (fun e => s.retires slot e.2.slot)),
        .vouchersFreed (s.vouchers.countP (fun e => s.retires slot e.2.slot)), .poolFree s'.poolFree]) s' := by
  unfold takeRetire replySite
  dsimp only
  rw [length_sub_length_filter_not s.sales (fun e => s.retires slot e.2.slot),
    length_sub_length_filter_not s.vouchers (fun e => s.retires slot e.2.slot)]

/-- Settles O25: a load is abandoned whole; a slot that nothing waits on goes with its sales and vouchers. -/
theorem retireScreeningTaken : Obligations.RetireScreeningTaken := by
  intro tag slot sc s h1 h2 hsc
  have hslot := slotOk_of h1 h2
  simp only [← retires_eq]
  refine ⟨fun hp => congrArg Host.Outcome.next (retireScreening_of_loading tag hslot hsc hp), fun hp hh hc ho => ?_⟩
  refine ⟨takeRetire tag slot s, congrArg Host.Outcome.next (retireScreening_of_clear tag hslot hsc hp (holdsIn_eq_zero hh)
    (capturesIn_eq_zero hc) (ordersIn_eq_zero ho)), ?_, fun hl => ?_⟩ <;> rw [takeRetire_eq] <;> dsimp only
  · rw [emit_frame]; rfl
  · rw [out_emit (by exact hl), emit_frame]; rfl

/-! ### BLOCK-SEATS and UNBLOCK-SEATS (R15, R16) -/

section

variable (act : Seat → Seat × SeatResult) (tag : Tag) {slot : Nat} {ps : List SeatPos} {s : State}

theorem treatSlot_of_count (h : ps.length = 0 ∨ 20 < ps.length) :
    treatSlot act tag slot ps s = emit .site (.reply tag .badField []) s := by
  have hno : within 1 20 ps.length = false := by
    rw [Bool.eq_false_iff, Ne, within_iff]; omega
  simp [treatSlot, hno, replySite]

variable (hslot : slotOk slot = true) (hlen : within 1 20 ps.length = true)

include hslot hlen

theorem treatSlot_of_empty (h : s.screening slot = none) :
    treatSlot act tag slot ps s = emit .site (.reply tag .notFound []) s := by
  simp [treatSlot, hslot, hlen, h, replySite]

theorem treatSlot_of_loading {sc : Screening} (h : s.screening slot = some sc) (hp : sc.phase = .loading) :
    treatSlot act tag slot ps s = emit .site (.reply tag .notOpen []) s := by
  simp [treatSlot, hslot, hlen, h, hp, replySite]

theorem treatSlot_of_open {sc : Screening} (h : s.screening slot = some sc) (hp : sc.phase ≠ .loading) :
    treatSlot act tag slot ps s =
      emit .site (.reply tag .ok [.seatResults (treatSeats act slot ps s).2]) (treatSeats act slot ps s).1 := by
  simp [treatSlot, hslot, hlen, h, hp, replySite]

end

theorem treatSeats_cons_of_none {act : Seat → Seat × SeatResult} {slot : Nat} {p : SeatPos} {rest : List SeatPos} {s : State}
    (h : s.seat slot p = none) : treatSeats act slot (p :: rest) s =
      ((treatSeats act slot rest s).1, .noSeat :: (treatSeats act slot rest s).2) := by
  rw [treatSeats]
  simp only [h]

theorem treatSeats_cons_of_some {act : Seat → Seat × SeatResult} {slot : Nat} {p : SeatPos} {rest : List SeatPos} {s : State}
    {x : Seat} (h : s.seat slot p = some x) : treatSeats act slot (p :: rest) s =
      ((treatSeats act slot rest (mapSeats slot [p] (fun y => (act y).1) s)).1,
        (act x).2 :: (treatSeats act slot rest (mapSeats slot [p] (fun y => (act y).1) s)).2) := by
  rw [treatSeats]
  simp only [h]

/-! The tables of R15 and R16, a line for each state of a seat. -/

theorem block_of_free {x : Seat} (h : x.state = .free) :
    blockSeat x = ({ x with state := .blocked }, .blocked) ∧ unblockSeat x = (x, .notBlocked) := by
  simp [blockSeat, unblockSeat, h]

theorem block_of_inHold {x : Seat} {n : Nat} (h : x.inHold n) : blockSeat x = ({ x with mark := true }, .marked) ∧
    (x.mark = true → unblockSeat x = ({ x with mark := false }, .unmarked)) ∧ (x.mark = false → unblockSeat x = (x, .notBlocked)) := by
  rcases h with h | h <;> simp +contextual [blockSeat, unblockSeat, h]

theorem block_of_inSale {x : Seat} {n : Nat} (h : x.inSale n) : blockSeat x = (x, .sold) ∧ unblockSeat x = (x, .sold) := by
  rcases h with h | h <;> simp [blockSeat, unblockSeat, h]

theorem block_of_blocked {x : Seat} (h : x.state = .blocked) :
    blockSeat x = (x, .already) ∧ unblockSeat x = ({ x with state := .free }, .freed) := by
  simp [blockSeat, unblockSeat, h]

/-- Settles O26: the shared refusals and the shared walk along the list, then the two tables. -/
theorem blockingTaken : Obligations.BlockingTaken := by
  refine ⟨fun tag slot ps s h1 h2 c hc => ?_, ⟨fun tag slot ps sc s h1 h2 h3 h4 hsc hp => ?_, fun act slot p rest s => ?_⟩, fun x => ?_⟩
  · have hslot := slotOk_of h1 h2
    have refusals (act : Seat → Seat × SeatResult) (hexec : exec c s = .next (treatSlot act tag slot ps s)) :
        (ps.length = 0 ∨ 20 < ps.length → exec c s = .next (emit .site (.reply tag .badField []) s)) ∧
        (1 ≤ ps.length → ps.length ≤ 20 → s.screening slot = none → exec c s = .next (emit .site (.reply tag .notFound []) s)) ∧
        (1 ≤ ps.length → ps.length ≤ 20 → ∀ sc, s.screening slot = some sc → sc.phase = .loading →
          exec c s = .next (emit .site (.reply tag .notOpen []) s)) := by
      rw [hexec]
      exact ⟨fun h => congrArg _ (treatSlot_of_count act tag h),
        fun h3 h4 h => congrArg _ (treatSlot_of_empty act tag hslot (within_iff.mpr ⟨h3, h4⟩) h),
        fun h3 h4 sc h hp => congrArg _ (treatSlot_of_loading act tag hslot (within_iff.mpr ⟨h3, h4⟩) h hp)⟩
    simp only [List.mem_cons, List.not_mem_nil, or_false] at hc
    rcases hc with rfl | rfl
    · exact refusals blockSeat rfl
    · exact refusals unblockSeat rfl
  · have hlen := within_iff.mpr ⟨h3, h4⟩
    exact ⟨congrArg Host.Outcome.next (treatSlot_of_open blockSeat tag (slotOk_of h1 h2) hlen hsc hp),
      congrArg Host.Outcome.next (treatSlot_of_open unblockSeat tag (slotOk_of h1 h2) hlen hsc hp)⟩
  · exact ⟨rfl, treatSeats_cons_of_none, fun x => treatSeats_cons_of_some⟩
  · exact ⟨block_of_free, fun n => block_of_inHold, fun n => block_of_inSale, block_of_blocked⟩

end Sys2Proof.Machine
end

section
/-! The queries of the site server and of a station: each answers OK and puts out its report alone (R18 to R20, R119, R168,
R177): O27. -/

namespace Sys2Proof.Machine

/-! ### QUERY-SEATS (R20) -/

theorem querySeats_of_range (tag : Tag) {slot row first last : Nat} {s : State} {sc : Screening} (hslot : slotOk slot = true)
    (hrow : rowOk row = true) (h1 : 1 ≤ first) (h2 : first ≤ last) (h3 : last ≤ 80) (hsc : s.screening slot = some sc) :
    let found := sc.seats.filter (fun x => decide (x.row = row) && decide (first ≤ x.num ∧ x.num ≤ last))
    querySeats tag slot row first last s = emit .site (.reply tag .ok
      [.slotState (s.slotState slot), .screeningCode sc.code, .declaredCount sc.declared, .loadedCount sc.loaded,
        .runCount sc.runCount, .seatEntries ((found.take 16).map s.seatEntry),
        .nextSeat (((found.drop 16).head?.map (·.num)).getD 0)]) s := by
  have hfirst : seatNumOk first = true := within_iff.mpr ⟨h1, by omega⟩
  have hlast : seatNumOk last = true := within_iff.mpr ⟨by omega, h3⟩
  unfold querySeats
  simp only [hslot, hrow, hfirst, hlast, h2, hsc]
  rfl

/-! ### QUERY-MAP (R18, R19) -/

/-- The rows that QUERY-MAP includes, after `used` seats of rows before them: whole rows in the order of the range, up to the first
that would pass the 240 seats of a reply. -/
structure RowsIncluded (sc : Screening) (range : List Nat) (used : Nat) (m : List Nat × Nat) : Prop where
  fit : used + (m.1.map (fun r => (sc.row r).length)).sum ≤ 240
  all : m.2 = 0 → m.1 = range.filter (fun r => decide (0 < (sc.row r).length))
  next : m.2 ≠ 0 → m.2 ∈ range ∧ m.1 = range.filter (fun r => decide (r < m.2) && decide (0 < (sc.row r).length)) ∧
    240 < used + (m.1.map (fun r => (sc.row r).length)).sum + (sc.row m.2).length

theorem rowsIncluded_mapRows (sc : Screening) : ∀ (range : List Nat) (used : Nat), range.Pairwise (· < ·) → (∀ r ∈ range, r ≠ 0) →
    used ≤ 240 → RowsIncluded sc range used (mapRows sc range used)
  | [], used, _, _, hused => ⟨hused, fun _ => rfl, fun h => absurd rfl h⟩
  | r :: rest, used, hlt, hpos, hused => by
    obtain ⟨hr, hrest⟩ := List.pairwise_cons.mp hlt
    have hpos' : ∀ x ∈ rest, x ≠ 0 := fun x hx => hpos x (List.mem_cons_of_mem _ hx)
    unfold mapRows
    dsimp only
    split
    · next hempty =>
      obtain ⟨hfit, hall, hnext⟩ := rowsIncluded_mapRows sc rest used hrest hpos' hused
      refine ⟨hfit, fun h => ?_, fun h => ?_⟩
      · rw [hall h, List.filter_cons_of_neg (by simp [hempty])]
      · obtain ⟨hmem, hrows, hover⟩ := hnext h
        exact ⟨List.mem_cons_of_mem _ hmem, by rw [List.filter_cons_of_neg (by simp [hempty])]; exact hrows, hover⟩
    · next hsome =>
      split
      · next hin =>
        obtain ⟨hfit, hall, hnext⟩ := rowsIncluded_mapRows sc rest (used + (sc.row r).length) hrest hpos' hin
        have hkeep : 0 < (sc.row r).length := Nat.pos_of_ne_zero hsome
        refine ⟨?_, fun h => ?_, fun h => ?_⟩
        · simp only [List.map_cons, List.sum_cons]; omega
        · rw [List.filter_cons_of_pos (by simpa using hkeep), hall h]
        · obtain ⟨hmem, hrows, hover⟩ := hnext h
          refine ⟨List.mem_cons_of_mem _ hmem, ?_, ?_⟩
          · rw [List.filter_cons_of_pos (by simp [hkeep, hr _ hmem]), ← hrows]
          · simp only [List.map_cons, List.sum_cons]; omega
      · next hout =>
        have hout : 240 < used + (sc.row r).length := Nat.not_le.mp hout
        refine ⟨hused, fun h => absurd h (hpos r List.mem_cons_self), fun _ => ⟨List.mem_cons_self, ?_, hout⟩⟩
        refine (List.filter_eq_nil_iff.mpr fun x hx => ?_).symm
        have hge : ¬ x < r := by
          rcases List.mem_cons.mp hx with rfl | hx
          · exact lt_irrefl _
          · exact (hr x hx).not_gt
        simp [hge]

/-- A range of rows rises from its first row. -/
theorem pairwise_rowRange (first n : Nat) : ((List.range n).map (first + ·)).Pairwise (· < ·) :=
  List.pairwise_map.mpr (List.pairwise_lt_range.imp fun h => Nat.add_lt_add_left h first)

theorem queryMap_of_range (st : Station) (tag : Tag) {slot first last : Nat} {s : State} {sc : Screening} (hslot : slotOk slot = true)
    (h1 : 1 ≤ first) (h2 : first ≤ last) (h3 : last ≤ 40) (hsc : s.screening slot = some sc) (hp : sc.phase ≠ .loading) :
    let m := mapRows sc ((List.range (last + 1 - first)).map (first + ·)) 0
    queryMap st tag slot first last s = emit (.station st) (.reply tag .ok
      [.screeningCode sc.code, .auditorium sc.auditorium, .startTime (some sc.start), .slotState (s.slotState slot),
        .gapRule sc.gapRule, .mapRuns (m.1.flatMap (s.rowView st sc)), .nextRow m.2]) s := by
  have hfirst : rowOk first = true := rowOk_of h1 (by omega)
  have hlast : rowOk last = true := rowOk_of (by omega) h3
  unfold queryMap
  simp only [hslot, hfirst, hlast, h2, hsc, hp]
  rfl

/-- The runs of a row that a reply carries are those whose first seat stands in it. -/
theorem mem_rowView {s : State} {st : Station} {sc : Screening} {row : Nat} {run : MapRun} : run ∈ s.rowView st sc row ↔
    ∃ x ∈ sc.seats, x.row = row ∧ x.runPos = 1 ∧
      let members := sc.seats.filter (fun y => decide (y.row = row) && decide (y.runId = x.runId))
      run = { row := row, first := x.num, count := members.length, runId := x.runId, cls := x.cls,
              seats := members.map (fun y => (y.kind, s.viewOf st y)) } := by
  have hmembers (x : Seat) : (sc.seats.filter (fun y => decide (y.row = row))).filter (fun y => decide (y.runId = x.runId)) =
      sc.seats.filter (fun y => decide (y.row = row) && decide (y.runId = x.runId)) := by
    rw [List.filter_filter]
    exact List.filter_congr fun y _ => Bool.and_comm _ _
  unfold State.rowView
  simp only [List.mem_map, List.mem_filter, Screening.row, hmembers, decide_eq_true_eq, and_assoc, eq_comm (b := run)]

/-! ### The other queries (R119, R168, R177) -/

theorem querySale_of_sale (tag : Tag) {n : Nat} {s : State} {x : Sale} (hn : n ≠ 0) (hx : s.sale n = some x) :
    querySale tag n s = emit .site (.reply tag .ok
      [.saleNumber n, .saleRecord x,
        .saleVouchers (x.serials.filterMap (fun v => (s.voucher v).map (fun y => ⟨v, y.value, y.state.name, y.gen⟩))),
        .saleSeats (x.seats.map (fun l => (s.seatOf l.ref).map (fun y => (y.state.name, y.gen))))]) s := by
  simp [querySale, hn, hx, replySite]

theorem querySnacks_of_range (tag : Tag) {first last : Nat} (s : State) (h1 : 1 ≤ first) (h2 : first ≤ last) (h3 : last ≤ 24) :
    querySnacks tag first last s = emit .site (.reply tag .ok
      [.items (((List.range (last + 1 - first)).map (first + ·)).filterMap (fun c => (s.item c).map (fun x =>
          (⟨c, x, x.available⟩ : ItemView)))),
        .recordsHeld s.vouchers.length, .tableFree s.vouchersFree]) s := by
  have hfirst : itemOk first = true := within_iff.mpr ⟨h1, by omega⟩
  have hlast : itemOk last = true := within_iff.mpr ⟨by omega, h3⟩
  unfold querySnacks
  simp only [hfirst, hlast, h2]
  rfl

theorem queryVoucher_of_voucher (st : Station) (tag : Tag) {serial : Nat} {s : State} {v : Voucher} (hs : serialOk serial = true)
    (hv : s.voucher serial = some v) : queryVoucher st tag serial s = emit (.station st) (.reply tag .ok
      [.voucherState v.state, .itemCode v.item, .itemName ((s.item v.item).map (·.name)), .generation v.gen,
        .wrongCount v.wrong, .startTime (s.startOf v.slot)]) s := by
  simp [queryVoucher, hs, hv, replyStation]

/-! ### A seat as a station sees it (R18) -/

theorem viewOf_of_inSale {s : State} {st : Station} {x : Seat} {n : Nat} (h : x.inSale n) : s.viewOf st x = .taken := by
  rcases h with h | h <;> simp [State.viewOf, h]

theorem viewOf_of_inHold {s : State} {st : Station} {x : Seat} {n : Nat} (h : x.inHold n) :
    s.viewOf st x = if (s.hold n).map (·.owner) = some (.station st) then .mine else .taken := by
  rcases h with h | h <;> simp [State.viewOf, h]

/-- Settles O27: each query in range puts out its report, and the report's rows, runs and seats are those of the store. -/
theorem queriesAnswerOk : Obligations.QueriesAnswerOk := by
  refine ⟨fun tag st s => ⟨fun slot row first last sc h1 h2 h3 h4 h5 h6 h7 hsc => ?_,
    fun slot first last sc htakes h1 h2 h3 h4 h5 hsc hp => ?_, fun n x hn hx => congrArg Host.Outcome.next (querySale_of_sale tag hn hx),
    fun first last h1 h2 h3 => congrArg Host.Outcome.next (querySnacks_of_range tag s h1 h2 h3), fun serial v htakes h1 h2 hv => ?_⟩,
    fun st s => ⟨fun sc row run => mem_rowView, fun x => ⟨fun h => ?_, fun h => ?_, fun n => ⟨viewOf_of_inSale, viewOf_of_inHold⟩⟩⟩⟩
  · refine congrArg Host.Outcome.next ((querySeats_of_range tag (slotOk_of h1 h2) (rowOk_of h3 h4) h5 h6 h7 hsc).trans ?_)
    generalize sc.seats.filter _ = found
    cases found.drop 16 <;> rfl
  · refine ⟨_, _, congrArg Host.Outcome.next ((stationRequest_of_takes htakes tag _).trans
      (queryMap_of_range st tag (slotOk_of h1 h2) h3 h4 h5 hsc hp)), ?_⟩
    obtain ⟨hfit, hall, hnext⟩ := rowsIncluded_mapRows sc ((List.range (last + 1 - first)).map (first + ·)) 0
      (pairwise_rowRange first _) (fun r hr => by obtain ⟨i, _, rfl⟩ := List.mem_map.mp hr; omega) (Nat.zero_le _)
    simp only [Nat.zero_add] at hfit hnext
    exact ⟨hfit, hall, hnext⟩
  · exact congrArg Host.Outcome.next ((stationRequest_of_takes htakes tag _).trans
      (queryVoucher_of_voucher st tag (within_iff.mpr ⟨h1, h2⟩) hv))
  · simp [State.viewOf, h]
  · simp [State.viewOf, h]

end Sys2Proof.Machine
end

section
/-! Every step keeps a station with a payment in flight without a GATHERING hold (R38), whatever the tables hold: O9. -/

namespace Sys2Proof.Machine

/-! ### Payments beside holds that gather -/

/-- From `s` to `t` no payment begins where a hold gathers, and no hold comes to gather where a payment is in flight. -/
def KeepsFrozen (s t : State) : Prop :=
  ∀ st, t.payIdle st = false →
    (s.payIdle st = false ∨ s.gathering st = none) ∧ (s.gathering st = none → t.gathering st = none)

theorem KeepsFrozen.freeze {s t : State} (h : KeepsFrozen s t) (hs : PaymentsFreezeHolds s) : PaymentsFreezeHolds t := by
  intro st hbusy
  obtain ⟨hbefore, hstay⟩ := h st hbusy
  exact hstay (hbefore.elim (hs st) id)

theorem Tended.gathering_eq_none {s t : State} (h : Tended s t) {st : Station} (hg : s.gathering st = none) :
    t.gathering st = none := by
  refine Machine.gathering_eq_none.mpr fun e he ho hp => ?_
  obtain ⟨d, hd, hdo, hdp⟩ := h.gathers e he hp
  exact Machine.gathering_eq_none.mp hg d hd (hdo.trans ho) hdp

theorem KeepsFrozen.of_same {s t : State} (h : Tended s t) (hp : t.payment = s.payment) : KeepsFrozen s t :=
  fun st hbusy => ⟨.inl (payIdle_of_payment hp st hbusy), h.gathering_eq_none⟩

/-- One station's payment turns; where none was in flight it may begin without a hold that gathers. -/
theorem KeepsFrozen.of_turn {s t : State} {st : Station} {q : Option Payment} (h : Tended s t) (hturn : PaymentTurns st q s t)
    (hq : q.isSome = true → (s.payment st).isSome = true ∨ s.gathering st = none) : KeepsFrozen s t := by
  intro st' hbusy
  refine ⟨?_, h.gathering_eq_none⟩
  unfold State.payIdle at hbusy ⊢
  by_cases e : st' = st
  · subst e
    rw [hturn.there] at hbusy
    exact (hq (by simpa [Option.isSome_iff_ne_none] using hbusy)).imp_left (by simp [Option.isSome_iff_ne_none])
  · exact .inl (by rwa [hturn.elsewhere st' e] at hbusy)

/-- HOLD-SEAT makes a hold gather at an idle station alone (R24). -/
theorem keepsFrozen_claim {s : State} {st : Station} {n : Nat} {h : Hold} (hidle : s.payIdle st = true)
    (hown : h.owner = .station st) (slot : Nat) (ps : List SeatPos) (f : Seat → Seat) :
    KeepsFrozen s (putHold n h (mapSeats slot ps f s)) := by
  have hholds : (putHold n h (mapSeats slot ps f s)).holds = s.holds.put n h := by rw [mapSeats_frame]; rfl
  have hpay : (putHold n h (mapSeats slot ps f s)).payment = s.payment := (ledger_mapSeats ..).payment
  intro st' hbusy
  have hbusy := payIdle_of_payment hpay st' hbusy
  refine ⟨.inl hbusy, fun hg => gathering_eq_none.mpr fun e he ho => ?_⟩
  rw [hholds] at he
  rcases Tbl.mem_put he with rfl | he
  · obtain rfl : st' = st := Owner.station.inj (ho.symm.trans hown)
    rw [hidle] at hbusy; cases hbusy
  · exact gathering_eq_none.mp hg e he ho

/-! ### Sales beside payments -/

theorem pays_commit (st : Station) (auth : Auth) (room : Nat) (s : State) : (commit st auth room s).pays = s.pays := by
  obtain ⟨_, _, hframe⟩ := commit_frame st auth room s
  rw [hframe]

theorem payment_takeSiteSell (tag : Tag) (n : Nat) (h : Hold) (ref : Chars 8) (m : Summary) (s : State) :
    (takeSiteSell tag n h ref m s).payment = s.payment := by
  obtain ⟨_, _, hframe⟩ := enterSale_frame s.freshSale (saleOf s m .remote (some h.slot) none none .notApplicable (some ref)) m
    [n] false s
  unfold takeSiteSell
  dsimp only
  split
  · rw [hframe]; rfl
  · unfold replySite
    rw [emit_frame, writeFree_frame, hframe]; rfl

theorem payment_takeRefund (tag : Tag) (n : Nat) (x : Sale) (s : State) : (takeRefund tag n x s).payment = s.payment := by
  have written (amount : Nat) (body : JournalBody) (u : State) : (writeFree (some n) amount body u).payment = u.payment := by
    rw [writeFree_frame]; rfl
  have seats := (LedgerKept.foldl (fun s (l : SaleSeat) => mapSeats l.ref.slot [refPos l.ref] Seat.refund s)
    (fun s l => ledger_mapSeats ..) x.seats s).payment
  have vouchers (u : State) := (LedgerKept.foldl (fun s v => voidVoucher v s) (fun s v => ledger_voidVoucher v s) x.serials u).payment
  exact (ledger_emit ..).payment.trans ((ledger_modifySale ..).payment.trans ((written ..).trans
    ((ledger_removeOrders n _).payment.trans ((vouchers _).trans seats))))

/-! ### Every move -/

theorem Move.keepsFrozen {s t : State} (h : Move s t) : KeepsFrozen s t := by
  cases h with
  | quiet h hv => exact .of_same (tended_of_books h hv) (congrArg Books.payment h)
  | restarts h _ =>
    have hnone : ∀ st, State.reset.payIdle st = true := by decide
    intro st hbusy
    rw [State.payIdle, show t.payment = State.reset.payment from congrArg Books.payment h] at hbusy
    exact absurd (hnone st) (by rw [State.payIdle, hbusy]; decide)
  | begins | loads | turns | abandons | edits | retires | amends => exact fun _ hbusy => ⟨.inl hbusy, id⟩
  | touches _ _ hf => exact .of_same (tended_mapSeats fun x => (hf x).pos) (ledger_mapSeats ..).payment
  | @claims st n h r x w hidle _ _ _ _ hn =>
    refine keepsFrozen_claim hidle ?_ _ _ _
    exact hn.elim (fun ⟨_, ho, _⟩ => ho) (fun ⟨_, e⟩ => by rw [e]; rfl)
  | siteHolds _ _ hphase _ _ _ =>
    exact .of_same ((tended_putHold _ _ fun h => by rw [hphase] at h; cases h).after (tended_mapSeats fun _ => rfl))
      ((ledger_putHold ..).after (ledger_mapSeats ..)).payment
  | closes _ _ _ =>
    exact .of_same ((tended_joinBasket ..).after ((tended_putHold _ _ fun h => by cases h).after (tended_mapSeats fun _ => rfl)))
      ((ledger_joinBasket ..).after ((ledger_putHold ..).after (ledger_mapSeats ..))).payment
  | releases _ _ => exact .of_same (tended_releaseHold ..) (ledger_releaseHold ..).payment
  | drops _ _ _ _ =>
    exact .of_same ((tended_basketLoses ..).after ((tended_setBasket ..).after (tended_releaseHold ..)))
      ((ledger_basketLoses ..).after ((ledger_setBasket ..).after (ledger_releaseHold ..))).payment
  | empties _ => exact .of_same (tended_emptyBasket ..) (ledger_emptyBasket ..).payment
  | accepts tag h =>
    obtain ⟨_, hg, _⟩ := payRefusal_none h
    obtain ⟨c, _, _, _, _, _, hframe⟩ := acceptPay_frame _ tag s
    exact .of_turn (tended_acceptPay ..) (paymentTurns_of_pays (c := c) (by rw [hframe])) (fun _ => .inr hg)
  | proceeds hp _ _ _ _ => exact .of_turn (tended_setPayment ..) (paymentTurns_of_pays rfl) (fun _ => .inl (by rw [hp]; rfl))
  | @ends st _ _ _ _ =>
    exact .of_turn (tended_endWithoutSale ..)
      (paymentTurns_of_pays (c := { s.pay st with current := none }) (by rw [endWithoutSale_frame])) nofun
  | @reverses st _ _ _ _ _ _ =>
    exact .of_turn (tended_reverseAndEnd ..)
      (paymentTurns_of_pays (c := { s.pay st with current := none }) (by rw [reverseAndEnd_frame])) nofun
  | captures _ _ _ => exact .of_turn (tended_endCapture ..) turns_endCapture nofun
  | commits hp _ _ _ _ =>
    exact .of_turn ((tended_setPayment ..).after (tended_commit ..))
      (paymentTurns_of_pays (by rw [setPayment_pays, pays_commit])) (fun _ => .inl (by rw [hp]; rfl))
  | sells => exact .of_same (tended_takeSiteSell ..) (payment_takeSiteSell ..)
  | refunds => exact .of_same (tended_takeRefund ..) (payment_takeRefund ..)
  | journals k h _ hv =>
    obtain ⟨h1, h2, h3, _, hp, _⟩ := Books.mk.inj h
    exact .of_same (.of_tables h1 h2 h3 hv) hp

/-- Settles O9: every step is a sequence of moves; under none does a payment meet a hold that gathers. -/
theorem paymentsKeepHoldsFrozen : Obligations.PaymentsKeepHoldsFrozen :=
  fun _ _ hs h => step_preserves_of_move (fun hm => hm.keepsFrozen.freeze) h hs

end Sys2Proof.Machine
end

section
/-! Holds taken and ended past the checks of their requests: seats let go and site holds ended (O28), the seat that HOLD-SEAT
claims (O29), and SITE-HOLD (O33). -/

namespace Sys2Proof.Machine

/-! ### A seat let go (R13) -/

theorem release_of_marked {x : Seat} {n : Nat} (h : x.inHold n) (hm : x.mark = true) :
    x.release = { x with state := .blocked, mark := false } := by
  rcases h with h | h <;> simp [Seat.release, h, hm]

theorem release_of_unmarked {x : Seat} {n : Nat} (h : x.inHold n) (hm : x.mark = false) : x.release = { x with state := .free } := by
  rcases h with h | h <;> simp [Seat.release, h, hm]

theorem releaseHold_of_hold {n : Nat} {h : Hold} {s : State} (hn : s.hold n = some h) :
    releaseHold n s = delHold n (mapSeats h.slot h.seats Seat.release s) := by simp [releaseHold, hn]

/-! ### The ends of a site hold (R42, R43) -/

section

variable (tag : Tag) {n : Nat} (ref : Chars 8) {s : State}

theorem siteRelease_of_range (h : 64 ≤ n) : siteRelease tag n ref s = emit .site (.reply tag .badField []) s := by
  have hno : holdOk n = false := decide_eq_false (Nat.not_lt.mpr h)
  simp [siteRelease, hno, replySite]

theorem siteRelease_of_hold (hlt : n < 64) {h : Hold} (hn : s.hold n = some h) (ho : h.owner = .site) (hr : h.ref = some ref) :
    siteRelease tag n ref s = emit .site (.reply tag .ok [.seatsReleased h.seats.length])
      (delHold n (mapSeats h.slot h.seats Seat.release s)) := by
  have hok : holdOk n = true := decide_eq_true hlt
  simp [siteRelease, hok, hn, ho, hr, releaseHold_of_hold hn, replySite]

theorem siteRelease_of_other (hlt : n < 64) (h : ∀ g, s.hold n = some g → g.owner ≠ .site ∨ g.ref ≠ some ref) :
    siteRelease tag n ref s = emit .site (.reply tag .notFound []) s := by
  have hok : holdOk n = true := decide_eq_true hlt
  cases hn : s.hold n with
  | none => simp [siteRelease, hok, hn, replySite]
  | some g =>
    have hno : ¬(g.owner = .site ∧ g.ref = some ref) := fun ⟨ho, hr⟩ => (h g hn).elim (· ho) (· hr)
    simp [siteRelease, hok, hn, hno, replySite]

theorem ownReached_of_hold {h : Hold} (hn : s.hold n = some h) (ho : h.owner = .site) (hw : h.own.isSome = true) :
    ownReached n s = emit .site (.holdExpired n h.ref h.slot h.seats.length)
      (delHold n (mapSeats h.slot h.seats Seat.release s)) := by
  simp [ownReached, hn, ho, expires, hw, releaseHold_of_hold hn]

end

/-- Settles O28: the state and the mark of a seat decide its release; a site hold ends by each of its two ways. -/
theorem releasesAndSiteHoldEnds : Obligations.ReleasesAndSiteHoldEnds :=
  ⟨fun _ _ => ⟨fun h => ⟨release_of_marked h, release_of_unmarked h⟩, rfl, rfl⟩,
    fun tag _ ref _ => ⟨fun h => congrArg _ (siteRelease_of_range tag ref h),
      fun _ hn ho => ⟨fun hlt hr => congrArg _ (siteRelease_of_hold tag ref hlt hn ho hr),
        fun hw => congrArg _ (ownReached_of_hold hn ho hw)⟩,
      fun hlt h => congrArg _ (siteRelease_of_other tag ref hlt h)⟩⟩

/-! ### The lowest-numbered free record (R22) -/

theorem lowestFree_of_least {s : State} {bound n : Nat} (hlt : n < bound) (hn : s.hold n = none)
    (hleast : ∀ m < n, s.hold m ≠ none) : s.holds.lowestFree bound = some n := by
  refine List.find?_range_eq_some.mpr ⟨?_, List.mem_range.mpr hlt, fun m hm => ?_⟩
  · exact Option.isNone_iff_eq_none.mpr hn
  · have : s.holds.find m ≠ none := hleast m hm
    simpa [Option.isSome_iff_ne_none] using this

/-! ### HOLD-SEAT (R24, R25, R26) -/

/-- A seat that no check of Table 2-3 refuses: it is FREE in an OPEN slot, the station's holds stand in that slot and list fewer
than ten seats, and the station has a hold that gathers or a hold to spare. -/
theorem holdSeatRefusal_eq_none {st : Station} {r : SeatRef} {x : Seat} {s : State} (hidle : s.payIdle st = true)
    (hopen : s.slotState r.slot = .opened) (hx : s.seat r.slot (refPos r) = some x) (hfree : x.state = .free)
    (hone : ∀ e ∈ s.holds, e.2.owner = .station st → e.2.slot = r.slot) (hseats : holdSeats (s.holdsOf (.station st)) < 10)
    (hholds : (s.gathering st).isSome = true ∨ (s.holdsOf (.station st)).length < 4) : holdSeatRefusal st r s = none := by
  have hmine : (s.holdsOf (.station st)).find? (fun e => decide (e.2.slot ≠ r.slot)) = none := by
    refine List.find?_eq_none.mpr fun e he => ?_
    obtain ⟨he, ho⟩ := List.mem_filter.mp he
    simpa using hone e he (of_decide_eq_true ho)
  have hlimit : ¬ Config.stationSeats ≤ holdSeats (s.holdsOf (.station st)) := Nat.not_le.mpr hseats
  have hroom : ¬((s.gathering st).isNone = true ∧ Config.stationHolds ≤ (s.holdsOf (.station st)).length) := fun ⟨hnone, hfull⟩ =>
    hholds.elim (fun hsome => by simp_all) (fun hlt => absurd hfull (Nat.not_le.mpr hlt))
  unfold holdSeatRefusal
  simp only [hidle, hopen, hx, hmine, hfree, hlimit, hroom, State.ownHold]
  rfl

theorem seatRefOk_of {r : SeatRef} (h1 : 1 ≤ r.slot) (h2 : r.slot ≤ 32) (h3 : 1 ≤ r.row) (h4 : r.row ≤ 40) (h5 : 1 ≤ r.num)
    (h6 : r.num ≤ 80) : seatRefOk r = true := by
  have hnum : seatNumOk r.num = true := within_iff.mpr ⟨h5, h6⟩
  simp [seatRefOk, slotOk_of h1 h2, rowOk_of h3 h4, hnum]

section

variable {st : Station} (tag : Tag) {r : SeatRef} {s : State} {n : Nat} (hr : seatRefOk r = true)
  (hnone : holdSeatRefusal st r s = none)

include hr hnone

theorem holdSeat_of_gathering {h : Hold} (hg : s.gathering st = some (n, h)) : holdSeat st tag r s = claimSeat st tag r n h s := by
  simp [holdSeat, hr, hnone, hg]

theorem holdSeat_of_none (hg : s.gathering st = none) (hn : s.holds.lowestFree Config.holdRecords = some n) :
    holdSeat st tag r s = claimSeat st tag r n (newHold st r.slot) s := by
  simp [holdSeat, hr, hnone, hg, hn]

end

/-- Settles O29: no check refuses, and the seat is claimed in the hold that gathers or in the lowest-numbered free record. -/
theorem holdSeatAdds : Obligations.HoldSeatAdds := by
  intro st tag r x s htakes h1 h2 h3 h4 h5 h6 hidle hopen hx hfree hone hseats
  have hr := seatRefOk_of h1 h2 h3 h4 h5 h6
  have hnone := holdSeatRefusal_eq_none hidle hopen hx hfree hone hseats
  refine ⟨fun n hg hlen hlt hn hleast => ?_, fun n h hg => ?_⟩ <;>
    refine congrArg Host.Outcome.next ((stationRequest_of_takes htakes tag _).trans ?_)
  · exact holdSeat_of_none tag hr (hnone (.inr hlen)) hg (lowestFree_of_least hlt hn hleast)
  · refine (holdSeat_of_gathering tag hr (hnone (.inl (by rw [hg]; rfl))) hg).trans ?_
    simp [claimSeat, replyStation, refPos, deadlineIn]

/-! ### SITE-HOLD (R40, R41) -/

/-- A list of seats in range, none given twice, has no entry at fault. -/
theorem firstEntryFault_siteSeatFault : ∀ (rest before : List SeatPos),
    (∀ p ∈ rest, 1 ≤ p.row ∧ p.row ≤ 40 ∧ 1 ≤ p.num ∧ p.num ≤ 80) → (before ++ rest).Nodup → firstEntryFault siteSeatFault before rest = none
  | [], _, _, _ => rfl
  | p :: rest, before, hrange, hnodup => by
    obtain ⟨hrow, hrow', hnum, hnum'⟩ := hrange p List.mem_cons_self
    have hnew : p ∉ before := fun hp => (List.disjoint_of_nodup_append hnodup) hp List.mem_cons_self
    have hok : siteSeatFault before p = none := by
      refine firstFault_eq_none.mpr fun e he => ?_
      simp only [List.mem_cons, List.not_mem_nil, or_false] at he
      rcases he with rfl | rfl | rfl
      · exact rowOk_of hrow hrow'
      · exact within_iff.mpr ⟨hnum, hnum'⟩
      · simpa using hnew
    simp only [firstEntryFault, hok]
    exact firstEntryFault_siteSeatFault rest _ (fun q hq => hrange q (List.mem_cons_of_mem _ hq)) (by simpa using hnodup)

theorem siteHoldFault_eq_none {slot : Nat} {ps : List SeatPos} {seconds : Nat} (hslot : slotOk slot = true)
    (hlen : within 1 10 ps.length = true) (hps : firstEntryFault siteSeatFault [] ps = none) (hsec : within 60 1800 seconds = true) :
    siteHoldFault slot ps seconds = none := by
  simp [siteHoldFault, hslot, hlen, hps, hsec]

theorem siteHoldRefusal_eq_none {slot : Nat} {ps : List SeatPos} {sc : Screening} {s : State} (hsc : s.screening slot = some sc)
    (hopen : sc.phase = .opened) (hfree : ∀ p ∈ ps, ∃ x, sc.seat p = some x ∧ x.state = .free)
    (hholds : (s.holdsOf .site).length < 32) (hjudge : judge sc ps = .ok ps) : siteHoldRefusal slot ps s = none := by
  have hfound : ps.find? (fun p => (sc.seat p).isNone) = none := by
    refine List.find?_eq_none.mpr fun p hp => ?_
    obtain ⟨x, hx, _⟩ := hfree p hp
    simp [hx]
  have hall : (ps.filterMap sc.seat).find? (fun x => decide (x.state ≠ .free)) = none := by
    refine List.find?_eq_none.mpr fun x hx => ?_
    obtain ⟨p, hp, hpx⟩ := List.mem_filterMap.mp hx
    obtain ⟨y, hy, hstate⟩ := hfree p hp
    rw [hpx] at hy; cases hy
    simp [hstate]
  have hroom : ¬ Config.siteHolds ≤ (s.holdsOf .site).length := Nat.not_le.mpr hholds
  simp only [siteHoldRefusal, hsc, hopen, hfound, hall, hroom, hjudge]
  rfl

/-- Settles O33: no field is at fault and no check refuses, so the hold takes the lowest-numbered free record. -/
theorem siteHoldTaken : Obligations.SiteHoldTaken := by
  intro tag slot ps seconds ref sc n s h1 h2 h3 h4 hnodup hrange h5 h6 hsc hopen hfree hholds hjudge hlt hn hleast
  have hfault := siteHoldFault_eq_none (slotOk_of h1 h2) (within_iff.mpr ⟨h3, h4⟩)
    (firstEntryFault_siteSeatFault ps [] hrange hnodup) (within_iff.mpr ⟨h5, h6⟩)
  have hrefusal := siteHoldRefusal_eq_none hsc hopen hfree hholds hjudge
  have hfound : s.holds.lowestFree Config.holdRecords = some n := lowestFree_of_least hlt hn hleast
  refine congrArg Host.Outcome.next (?_ : siteHold tag slot ps seconds ref s = takeSiteHold tag slot ps seconds ref n s)
  simp only [siteHold, hfault, hrefusal, hfound]

end Sys2Proof.Machine
end

section
/-! The seat-placement rules and the close of a hold that gathers (R26 to R33): the rules and the close that fails (O31), and the
close that passes (O30). -/

namespace Sys2Proof.Machine

/-! ### The companion rule (R29) -/

/-- The first member of a list that meets a condition. -/
theorem find?_eq_some_of_first {α : Type} {p : α → Bool} {l before behind : List α} {x : α} (h : l = before ++ x :: behind)
    (hx : p x = true) (hbefore : ∀ y ∈ before, p y = false) : l.find? p = some x :=
  List.find?_eq_some_iff_append.mpr ⟨hx, before, behind, h, fun y hy => by simp [hbefore y hy]⟩

section

variable {sc : Screening} {ps : List SeatPos}

theorem companionFault_of_wheelchair (h : ∃ x ∈ sc.seats, x.pos ∈ ps ∧ x.kind = .wheelchair) : companionFault sc ps = none := by
  have hany : sc.seats.any (fun x => decide (x.pos ∈ ps) && decide (x.kind = .wheelchair)) = true := by simpa using h
  simp only [companionFault, hany, if_true]

theorem companionFault_of_no_companion (h : ∀ x ∈ sc.seats, x.pos ∈ ps → x.kind ≠ .companion) : companionFault sc ps = none := by
  have hnone : sc.seats.find? (fun x => decide (x.pos ∈ ps) && decide (x.kind = .companion)) = none := by simpa using h
  simp [companionFault, hnone]

theorem companionFault_of_first {before behind : List Seat} {x : Seat} (hseats : sc.seats = before ++ x :: behind) (hx : x.pos ∈ ps)
    (hkind : x.kind = .companion) (hbefore : ∀ y ∈ before, y.pos ∈ ps → y.kind ≠ .companion)
    (hno : ∀ y ∈ sc.seats, y.pos ∈ ps → y.kind ≠ .wheelchair) : companionFault sc ps = some x.pos := by
  have hany : sc.seats.any (fun x => decide (x.pos ∈ ps) && decide (x.kind = .wheelchair)) = false := by
    simpa [List.any_eq_false] using hno
  have hfind : sc.seats.find? (fun x => decide (x.pos ∈ ps) && decide (x.kind = .companion)) = some x :=
    find?_eq_some_of_first hseats (by simp [hx, hkind]) (fun y hy => by simpa using hbefore y hy)
  simp [companionFault, hany, hfind]

/-! ### The gap rule (R30, R31) -/

theorem isOpen_iff {x : Seat} : isOpen ps x = true ↔ x.state = .free ∧ x.pos ∉ ps := by simp [isOpen]

theorem occupied_iff {y : Option Seat} : occupied ps y = true ↔ ∀ z, y = some z → z.state ≠ .free ∨ z.pos ∈ ps := by
  cases y with
  | none => simp [occupied]
  | some z => simp [occupied, isOpen]

theorem ofHold_iff {y : Option Seat} : ofHold ps y = true ↔ ∃ z, y = some z ∧ z.pos ∈ ps := by
  cases y <;> simp [ofHold]

theorem stranded_iff {x : Seat} (hx : 1 ≤ x.runPos) : stranded sc ps x = true ↔
    x.state = .free ∧ x.pos ∉ ps ∧ (x.kind = .ordinary ∨ x.kind = .companion) ∧
      occupied ps (seatAt sc x.runId (x.runPos - 1)) = true ∧ occupied ps (seatAt sc x.runId (x.runPos + 1)) = true ∧
      (ofHold ps (seatAt sc x.runId (x.runPos - 1)) = true ∨ ofHold ps (seatAt sc x.runId (x.runPos + 1)) = true) := by
  simp [stranded, Nat.ne_of_gt hx, isOpen_iff, and_assoc]

theorem gapFault_of_none (h : ∀ x ∈ sc.seats, stranded sc ps x = false) : gapFault sc ps = none := by
  have hnone : sc.seats.find? (stranded sc ps) = none := by simpa [List.find?_eq_none] using h
  simp [gapFault, hnone]

theorem gapFault_of_first {before behind : List Seat} {x : Seat} (hseats : sc.seats = before ++ x :: behind)
    (hbefore : ∀ y ∈ before, stranded sc ps y = false) (hx : stranded sc ps x = true) : gapFault sc ps = some x.pos := by
  simp [gapFault, find?_eq_some_of_first hseats hx hbefore]

/-! ### The judgement (R28) -/

theorem judge_of_companion {p : SeatPos} (h : companionFault sc ps = some p) : judge sc ps = .companion p := by simp [judge, h]

theorem judge_of_met (hc : companionFault sc ps = none) (hg : sc.gapRule = false ∨ gapFault sc ps = none) : judge sc ps = .ok ps := by
  rcases hg with hg | hg <;> simp [judge, hc, hg]

theorem judge_of_gap {p : SeatPos} (hc : companionFault sc ps = none) (hrule : sc.gapRule = true) (hg : gapFault sc ps = some p) :
    judge sc ps = .gap p := by simp [judge, hc, hrule, hg]

/-- A judgement that is met lists the seats judged. -/
theorem eq_of_judge_ok {qs : List SeatPos} (h : judge sc ps = .ok qs) : qs = ps := by
  unfold judge at h
  split at h
  · cases h
  · split at h
    · split at h
      · cases h
      · cases h; rfl
    · cases h; rfl

/-! ### The close (R27, R28, R32, R33) -/

variable {st : Station} {n : Nat} {h : Hold} {s : State}

theorem closeHold_of_ok (hsc : s.screening h.slot = some sc) (hj : judge sc h.seats = .ok h.seats) :
    closeHold st n h s = closePasses st n h s := by simp [closeHold, hsc, hj]

theorem closeHold_of_fault {r : CloseResult} (hsc : s.screening h.slot = some sc) (hj : judge sc h.seats = r) (hr : r ≠ .ok h.seats) :
    closeHold st n h s = closeFails st n h r s := by
  cases r with
  | ok qs => exact absurd (congrArg CloseResult.ok (eq_of_judge_ok hj)) hr
  | companion p => simp [closeHold, hsc, hj]
  | gap p => simp [closeHold, hsc, hj]

theorem holdClose_of_gathering (tag : Tag) (hg : s.gathering st = some (n, h)) :
    holdClose st tag s = closeHold st n h (emit (.station st) (.reply tag .closing [.holdNumber n]) s) := by
  simp [holdClose, hg, replyStation]

theorem holdClose_of_none (tag : Tag) (hg : s.gathering st = none) :
    holdClose st tag s = emit (.station st) (.reply tag .noHold []) s := by simp [holdClose, hg, replyStation]

theorem windowReached_of_gathering (hg : s.gathering st = some (n, h)) (hn : s.hold n = some h) (hw : h.window.isSome = true) :
    windowReached n s = closeHold st n h s := by
  obtain ⟨_, howner, hphase⟩ := gathering_mem hg
  simp [windowReached, hn, howner, hphase, expires, hw]

end

@[simp] theorem screening_emit (l : Line) (r : OutRec) (s : State) (slot : Nat) : (emit l r s).screening slot = s.screening slot := by
  simp [State.screening]

@[simp] theorem hold_emit (l : Line) (r : OutRec) (s : State) (n : Nat) : (emit l r s).hold n = s.hold n := by simp [State.hold]

@[simp] theorem basket_emit (l : Line) (r : OutRec) (s : State) (st : Station) : (emit l r s).basket st = s.basket st := by
  simp [State.basket]

/-- A record put out and an operation that neither reads nor changes the lines come in either order. -/
theorem emit_comm {f : State → State} (hf : ∀ s ls, f { s with lines := ls } = { f s with lines := ls }) (l : Line) (r : OutRec)
    (s : State) : f (emit l r s) = emit l r (f s) := by
  have hself : f s = { f s with lines := s.lines } := hf s s.lines
  have hlines : (f s).lines = s.lines := by rw [hself]
  unfold emit modifyLine setLine State.isLost State.line
  rw [hlines]
  split
  · rfl
  · exact hf s _

theorem mapSeats_with_lines (slot : Nat) (ps : List SeatPos) (f : Seat → Seat) (s : State) (ls : Vector LineRec 25) :
    mapSeats slot ps f { s with lines := ls } = { mapSeats slot ps f s with lines := ls } := by
  have : State.screening { s with lines := ls } slot = s.screening slot := rfl
  unfold mapSeats
  rw [this]
  split <;> rfl

/-- A close that fails after a record has been put out. -/
theorem closeFails_emit {st : Station} {n : Nat} {h : Hold} {s : State} (hn : s.hold n = some h) (r : CloseResult) (l : Line)
    (x : OutRec) : closeFails st n h r (emit l x s) =
      emit (.station st) (.holdClosed n h.slot r) (emit l x (delHold n (mapSeats h.slot h.seats Seat.release s))) := by
  unfold closeFails
  rw [releaseHold_of_hold (by simpa using hn)]
  exact congrArg _ (emit_comm (f := fun s => delHold n (mapSeats h.slot h.seats Seat.release s))
    (fun s ls => by rw [mapSeats_with_lines]; rfl) l x s)

theorem closeFails_of_hold {st : Station} {n : Nat} {h : Hold} {s : State} (hn : s.hold n = some h) (r : CloseResult) :
    closeFails st n h r s =
      emit (.station st) (.holdClosed n h.slot r) (delHold n (mapSeats h.slot h.seats Seat.release s)) := by
  unfold closeFails
  rw [releaseHold_of_hold hn]

/-- Settles O31: the rules by their first offender, and the failed close as a release of the hold. -/
theorem companionRuleAndFailedClose : Obligations.CompanionRuleAndFailedClose := by
  refine ⟨fun sc ps => ⟨companionFault_of_wheelchair, companionFault_of_no_companion, fun _ _ _ => companionFault_of_first⟩,
    fun sc ps => ⟨fun x hx => ?_, gapFault_of_none, fun _ _ _ => gapFault_of_first, fun _ => judge_of_companion,
      fun hc => ⟨judge_of_met hc, fun _ => judge_of_gap hc⟩⟩,
    fun st n h sc r s hg hn hsc hj hr => ⟨fun hw => ?_, fun tag htakes => ?_⟩,
    fun st tag s htakes hg => congrArg _ ((stationRequest_of_takes htakes tag _).trans (holdClose_of_none tag hg))⟩
  · rw [stranded_iff hx, occupied_iff, occupied_iff, ofHold_iff, ofHold_iff]
    rfl
  · refine congrArg Host.Outcome.next ((windowReached_of_gathering hg hn hw).trans ?_)
    rw [closeHold_of_fault hsc hj hr, closeFails_of_hold hn]
  · refine congrArg Host.Outcome.next ((stationRequest_of_takes htakes tag _).trans ((holdClose_of_gathering tag hg).trans ?_))
    rw [closeHold_of_fault (by simpa using hsc) hj hr, closeFails_emit hn]

end Sys2Proof.Machine
end

section
/-! The close of a hold that meets the placement rules: what it leaves of seats, holds and basket (R32, R48, R49, R54, R55): O30. -/

namespace Sys2Proof.Machine

/-! ### The default category (R49) -/

/-- A category is the default of a seat: 0, but for a COMPANION seat the lowest-numbered companion-only category of the tariff. -/
def IsDefaultCategory (s : State) (ref : SeatRef) (cat : Nat) : Prop :=
  (s.kindOf ref ≠ .companion ∨ s.tariff = none → cat = 0) ∧
    ∀ f, s.kindOf ref = .companion → s.tariff = some f → f.cats.Pairwise (fun c d => c.num < d.num) →
      ((∀ c ∈ f.cats, c.companionOnly = false) → cat = 0) ∧
      ∀ c ∈ f.cats, c.companionOnly = true → (∀ d ∈ f.cats, d.companionOnly = true → c.num ≤ d.num) → cat = c.num

theorem defaultCategory_eq_zero {s : State} {k : SeatKind} (h : k ≠ .companion ∨ s.tariff = none) : s.defaultCategory k = 0 := by
  unfold State.defaultCategory
  split
  · next ht => exact h.elim (absurd rfl) (fun hno => by rw [hno] at ht; cases ht)
  · rfl

theorem defaultCategory_companion {s : State} {f : Tariff} (h : s.tariff = some f) :
    s.defaultCategory .companion = ((f.cats.find? (fun c => c.companionOnly)).map (·.num)).getD 0 := by simp [State.defaultCategory, h]

/-- In a list of rising numbers the first member that meets a condition has the lowest number of those that do. -/
theorem find?_num_of_least {l : List Category} {p : Category → Bool} (hl : l.Pairwise (fun c d => c.num < d.num)) {c : Category}
    (hc : c ∈ l) (hp : p c = true) (hleast : ∀ d ∈ l, p d = true → c.num ≤ d.num) : (l.find? p).map (·.num) = some c.num := by
  obtain ⟨d, hd⟩ := Option.isSome_iff_exists.mp (List.find?_isSome.mpr ⟨c, hc, hp⟩)
  obtain ⟨hpd, before, behind, rfl, hbefore⟩ := List.find?_eq_some_iff_append.mp hd
  have hcd : c.num ≤ d.num := hleast d (by simp) hpd
  rw [hd]
  rcases List.mem_append.mp hc with hc | hc
  · exact absurd hp (by simpa using hbefore c hc)
  · rcases List.mem_cons.mp hc with rfl | hc
    · rfl
    · have hlt : d.num < c.num := (List.pairwise_cons.mp (List.pairwise_append.mp hl).2.1).1 c hc
      omega

theorem isDefaultCategory_defaultCategory (s : State) (ref : SeatRef) :
    IsDefaultCategory s ref (s.defaultCategory (s.kindOf ref)) := by
  refine ⟨defaultCategory_eq_zero, fun f hkind hf hl => ?_⟩
  rw [hkind, defaultCategory_companion hf]
  refine ⟨fun hno => ?_, fun c hc hp hleast => ?_⟩
  · rw [List.find?_eq_none.mpr fun c hc => by simp [hno c hc]]; rfl
  · rw [find?_num_of_least hl hc hp hleast]; rfl

/-- Seats changed without their places and kinds keep the kind that a reference finds. -/
theorem kindOf_mapSeats {f : Seat → Seat} (hpos : ∀ x, (f x).pos = x.pos) (hkind : ∀ x, (f x).kind = x.kind) (slot : Nat)
    (ps : List SeatPos) (s : State) (ref : SeatRef) : (mapSeats slot ps f s).kindOf ref = s.kindOf ref := by
  unfold State.kindOf
  rw [seat_mapSeats hpos]
  split
  · rw [Option.map_map, show (fun x : Seat => x.kind) ∘ f = (fun x => x.kind) from funext hkind]
  · rfl

/-! ### The seat lines and the basket of a hold that joins it (R48, R54, R55) -/

/-- The seat lines a hold brings: one for each of its seats in its add order, each with its default category. -/
structure BringsLines (s : State) (h : Hold) (lines : List SeatLine) : Prop where
  refs : lines.map (·.ref) = h.seats.map (fun p => ⟨h.slot, p.row, p.num⟩)
  cats : ∀ l ∈ lines, IsDefaultCategory s l.ref l.cat

theorem bringsLines_linesOf (s : State) (h : Hold) : BringsLines s h (s.linesOf h) where
  refs := by simp [State.linesOf]
  cats l hl := by
    obtain ⟨p, _, rfl⟩ := List.mem_map.mp hl
    exact isDefaultCategory_defaultCategory ..

theorem linesOf_congr {s u : State} (hkind : u.kindOf = s.kindOf) (htariff : u.tariff = s.tariff) (h : Hold) :
    u.linesOf h = s.linesOf h := by simp only [State.linesOf, State.defaultCategory, hkind, htariff]

theorem hollow_iff (b : Basket) : b.hollow = true ↔ b.holds = [] ∧ b.snacks = [] := by simp [Basket.hollow]

section

variable {st : Station} (n : Nat) (h : Hold) {s : State}

theorem basket_joinBasket_of_empty (hb : (s.basket st).hollow = true) : (joinBasket st n h s).basket st = { s.basket st with
    holds := [n], seatLines := (s.basket st).seatLines ++ s.linesOf h, summary := none, stale := false, payLoad := none,
    lapse := some ⟨s.timeBase, s.limits.holdTime * 1000⟩, start := s.timeBase, openHold := s.limits.holdTime,
    overdue := false, attempts := 0 } := by
  obtain ⟨hholds, _⟩ := (hollow_iff _).mp hb
  simp [joinBasket, basketGains, hb, basketOpens, modifyBasket, deadlineIn, hholds]

theorem basket_joinBasket_of_open (hb : (s.basket st).hollow = false) : (joinBasket st n h s).basket st = { s.basket st with
    holds := (s.basket st).holds ++ [n], seatLines := (s.basket st).seatLines ++ s.linesOf h, summary := none, stale := false,
    lapse := some ⟨s.timeBase, min (s.limits.holdTime * 1000)
      (3 * (s.basket st).openHold * 1000 - (s.timeBase - (s.basket st).start).toNat)⟩ } := by
  simp [joinBasket, basketGains, hb, basketChange, modifyBasket, lapseAfterChange, deadlineIn, elapsedSince]

end

/-- The basket of a station from `b` to `b'` by a hold that joins it under number `n` with its seat lines. -/
structure BasketJoined (now : Time) (holdTime n : Nat) (lines : List SeatLine) (b b' : Basket) : Prop where
  opens : b.holds = [] ∧ b.snacks = [] → b' = { b with
    holds := [n], seatLines := b.seatLines ++ lines, summary := none, stale := false, payLoad := none,
    lapse := some ⟨now, holdTime * 1000⟩, start := now, openHold := holdTime,
    overdue := false, attempts := 0 }
  changes : b.holds ≠ [] ∨ b.snacks ≠ [] → b' = { b with
    holds := b.holds ++ [n], seatLines := b.seatLines ++ lines, summary := none, stale := false,
    lapse := some ⟨now, min (holdTime * 1000)
      (3 * b.openHold * 1000 - (now - b.start).toNat)⟩ }

theorem basketJoined_joinBasket (st : Station) (n : Nat) (h : Hold) (s : State) :
    BasketJoined s.timeBase s.limits.holdTime n (s.linesOf h) (s.basket st) ((joinBasket st n h s).basket st) where
  opens hb := basket_joinBasket_of_empty n h ((hollow_iff _).mpr hb)
  changes hb := basket_joinBasket_of_open n h (by rw [Bool.eq_false_iff, Ne, hollow_iff]; tauto)

/-! ### The close that passes (R32) -/

/-- A hold that gathers closed from `s` to `t`: its seats HELD, its record STANDING, its basket joined, and nothing else changed
but what waits on the lines. -/
structure CloseTaken (st : Station) (n : Nat) (h : Hold) (s t : State) : Prop where
  frame : t = { s with
    screenings := (mapSeats h.slot h.seats (fun x => { x with state := .held n }) s).screenings,
    holds := s.holds.put n { h with phase := .standing, window := none },
    baskets := s.baskets.set st (t.basket st), lines := t.lines }
  joined : ∃ lines, BringsLines s h lines ∧ BasketJoined s.timeBase s.limits.holdTime n lines (s.basket st) (t.basket st)

section

variable (st : Station) (n : Nat) (h : Hold) (s : State)

/-- The state in which a hold that has closed joins its basket. -/
def standingHold : State :=
  putHold n { h with phase := .standing, window := none } (mapSeats h.slot h.seats (fun x => { x with state := .held n }) s)

theorem closePasses_eq : closePasses st n h s =
    emit (.station st) (.holdClosed n h.slot (.ok h.seats)) (joinBasket st n h (standingHold n h s)) := rfl

theorem standingHold_frame : standingHold n h s = { s with
    screenings := (mapSeats h.slot h.seats (fun x => { x with state := .held n }) s).screenings,
    holds := s.holds.put n { h with phase := .standing, window := none } } := by
  unfold standingHold; rw [mapSeats_frame]; rfl

theorem linesOf_standingHold : (standingHold n h s).linesOf h = s.linesOf h :=
  linesOf_congr (u := standingHold n h s)
    (funext (kindOf_mapSeats (f := fun x => { x with state := .held n }) (fun _ => rfl) (fun _ => rfl) h.slot h.seats s))
    (by rw [standingHold_frame]) h

/-- What joining a basket and putting out the notice leave of the rest. -/
theorem closePasses_frame : closePasses st n h s = { standingHold n h s with
    baskets := s.baskets.set st ((closePasses st n h s).basket st), lines := (closePasses st n h s).lines } := by
  have hbasket : (closePasses st n h s).basket st = (joinBasket st n h (standingHold n h s)).basket st := basket_emit ..
  have hbaskets : (standingHold n h s).baskets = s.baskets := by rw [standingHold_frame]
  have hframe := joinBasket_frame st n h (standingHold n h s)
  rw [hbasket, closePasses_eq, emit_frame, ← hbaskets]
  generalize joinBasket st n h (standingHold n h s) = u at hframe ⊢
  generalize u.basket st = b at hframe ⊢
  rw [hframe]

theorem closeTaken_closePasses : CloseTaken st n h s (closePasses st n h s) := by
  refine ⟨?_, s.linesOf h, bringsLines_linesOf s h, ?_⟩
  · have hframe := closePasses_frame st n h s
    rw [standingHold_frame] at hframe
    exact hframe
  · have hjoined := basketJoined_joinBasket st n h (standingHold n h s)
    rw [linesOf_standingHold] at hjoined
    have hbasket : (closePasses st n h s).basket st = (joinBasket st n h (standingHold n h s)).basket st := basket_emit ..
    rw [hbasket]
    generalize joinBasket st n h (standingHold n h s) = u at hjoined ⊢
    rw [standingHold_frame] at hjoined
    exact hjoined

end

/-- What a close takes does not hang on what waits on the lines. -/
theorem CloseTaken.of_emit {st : Station} {n : Nat} {h : Hold} {l : Line} {r : OutRec} {s t : State}
    (ht : CloseTaken st n h (emit l r s) t) : CloseTaken st n h s t := by
  obtain ⟨hframe, lines, ⟨hrefs, hcats⟩, hopens, hchanges⟩ := ht
  rw [emit_frame] at hframe hcats hopens hchanges
  exact ⟨by rw [mapSeats_with_lines] at hframe; exact hframe, lines, ⟨hrefs, hcats⟩, hopens, hchanges⟩

/-- The notice of a close stands last on the station line. -/
theorem out_closePasses (st : Station) (n : Nat) (h : Hold) {s : State} (hup : s.isLost (.station st) = false) :
    ((closePasses st n h s).line (.station st)).out =
      (s.line (.station st)).out ++ [.holdClosed n h.slot (.ok h.seats)] := by
  have hlines : (joinBasket st n h (standingHold n h s)).lines = s.lines := by rw [joinBasket_frame, standingHold_frame]
  have hline : (joinBasket st n h (standingHold n h s)).line (.station st) = s.line (.station st) := by
    unfold State.line; rw [hlines]
  rw [closePasses_eq, out_emit (by unfold State.isLost; rw [hline]; exact hup), hline]

/-- Settles O30 (its own name is the model's operation's): both commands reach the close that passes; HOLD-CLOSE answers CLOSING
before it. -/
theorem closePassesTaken : Obligations.ClosePasses := by
  intro st tag n h sc s hg hn hsc hj b default after
  have taken : ∀ t, CloseTaken st n h s t → after t := fun t ⟨hframe, lines, ⟨hrefs, hcats⟩, hopens, hchanges⟩ =>
    ⟨hframe, lines, hrefs, hcats, hopens, hchanges⟩
  refine ⟨fun htakes => ?_, fun hw => ?_⟩
  · refine ⟨_, congrArg Host.Outcome.next ((stationRequest_of_takes htakes tag _).trans ((holdClose_of_gathering tag hg).trans
      (closeHold_of_ok (by simpa using hsc) hj))), taken _ (closeTaken_closePasses st n h _).of_emit, fun hup => ?_⟩
    rw [out_closePasses st n h (by simpa using hup), out_emit hup]
    simp
  · exact ⟨_, congrArg Host.Outcome.next ((windowReached_of_gathering hg hn hw).trans (closeHold_of_ok hsc hj)),
      taken _ (closeTaken_closePasses st n h s), out_closePasses st n h⟩

end Sys2Proof.Machine
end

section
/-! What an emptying leaves of holds, seats, items and lines (R13, R35, R53, R58). -/

namespace Sys2Proof.Machine

/-! ### Seats let go twice -/

theorem release_of_unowned {x : Seat} (h : x.unowned) : x.release = x := by
  rcases h with h | h <;> simp [Seat.release, h]

theorem release_release (x : Seat) : x.release.release = x.release := by
  rcases release_cases x with h | ⟨h, _⟩
  · exact release_of_unowned h
  · rw [h, h]

theorem seat_releaseHold_of_listed {n : Nat} {h : Hold} {s : State} (hn : s.hold n = some h) {p : SeatPos} (hp : p ∈ h.seats) :
    (releaseHold n s).seat h.slot p = (s.seat h.slot p).map Seat.release := by
  rw [releaseHold_of_hold hn]
  exact (seat_mapSeats pos_release ..).trans (if_pos ⟨rfl, hp⟩)

theorem seat_releaseHold_of_other {n slot : Nat} {p : SeatPos} {s : State}
    (hno : ∀ h, s.hold n = some h → h.slot = slot → p ∉ h.seats) : (releaseHold n s).seat slot p = s.seat slot p := by
  unfold releaseHold
  split
  · next h hn => exact (seat_mapSeats pos_release ..).trans (if_neg fun ⟨hslot, hp⟩ => hno h hn hslot.symm hp)
  · rfl

/-- A seat that no hold can let go stays. -/
theorem seat_releaseHold_of_released {slot : Nat} {p : SeatPos} {y : Seat} (n : Nat) {s : State} (hy : s.seat slot p = some y)
    (hrel : y.release = y) : (releaseHold n s).seat slot p = some y := by
  by_cases hlisted : ∃ h, s.hold n = some h ∧ h.slot = slot ∧ p ∈ h.seats
  · obtain ⟨h, hn, rfl, hp⟩ := hlisted
    rw [seat_releaseHold_of_listed hn hp, hy, Option.map_some, hrel]
  · rw [seat_releaseHold_of_other fun h hn hslot hp => hlisted ⟨h, hn, hslot, hp⟩, hy]

/-! ### Holds let go one after the other -/

theorem basket_releaseHold (n : Nat) (s : State) (st : Station) : (releaseHold n s).basket st = s.basket st := by
  rw [releaseHold_frame]; rfl

theorem releases_frame (l : List Nat) (s : State) : l.foldl (fun s n => releaseHold n s) s = { s with
    holds := (l.foldl (fun s n => releaseHold n s) s).holds,
    screenings := (l.foldl (fun s n => releaseHold n s) s).screenings } :=
  (foldl_frame _ (fun s t => { s with holds := t.holds, screenings := t.screenings }) (fun s n => (releaseHold_frame n s).symm)
    (fun _ => rfl) (by rintro s t u h1 h2; rw [← h2, ← h1]) l s).symm

theorem seat_releaseHolds_of_released {slot : Nat} {p : SeatPos} {y : Seat} (hrel : y.release = y) (l : List Nat) (s : State)
    (hy : s.seat slot p = some y) : (l.foldl (fun s n => releaseHold n s) s).seat slot p = some y :=
  foldl_preserves (fun s => s.seat slot p = some y) _ (fun _ n h => seat_releaseHold_of_released n h hrel) l s hy

theorem seat_releaseHolds_of_listed {p : SeatPos} {m : Nat} {h : Hold} {y : Seat} (hp : p ∈ h.seats) : ∀ (l : List Nat) (s : State),
    m ∈ l → s.hold m = some h → s.seat h.slot p = some y →
    (l.foldl (fun s n => releaseHold n s) s).seat h.slot p = some y.release
  | n :: l, s, hm, hh, hy => by
    rw [List.foldl_cons]
    by_cases hlisted : ∃ g, s.hold n = some g ∧ g.slot = h.slot ∧ p ∈ g.seats
    · obtain ⟨g, hn, hslot, hpg⟩ := hlisted
      refine seat_releaseHolds_of_released (release_release y) l _ ?_
      rw [← hslot] at hy ⊢
      rw [seat_releaseHold_of_listed hn hpg, hy, Option.map_some]
    · have hne : m ≠ n := fun e => hlisted ⟨h, e ▸ hh, rfl, hp⟩
      refine seat_releaseHolds_of_listed hp l _ ((List.mem_cons.mp hm).resolve_left hne) ?_ ?_
      · rw [hold_releaseHold, if_neg hne, hh]
      · rw [seat_releaseHold_of_other fun g hn hslot hpg => hlisted ⟨g, hn, hslot, hpg⟩, hy]

theorem seat_releaseHolds_of_other {slot : Nat} {p : SeatPos} : ∀ (l : List Nat) (s : State),
    (∀ n ∈ l, ∀ h, s.hold n = some h → h.slot = slot → p ∉ h.seats) →
    (l.foldl (fun s n => releaseHold n s) s).seat slot p = s.seat slot p
  | [], _, _ => rfl
  | n :: l, s, hno => by
    rw [List.foldl_cons, seat_releaseHolds_of_other l, seat_releaseHold_of_other (hno n List.mem_cons_self)]
    intro m hm h hh
    rw [hold_releaseHold] at hh
    split at hh
    · cases hh
    · exact hno m (List.mem_cons_of_mem _ hm) h hh

/-! ### Units returned (R53, R166) -/

theorem item_returnUnits_ne {code k : Nat} (h : k ≠ code) (qty : Nat) (s : State) : (returnUnits code qty s).item k = s.item k := by
  unfold returnUnits
  rw [item_judgeLow, if_neg h, item_modifyItem, if_neg h]

theorem item_returnUnits {code : Nat} {x : Item} (qty : Nat) {s : State} (hx : s.item code = some x) :
    ∃ armed, (returnUnits code qty s).item code = some { x with reserved := x.reserved - qty, armed := armed } := by
  unfold returnUnits
  rw [item_judgeLow, if_pos rfl, item_modifyItem, if_pos rfl, hx]
  exact ⟨_, rfl⟩

theorem item_returned_of_other {k : Nat} : ∀ (l : List SnackLine) (s : State), (∀ x ∈ l, x.item ≠ k) →
    (l.foldl (fun s x => returnUnits x.item x.qty s) s).item k = s.item k
  | [], _, _ => rfl
  | x :: l, s, hno => by
    rw [List.foldl_cons, item_returned_of_other l _ fun y hy => hno y (List.mem_cons_of_mem _ hy),
      item_returnUnits_ne (hno x List.mem_cons_self).symm]

theorem item_returned_of_line {x : SnackLine} {i : Item} : ∀ (l : List SnackLine) (s : State), (l.map (·.item)).Nodup → x ∈ l →
    s.item x.item = some i → ∃ armed, (l.foldl (fun s x => returnUnits x.item x.qty s) s).item x.item =
      some { i with reserved := i.reserved - x.qty, armed := armed }
  | y :: l, s, hnodup, hx, hi => by
    obtain ⟨hy, hnodup⟩ := List.nodup_cons.mp hnodup
    rw [List.foldl_cons]
    rcases List.mem_cons.mp hx with rfl | hx
    · have hother : ∀ z ∈ l, z.item ≠ x.item := fun z hz e => hy (List.mem_map.mpr ⟨z, hz, e⟩)
      rw [item_returned_of_other l _ hother]
      exact item_returnUnits x.qty hi
    · have hne : x.item ≠ y.item := fun e => hy (List.mem_map.mpr ⟨x, hx, e⟩)
      exact item_returned_of_line l _ hnodup hx (by rw [item_returnUnits_ne hne, hi])

/-! What the returns put out: low notices on the site link, and nothing else. -/

theorem line_judgeLow_ne {l : Line} (h : l ≠ .site) (code : Nat) (s : State) : (judgeLow code s).line l = s.line l := by
  have set (x : Item) : (setItem code x s).line l = s.line l := by rw [setItem_frame]; rfl
  unfold judgeLow
  split
  · rfl
  · split
    · split
      · rw [line_emit_ne h]; exact set _
      · rfl
    · exact set _

theorem out_judgeLow (code : Nat) (s : State) :
    ∃ mid, ((judgeLow code s).line .site).out = (s.line .site).out ++ mid ∧ (judgeLow code s).isLost .site = s.isLost .site := by
  have set (x : Item) : (setItem code x s).line .site = s.line .site := by rw [setItem_frame]; rfl
  have lost (x : Item) : (setItem code x s).isLost .site = s.isLost .site := by unfold State.isLost; rw [set]
  unfold judgeLow
  split
  · exact ⟨[], by simp, rfl⟩
  · next x _ =>
    split
    · split
      · cases hl : s.isLost .site with
        | true => exact ⟨[], by rw [emit_of_lost (by rw [lost, hl])]; simp [set], by rw [isLost_emit, lost, hl]⟩
        | false => exact ⟨_, by rw [out_emit (by rw [lost, hl]), set], by rw [isLost_emit, lost, hl]⟩
      · exact ⟨[], by simp, rfl⟩
    · exact ⟨[], by simp [set], lost _⟩

theorem modifyItem_lines (code : Nat) (f : Item → Item) (s : State) : (modifyItem code f s).lines = s.lines := by
  rw [modifyItem_frame]

theorem line_modifyItem (l : Line) (code : Nat) (f : Item → Item) (s : State) : (modifyItem code f s).line l = s.line l := by
  unfold State.line; rw [modifyItem_lines]

theorem line_returnUnits_ne {l : Line} (h : l ≠ .site) (code qty : Nat) (s : State) : (returnUnits code qty s).line l = s.line l :=
  (line_judgeLow_ne h code _).trans (line_modifyItem ..)

theorem line_returned_ne {l : Line} (h : l ≠ .site) (snacks : List SnackLine) (s : State) :
    (snacks.foldl (fun s x => returnUnits x.item x.qty s) s).line l = s.line l :=
  foldl_keeps (·.line l) _ (fun s x => line_returnUnits_ne h x.item x.qty s) snacks s

theorem out_returned : ∀ (snacks : List SnackLine) (s : State),
    ∃ mid, ((snacks.foldl (fun s x => returnUnits x.item x.qty s) s).line .site).out = (s.line .site).out ++ mid ∧
      (snacks.foldl (fun s x => returnUnits x.item x.qty s) s).isLost .site = s.isLost .site
  | [], s => ⟨[], by simp, rfl⟩
  | x :: snacks, s => by
    obtain ⟨mid, hmid, hlost⟩ := out_judgeLow x.item (modifyItem x.item (fun i => { i with reserved := i.reserved - x.qty }) s)
    obtain ⟨rest, hrest, hlost'⟩ := out_returned snacks (returnUnits x.item x.qty s)
    rw [List.foldl_cons]
    refine ⟨mid ++ rest, ?_, hlost'.trans (hlost.trans (by unfold State.isLost; rw [line_modifyItem]))⟩
    rw [hrest, show (returnUnits x.item x.qty s).line .site = _ from rfl, returnUnits, hmid, line_modifyItem, List.append_assoc]

/-! ### A basket emptied that lets a list of holds go (R58) -/

/-- The basket of a station emptied: the holds of `l` let go, the units of its snack lines returned. -/
def emptyLetting (st : Station) (l : List Nat) (s : State) : State :=
  setBasket st Basket.vacant
    ((s.basket st).snacks.foldl (fun s x => returnUnits x.item x.qty s) (l.foldl (fun s n => releaseHold n s) s))

theorem emptyBasket_eq (st : Station) (s : State) : emptyBasket st s = emptyLetting st (s.holdsToRelease st) s := rfl

theorem emptyBasket_releaseHold (st : Station) (n : Nat) (s : State) :
    emptyBasket st (releaseHold n s) = emptyLetting st (n :: (releaseHold n s).holdsToRelease st) s := by
  rw [emptyBasket_eq, emptyLetting, basket_releaseHold]
  rfl

section

variable (st : Station) (l : List Nat) (s : State)

theorem emptyLetting_frame : emptyLetting st l s = { s with
    screenings := (emptyLetting st l s).screenings, holds := (emptyLetting st l s).holds, items := (emptyLetting st l s).items,
    baskets := s.baskets.set st Basket.vacant, lines := (emptyLetting st l s).lines } := by
  unfold emptyLetting
  rw [returned_frame, releases_frame]
  rfl

@[simp] theorem basket_emptyLetting : (emptyLetting st l s).basket st = Basket.vacant := basket_setBasket ..

theorem hold_emptyLetting (m : Nat) : (emptyLetting st l s).hold m = if m ∈ l then none else s.hold m := by
  rw [← hold_releaseHolds m l s, emptyLetting, returned_frame]
  rfl

theorem seat_emptyLetting (slot : Nat) (p : SeatPos) :
    (emptyLetting st l s).seat slot p = (l.foldl (fun s n => releaseHold n s) s).seat slot p := by
  rw [emptyLetting, returned_frame]
  rfl

theorem item_releases (code : Nat) : (l.foldl (fun s n => releaseHold n s) s).item code = s.item code := by
  rw [releases_frame]; rfl

theorem line_releases (x : Line) : (l.foldl (fun s n => releaseHold n s) s).line x = s.line x := by
  rw [releases_frame]; rfl

theorem line_emptyLetting_ne {x : Line} (h : x ≠ .site) : (emptyLetting st l s).line x = s.line x :=
  (line_returned_ne h _ _).trans (line_releases l s x)

theorem out_emptyLetting : ∃ mid, ((emptyLetting st l s).line .site).out = (s.line .site).out ++ mid ∧
    (emptyLetting st l s).isLost .site = s.isLost .site := by
  obtain ⟨mid, hmid, hlost⟩ := out_returned (s.basket st).snacks (l.foldl (fun s n => releaseHold n s) s)
  rw [line_releases] at hmid
  exact ⟨mid, hmid, hlost.trans (by unfold State.isLost; rw [line_releases])⟩

end

theorem basketEmptied_emptyLetting {st : Station} {l : List Nat} {s : State} (h : ∀ n ∈ (s.basket st).holds, n ∈ l) :
    BasketEmptied st s (emptyLetting st l s) := by
  refine ⟨basket_emptyLetting .., fun n hn => ?_, fun n hn g hg p hp y hy => ?_, fun hnodup x hx i hi => ?_⟩
  · rw [hold_emptyLetting, if_pos (h n hn)]
  · rw [seat_emptyLetting]
    exact seat_releaseHolds_of_listed hp l s (h n hn) hg hy
  · exact item_returned_of_line _ _ hnodup hx (by rw [item_releases, hi])

theorem gatheringDropped_emptyLetting {st : Station} {l : List Nat} {s : State} (h : ∀ e, s.gathering st = some e → e.1 ∈ l) :
    GatheringDropped st s (emptyLetting st l s) := by
  refine fun m g hg hm => ⟨?_, fun p hp y hy => ?_⟩
  · rw [hold_emptyLetting, if_pos (h _ hg)]
  · rw [seat_emptyLetting]
    exact seat_releaseHolds_of_listed hp l s (h _ hg) hm hy

/-- The holds let go are the basket's and holds of the station that gather. -/
theorem emptyingKeepsOthers_emptyLetting {st : Station} {l : List Nat} {s : State}
    (h : s.holds.wf = true → ∀ n ∈ l, n ∈ (s.basket st).holds ∨
      ∃ g, s.hold n = some g ∧ g.owner = .station st ∧ g.phase = .gathering) :
    EmptyingKeepsOthers st s (emptyLetting st l s) := by
  intro hw
  have hgoes : ∀ n ∈ l, ∀ g, s.hold n = some g → n ∈ (s.basket st).holds ∨ (g.owner = .station st ∧ g.phase = .gathering) :=
    fun n hn g hg => (h hw n hn).imp_right fun ⟨k, hk, hgather⟩ => by rw [hg] at hk; cases hk; exact hgather
  refine ⟨fun n hn hno => ?_, fun slot p y hy hno => ?_, fun code hno => ?_⟩
  · rw [hold_emptyLetting, if_neg]
    intro hl
    obtain hb | ⟨g, hg, hgather⟩ := h hw n hl
    · exact hn hb
    · exact hno g hg (.inr hgather)
  · rw [seat_emptyLetting, seat_releaseHolds_of_other l s fun n hn g hg => hno n g hg (hgoes n hn g hg), hy]
  · exact (item_returned_of_other _ _ hno).trans (item_releases l s code)

end Sys2Proof.Machine
end

section
/-! The loss of a station link, with no payment in flight and with one (R36, R63, R107, R179): O20. -/

namespace Sys2Proof.Machine

/-! ### The holds that an emptying lets go (R35, R36) -/

theorem hold_of_gathering {s : State} {st : Station} {n : Nat} {h : Hold} (hw : s.holds.wf = true)
    (hg : s.gathering st = some (n, h)) : s.hold n = some h ∧ h.owner = .station st ∧ h.phase = .gathering := by
  obtain ⟨hn, howner⟩ := gathering_mem hg
  exact ⟨find_of_mem hw hn, howner⟩

/-- The holds of `l` are those of the station's basket, the one that gathers, and, in a canonical table, no others. -/
structure LetsGo (st : Station) (l : List Nat) (s : State) : Prop where
  basket : ∀ n ∈ (s.basket st).holds, n ∈ l
  gathering : ∀ e, s.gathering st = some e → e.1 ∈ l
  only : s.holds.wf = true → ∀ n ∈ l, n ∈ (s.basket st).holds ∨
    ∃ g, s.hold n = some g ∧ g.owner = .station st ∧ g.phase = .gathering

theorem mem_holdsToRelease {s : State} {st : Station} {n : Nat} :
    n ∈ s.holdsToRelease st ↔ n ∈ (s.basket st).holds ∨ ∃ h, s.gathering st = some (n, h) := by
  simp [State.holdsToRelease]

theorem letsGo_holdsToRelease (st : Station) (s : State) : LetsGo st (s.holdsToRelease st) s where
  basket _ hn := mem_holdsToRelease.mpr (.inl hn)
  gathering e he := mem_holdsToRelease.mpr (.inr ⟨e.2, he⟩)
  only hw _ hn := (mem_holdsToRelease.mp hn).imp_right fun ⟨h, hg⟩ => ⟨h, hold_of_gathering hw hg⟩

/-- The hold that gathers is let go first, and then the basket is emptied. -/
theorem letsGo_cons {st : Station} {n : Nat} {h : Hold} {s : State} (hg : s.gathering st = some (n, h)) :
    LetsGo st (n :: (releaseHold n s).holdsToRelease st) s := by
  have hb := basket_releaseHold n s st
  refine ⟨fun m hm => ?_, fun e he => ?_, fun hw m hm => ?_⟩
  · exact List.mem_cons_of_mem _ (mem_holdsToRelease.mpr (.inl (hb ▸ hm)))
  · rw [hg] at he; cases he
    exact List.mem_cons_self
  · rcases List.mem_cons.mp hm with rfl | hm
    · exact .inr ⟨h, hold_of_gathering hw hg⟩
    · refine ((mem_holdsToRelease.mp hm).imp (hb ▸ ·) fun ⟨g, hg'⟩ => ?_)
      obtain ⟨hm, hgather⟩ := hold_of_gathering ((tended_releaseHold n s).holds hw) hg'
      rw [hold_releaseHold] at hm
      split at hm
      · cases hm
      · exact ⟨g, hm, hgather⟩

/-! ### What the loss of a station link does to the station (R36, R63) -/

theorem station_ne_site {st : Station} : Line.station st ≠ .site := by simp

/-- The state in which a station link has become LOST: its watch has ended, and nothing waits on it (R179). -/
def State.withoutLink (s : State) (st : Station) : State :=
  setLine (.station st) { s.line (.station st) with state := .lost, watch := none, out := [] } s

section

variable {st : Station} {s : State}

theorem stationLost_of_idle (hidle : s.payIdle st = true) : ∃ l, LetsGo st l s ∧ stationLost st s = emptyLetting st l s := by
  cases hg : s.gathering st with
  | none => exact ⟨_, letsGo_holdsToRelease st s, by simp [stationLost, hg, hidle, emptyBasket_eq]⟩
  | some e =>
    have hidle' : (releaseHold e.1 s).payIdle st = true := by rw [releaseHold_frame]; exact hidle
    exact ⟨_, letsGo_cons hg, by simp [stationLost, hg, hidle', emptyBasket_releaseHold]⟩

theorem stationLost_of_busy (hbusy : s.payIdle st = false) (hg : s.gathering st = none) : stationLost st s = s := by
  simp [stationLost, hg, hbusy]

theorem stationLost_of_gathering {n : Nat} {h : Hold} (hbusy : s.payIdle st = false) (hg : s.gathering st = some (n, h))
    (hn : s.hold n = some h) : stationLost st s = delHold n (mapSeats h.slot h.seats Seat.release s) := by
  have hbusy' : (releaseHold n s).payIdle st = false := by rw [releaseHold_frame]; exact hbusy
  simp [stationLost, hg, hbusy', ← releaseHold_of_hold hn]

theorem line_stationLost_ne {l : Line} (h : l ≠ .site) : (stationLost st s).line l = s.line l := by
  have released (n : Nat) : (releaseHold n s).line l = s.line l := by rw [releaseHold_frame]; rfl
  have emptied (u : State) : (if u.payIdle st then emptyBasket st u else u).line l = u.line l := by
    split
    · exact line_emptyLetting_ne st _ u h
    · rfl
  refine (emptied _).trans ?_
  split
  · exact released _
  · rfl

/-- The loss of a station link reaches the line itself, then the station, and is told on the site link (R179). -/
theorem lineLost_of_up (hup : s.isLost (.station st) = false) : lineLost (.station st) s =
    emit .site (.lineState (.station st) .lost (s.line (.station st)).errors) (stationLost st (s.withoutLink st)) := by
  have herrors : ((stationLost st (modifyLine (.station st) LineRec.lose s)).line (.station st)).errors =
      (s.line (.station st)).errors := by
    rw [line_stationLost_ne station_ne_site, modifyLine, line_setLine]
    rfl
  have hreported (u : State) : u.reported (.station st) .lost = true := rfl
  simp only [lineLost, hup, noticeLine, reportLoss, herrors, hreported, if_true]
  rfl

theorem lineLost_of_idle (hup : s.isLost (.station st) = false) (hidle : s.payIdle st = true) :
    ∃ l, LetsGo st l s ∧ lineLost (.station st) s =
      emit .site (.lineState (.station st) .lost (s.line (.station st)).errors) (emptyLetting st l (s.withoutLink st)) := by
  obtain ⟨l, ⟨hbasket, hgather, honly⟩, hl⟩ := stationLost_of_idle (s := s.withoutLink st) hidle
  exact ⟨l, ⟨hbasket, hgather, honly⟩, by rw [lineLost_of_up hup, hl]⟩

end

/-- Settles O20: the idle station's holds are let go and its basket emptied; at a busy one the hold that gathers is dropped. -/
theorem stationLinkLost : Obligations.StationLinkLost := by
  refine ⟨fun st s hup hidle => ?_, fun st s hup hbusy => ⟨fun hg => ?_, fun m g hg hm => ?_⟩⟩
  · obtain ⟨l, ⟨hbasket, hgather, honly⟩, hlost⟩ := lineLost_of_idle hup hidle
    obtain ⟨mid, hmid, hsite⟩ := out_emptyLetting st l (s.withoutLink st)
    have hsiteLine : (s.withoutLink st).line .site = s.line .site := line_setLine_ne station_ne_site.symm ..
    refine ⟨_, congrArg Host.Outcome.next hlost, ?_, ?_, ?_, ?_, ?_, fun x hx hne => ?_, fun n hn => ?_, fun e he => ?_, ?_,
      fun hs => ⟨mid, ?_⟩⟩
    · rw [basket_emit, basket_emptyLetting]
    · rw [emit_frame]; exact basketEmptied_emptyLetting (s := s.withoutLink st) hbasket
    · rw [emit_frame]; exact gatheringDropped_emptyLetting (s := s.withoutLink st) hgather
    · rw [emit_frame]; exact emptyingKeepsOthers_emptyLetting (s := s.withoutLink st) honly
    · rw [line_emit_ne station_ne_site, line_emptyLetting_ne st l _ station_ne_site]; exact line_setLine ..
    · rw [line_emit_ne hx, line_emptyLetting_ne st l _ hx]; exact line_setLine_ne hne ..
    · rw [hold_emit, hold_emptyLetting, if_pos (hbasket n hn)]
    · rw [hold_emit, hold_emptyLetting, if_pos (hgather e he)]
    · have hframe := emptyLetting_frame st l (s.withoutLink st)
      rw [emit_frame]
      generalize emptyLetting st l (s.withoutLink st) = t at hframe ⊢
      rw [hframe]; rfl
    · have hup' : (emptyLetting st l (s.withoutLink st)).isLost .site = false := by
        rw [hsite]; unfold State.isLost; rw [hsiteLine]; exact hs
      rw [out_emit hup', hmid, hsiteLine]
  · exact congrArg Host.Outcome.next ((lineLost_of_up hup).trans (congrArg _ (stationLost_of_busy hbusy hg)))
  · exact congrArg Host.Outcome.next ((lineLost_of_up hup).trans (congrArg _ (stationLost_of_gathering hbusy hg hm)))

end Sys2Proof.Machine
end

section
/-! DROP-HOLD past its checks: the hold that gathers, and a STANDING hold that leaves its basket (R34, R35, R48, R55, R58): O32. -/

namespace Sys2Proof.Machine

/-! ### DROP-HOLD (R34) -/

section

variable {st : Station} (tag : Tag) {n : Nat} {h : Hold} {s : State} (hlt : n < 64) (hidle : s.payIdle st = true)
  (hn : s.hold n = some h) (ho : h.owner = .station st)

include hlt hidle hn ho

theorem dropHold_of_gathering (hp : h.phase = .gathering) : dropHold st tag n s =
    emit (.station st) (.reply tag .ok [.holdNumber n, .seatsReleased h.seats.length])
      (delHold n (mapSeats h.slot h.seats Seat.release s)) := by
  have hok : holdOk n = true := decide_eq_true hlt
  simp [dropHold, hok, hidle, hn, ho, hp, releaseHold_of_hold hn, replyStation]

theorem dropHold_of_standing (hp : h.phase ≠ .gathering) : dropHold st tag n s =
    emit (.station st) (.reply tag .ok [.holdNumber n, .seatsReleased h.seats.length])
      (leaveBasket st n h (delHold n (mapSeats h.slot h.seats Seat.release s))) := by
  have hok : holdOk n = true := decide_eq_true hlt
  simp [dropHold, hok, hidle, hn, ho, hp, releaseHold_of_hold hn, replyStation]

end

/-! ### A basket that a hold leaves (R48, R55, R58) -/

theorem setBasket_setBasket (st : Station) (a b : Basket) (s : State) : setBasket st b (setBasket st a s) = setBasket st b s := by
  simp [setBasket]

/-- The basket that remains of `b` when hold `n` leaves it and something is left: the rest keeps its order, no summary and no stale
mark, the lapse deadline set again (R55). -/
def Basket.leftBy (n : Nat) (h : Hold) (now : Time) (holdTime : Nat) (b : Basket) : Basket :=
  { b with
    holds := b.holds.filter (fun m => m ≠ n), seatLines := b.seatLines.filter (fun l => l.ref.slot ≠ h.slot ∨ refPos l.ref ∉ h.seats),
    summary := none, stale := false,
    lapse := some ⟨now, min (holdTime * 1000) (3 * b.openHold * 1000 - (now - b.start).toNat)⟩ }

theorem without_eq (n : Nat) (h : Hold) (b : Basket) : b.without n h = { b with
    holds := b.holds.filter (fun m => m ≠ n),
    seatLines := b.seatLines.filter (fun l => l.ref.slot ≠ h.slot ∨ refPos l.ref ∉ h.seats) } := by
  have hkeep (l : SeatLine) : (!(decide (l.ref.slot = h.slot) && decide (refPos l.ref ∈ h.seats))) =
      decide (l.ref.slot ≠ h.slot ∨ refPos l.ref ∉ h.seats) := by
    rw [Bool.eq_iff_iff]; simp
  simp only [Basket.without, hkeep]

theorem leaveBasket_of_left {st : Station} {n : Nat} {h : Hold} {s : State}
    (hleft : (s.basket st).holds.filter (fun m => m ≠ n) ≠ [] ∨ (s.basket st).snacks ≠ []) :
    leaveBasket st n h s = setBasket st ((s.basket st).leftBy n h s.timeBase s.limits.holdTime) s := by
  have hsome : ((s.basket st).without n h).hollow = false := by
    rw [Bool.eq_false_iff, Ne, hollow_iff, without_eq]
    tauto
  rw [leaveBasket_eq, basketLoses, basket_setBasket, hsome, without_eq, basketChange, modifyBasket, basket_setBasket,
    setBasket_setBasket]
  rfl

theorem leaveBasket_of_none {st : Station} {n : Nat} {h : Hold} {s : State}
    (hholds : (s.basket st).holds.filter (fun m => m ≠ n) = []) (hsnacks : (s.basket st).snacks = []) :
    leaveBasket st n h s = emptyBasket st (setBasket st ((s.basket st).without n h) s) := by
  have hnone : ((s.basket st).without n h).hollow = true := (hollow_iff _).mpr (by rw [without_eq]; exact ⟨hholds, hsnacks⟩)
  rw [leaveBasket_eq, basketLoses, basket_setBasket, hnone, if_pos rfl]

theorem releaseHold_setBasket (n : Nat) (st : Station) (b : Basket) (s : State) :
    releaseHold n (setBasket st b s) = setBasket st b (releaseHold n s) := by
  have hhold : (setBasket st b s).hold n = s.hold n := rfl
  have hscreening (slot : Nat) : (setBasket st b s).screening slot = s.screening slot := rfl
  unfold releaseHold mapSeats
  rw [hhold]
  split
  · rw [hscreening]; split <;> rfl
  · rfl

/-- A basket with neither hold nor snack line is emptied by dropping the hold that gathers, if one does (R35). -/
theorem emptyBasket_of_hollow {st : Station} {b : Basket} {s : State} (hb : b.hollow = true) :
    (s.gathering st = none → emptyBasket st (setBasket st b s) = setBasket st Basket.vacant s) ∧
    ∀ m g, s.gathering st = some (m, g) →
      emptyBasket st (setBasket st b s) = setBasket st Basket.vacant (releaseHold m s) := by
  obtain ⟨hholds, hsnacks⟩ := (hollow_iff b).mp hb
  have hlist : (setBasket st b s).holdsToRelease st = ((s.gathering st).map (·.1)).toList := by
    rw [State.holdsToRelease, basket_setBasket, hholds]; rfl
  refine ⟨fun hg => ?_, fun m g hg => ?_⟩ <;> rw [emptyBasket_eq, emptyLetting, basket_setBasket, hsnacks, hlist, hg]
  · exact setBasket_setBasket ..
  · refine Eq.trans (congrArg (setBasket st Basket.vacant) (releaseHold_setBasket m st b s)) (setBasket_setBasket ..)

/-- A hold that does not gather is let go: the station's hold that gathers stays. -/
theorem gathering_releaseHold {n : Nat} {h : Hold} {s : State} (hw : s.holds.wf = true) (hn : s.hold n = some h)
    (hp : h.phase ≠ .gathering) (st : Station) : (releaseHold n s).gathering st = s.gathering st := by
  have hholds : (releaseHold n s).holds = s.holds.filter (fun e => e.1 ≠ n) := by
    rw [releaseHold_of_hold hn, mapSeats_frame]; rfl
  unfold State.gathering State.holdsOf
  rw [hholds, List.filter_filter]
  rw [List.find?_filter, List.find?_filter]
  refine List.find?_congr fun e he => ?_
  by_cases hen : e.1 = n
  · have : e.2 = h := by
      have hfind : s.hold n = some e.2 := find_of_mem hw (hen ▸ he)
      rw [hn] at hfind; cases hfind; rfl
    simp [this, hp]
  · simp [hen]

/-- Whatever remains of the basket, the hold's number is free, its seats are let go, and nothing of it stands in the basket. -/
structure HoldLeft (st : Station) (n : Nat) (h : Hold) (s t : State) : Prop where
  gone : t.hold n = none
  holds : n ∉ (t.basket st).holds
  summary : (t.basket st).summary = none
  lines : ∀ l ∈ (t.basket st).seatLines, l.ref.slot = h.slot → refPos l.ref ∉ h.seats
  seats : ∀ p ∈ h.seats, ∀ y, s.seat h.slot p = some y → t.seat h.slot p = some y.release
  frame : t = { s with
    screenings := t.screenings, holds := t.holds, baskets := s.baskets.set st (t.basket st), items := t.items, lines := t.lines }

theorem HoldLeft.emit {st : Station} {n : Nat} {h : Hold} {s t : State} (ht : HoldLeft st n h s t) (l : Line) (r : OutRec) :
    HoldLeft st n h s (emit l r t) := by
  obtain ⟨hgone, hholds, hsummary, hlines, hseats, hframe⟩ := ht
  rw [emit_frame]
  refine ⟨hgone, hholds, hsummary, hlines, hseats, ?_⟩
  generalize (Machine.emit l r t).lines = ls
  generalize hb : t.basket st = b at hframe
  have : State.basket { t with lines := ls } st = b := hb
  rw [this, hframe]

/-- A basket that keeps something is changed (R48, R55). -/
theorem holdLeft_of_change {st : Station} {n : Nat} {h : Hold} {s : State} (hn : s.hold n = some h) (now : Time) (holdTime : Nat) :
    HoldLeft st n h s (setBasket st ((s.basket st).leftBy n h now holdTime) (releaseHold n s)) := by
  refine ⟨?_, ?_, ?_, fun l hl hslot => ?_, fun p hp y hy => ?_, ?_⟩
  · exact (hold_releaseHold n n s).trans (if_pos rfl)
  · simp [Basket.leftBy]
  · simp [Basket.leftBy]
  · rw [basket_setBasket] at hl
    have hkeep : l.ref.slot ≠ h.slot ∨ refPos l.ref ∉ h.seats := of_decide_eq_true (List.mem_filter.mp hl).2
    exact hkeep.resolve_left (not_not.mpr hslot)
  · exact (seat_releaseHold_of_listed hn hp).trans (by rw [hy]; rfl)
  · rw [basket_setBasket, releaseHold_frame]; rfl

/-- A basket that keeps nothing is emptied (R58). -/
theorem holdLeft_of_emptying {st : Station} {n : Nat} {h : Hold} {s : State} (hn : s.hold n = some h) (b : Basket) :
    HoldLeft st n h s (emptyBasket st (setBasket st b (releaseHold n s))) := by
  rw [emptyBasket_eq]
  generalize (setBasket st b (releaseHold n s)).holdsToRelease st = l
  have hvacant := basket_emptyLetting st l (setBasket st b (releaseHold n s))
  refine ⟨?_, by rw [hvacant]; exact List.not_mem_nil, by rw [hvacant]; rfl, fun x hx => ?_, fun p hp y hy => ?_, ?_⟩
  · rw [hold_emptyLetting]
    split
    · rfl
    · exact (hold_releaseHold n n s).trans (if_pos rfl)
  · rw [hvacant] at hx; cases hx
  · rw [seat_emptyLetting]
    refine seat_releaseHolds_of_released (release_release y) l _ ?_
    exact (seat_releaseHold_of_listed hn hp).trans (by rw [hy]; rfl)
  · have hframe := emptyLetting_frame st l (setBasket st b (releaseHold n s))
    rw [hvacant]
    generalize emptyLetting st l (setBasket st b (releaseHold n s)) = t at hframe ⊢
    rw [hframe, releaseHold_frame, setBasket_baskets, set_set]
    rfl

theorem holdLeft_leaveBasket {st : Station} {n : Nat} {h : Hold} {s : State} (hn : s.hold n = some h) :
    HoldLeft st n h s (leaveBasket st n h (releaseHold n s)) := by
  by_cases hleft : ((releaseHold n s).basket st).holds.filter (fun m => m ≠ n) ≠ [] ∨ ((releaseHold n s).basket st).snacks ≠ []
  · rw [leaveBasket_of_left hleft, basket_releaseHold]
    exact holdLeft_of_change hn ..
  · obtain ⟨hholds, hsnacks⟩ := not_or.mp hleft
    rw [leaveBasket_of_none (not_not.mp hholds) (not_not.mp hsnacks)]
    exact holdLeft_of_emptying hn _

/-- Settles O32: the three ends of DROP-HOLD, and what holds of the last two alike. -/
theorem dropHoldTaken : Obligations.DropHoldTaken := by
  intro st tag n h s htakes hlt hidle hn ho
  have drops : exec (.dropHold st tag n) s = .next (dropHold st tag n s) :=
    congrArg Host.Outcome.next (stationRequest_of_takes htakes tag _)
  rw [drops]
  refine ⟨fun hp => congrArg _ (dropHold_of_gathering tag hlt hidle hn ho hp), fun hp => ?_, fun hp => ?_⟩ <;>
    rw [dropHold_of_standing tag hlt hidle hn ho hp, ← releaseHold_of_hold hn]
  · have hb := basket_releaseHold n s st
    refine ⟨fun hleft => ?_, fun hholds hsnacks hw => ?_⟩
    · rw [leaveBasket_of_left (by rw [hb]; exact hleft), hb, releaseHold_frame]
      rfl
    · have hgather := gathering_releaseHold hw hn hp st
      have hnone : ((releaseHold n s).basket st).holds.filter (fun m => m ≠ n) = [] := by rw [hb]; exact hholds
      have hempty := emptyBasket_of_hollow (st := st) (s := releaseHold n s) (b := ((releaseHold n s).basket st).without n h)
        ((hollow_iff _).mpr (by rw [without_eq]; exact ⟨hnone, by rw [hb]; exact hsnacks⟩))
      rw [leaveBasket_of_none hnone (by rw [hb]; exact hsnacks)]
      refine ⟨fun hg => ?_, fun m g hg => ?_⟩
      · rw [hempty.1 (hgather.trans hg)]
      · obtain ⟨hm, _⟩ := hold_of_gathering ((tended_releaseHold n s).holds hw) (hgather.trans hg)
        rw [hempty.2 m g (hgather.trans hg), releaseHold_of_hold hm]
  · obtain ⟨hgone, hholds, hsummary, hlines, hseats, hframe⟩ := (holdLeft_leaveBasket (st := st) hn).emit (.station st)
      (.reply tag .ok [.holdNumber n, .seatsReleased h.seats.length])
    exact ⟨_, rfl, hgone, hholds, hsummary, hlines, hseats, hframe⟩

end Sys2Proof.Machine
end

section
/-! The changes of a station's basket and its pricing, past the checks of their requests (R50, R55, R60, R69): O34. -/

namespace Sys2Proof.Machine

/-! ### A basket changed and a basket opened (R54, R55) -/

/-- The basket that a change leaves of `b`: no summary, no stale mark, the lapse deadline set again (R55). -/
def Basket.changedAt (now : Time) (holdTime : Nat) (b : Basket) : Basket :=
  { b with
    summary := none, stale := false,
    lapse := some ⟨now, min (holdTime * 1000) (3 * b.openHold * 1000 - (now - b.start).toNat)⟩ }

/-- The basket that opens with the contents of `b` (R54). -/
def Basket.openedAt (now : Time) (holdTime : Nat) (b : Basket) : Basket :=
  { b with
    start := now, openHold := holdTime, lapse := some ⟨now, holdTime * 1000⟩, attempts := 0, stale := false, payLoad := none,
    overdue := false, summary := none }

section

variable (st : Station) (f : Basket → Basket) (s : State)

theorem basketChange_eq : basketChange st s = setBasket st ((s.basket st).changedAt s.timeBase s.limits.holdTime) s := rfl

theorem basketChange_modifyBasket : basketChange st (modifyBasket st f s) =
    setBasket st ((f (s.basket st)).changedAt s.timeBase s.limits.holdTime) s := by
  rw [basketChange_eq, modifyBasket, basket_setBasket, setBasket_setBasket]
  rfl

theorem basketOpens_modifyBasket : basketOpens st (modifyBasket st f s) =
    setBasket st ((f (s.basket st)).openedAt s.timeBase s.limits.holdTime) s := by
  unfold basketOpens
  rw [modifyBasket, modifyBasket, basket_setBasket, setBasket_setBasket]
  rfl

end

/-! ### SET-CATEGORY and PRICE past their checks (R50, R60) -/

theorem suits_of_iff {c : Category} {k : SeatKind} (h : c.companionOnly = true ↔ k = .companion) : suits c k = true := by
  rw [suits, beq_iff_eq, Bool.eq_iff_iff, decide_eq_true_eq]
  exact h

section

variable {st : Station} (tag : Tag) {t : Tariff} {s : State} (hidle : s.payIdle st = true) (ht : s.tariff = some t)

include hidle ht

theorem setCategory_of_checks {ref : SeatRef} {cat : Nat} {c : Category} (href : seatRefOk ref = true) (hnum : categoryOk cat = true)
    (hline : ∃ l ∈ (s.basket st).seatLines, l.ref = ref) (hcat : tariffCategory t cat = some c)
    (hsuits : suits c (s.kindOf ref) = true) : setCategory st tag ref cat s =
      replyStation st tag .ok [.seat ref, .label c.label] (basketChange st (modifyBasket st (fun b =>
        { b with seatLines := b.seatLines.map (fun l => if l.ref = ref then { l with cat := cat } else l) }) s)) := by
  have hmine : ¬∀ l ∈ (s.basket st).seatLines, ¬l.ref = ref := by simpa using hline
  simp [setCategory, href, hnum, hidle, hmine, ht, hcat, hsuits]

/-- Every seat line of the basket has a category of the tariff that suits its seat: no check of Table 3-5 refuses. -/
theorem price_of_checks (hsome : (s.basket st).hollow = false) (hg : s.gathering st = none)
    (hcats : ∀ l ∈ (s.basket st).seatLines, ∃ c, tariffCategory t l.cat = some c ∧ suits c (s.kindOf l.ref) = true) :
    price st tag s = replyStation st tag .ok [.summary (pricing t (s.basket st).seatLines (s.basket st).snacks s)]
      (modifyBasket st (fun b =>
        { b with summary := some (pricing t (s.basket st).seatLines (s.basket st).snacks s), stale := false }) s) := by
  have hopen : s.basketState st ≠ .empty := by
    simp [State.basketState, State.payState, payment_eq_none_of_payIdle hidle, hsome]
  have hfound : missingCategory t (s.basket st).seatLines = none := List.find?_eq_none.mpr fun l hl => by
    obtain ⟨c, hc, _⟩ := hcats l hl
    simp [hc]
  have hall : unsuitedCategory t s (s.basket st).seatLines = none := List.find?_eq_none.mpr fun l hl => by
    obtain ⟨c, hc, hsuits⟩ := hcats l hl
    simp [hc, hsuits]
  simp [price, hidle, hopen, hg, ht, hfound, hall]

end

/-- Settles O34: SET-CATEGORY past its checks is a change of the basket; PRICE past its own stores the summary and changes nothing else. -/
theorem categoriesAndPrice : Obligations.CategoriesAndPrice := by
  constructor
  · intro st tag ref cat t c s htakes h1 h2 h3 h4 h5 h6 hnum hidle hline ht hcat hkind
    refine congrArg Host.Outcome.next ((stationRequest_of_takes htakes tag _).trans ?_)
    rw [setCategory_of_checks tag hidle ht (seatRefOk_of h1 h2 h3 h4 h5 h6) (decide_eq_true hnum) hline hcat (suits_of_iff hkind),
      basketChange_modifyBasket]
    rfl
  · intro st tag t s b htakes hidle hsome hg ht hcats
    refine congrArg Host.Outcome.next ((stationRequest_of_takes htakes tag _).trans ?_)
    exact price_of_checks tag hidle ht hsome hg fun l hl => (hcats l hl).imp fun c ⟨hc, hkind⟩ => ⟨hc, suits_of_iff hkind⟩

end Sys2Proof.Machine
end

section
/-! ABANDON and the lapse deadline: a basket emptied with no payment in flight, or marked overdue under one (R56 to R59): O36. -/

namespace Sys2Proof.Machine

/-- The basket of a station emptied from `s` to `t`, whatever the notice or reply that tells of it: the holds of its list and the
one that gathers are let go, the units of its snack lines returned, and nothing else is reached (R35, R58). -/
structure EmptyingTaken (st : Station) (s t : State) : Prop where
  frame : t = { s with
    screenings := t.screenings, holds := t.holds, items := t.items, baskets := s.baskets.set st Basket.vacant, lines := t.lines }
  emptied : BasketEmptied st s t
  dropped : GatheringDropped st s t
  others : EmptyingKeepsOthers st s t
  gone : ∀ e, s.gathering st = some e → t.hold e.1 = none

theorem EmptyingTaken.emit {st : Station} {s t : State} (h : EmptyingTaken st s t) (l : Line) (r : OutRec) :
    EmptyingTaken st s (emit l r t) := by
  obtain ⟨hframe, hemptied, hdropped, hothers, hgone⟩ := h
  rw [emit_frame]
  generalize (Machine.emit l r t).lines = ls
  refine ⟨?_, hemptied, hdropped, hothers, hgone⟩
  rw [hframe]

section

variable (st : Station) (s : State)

theorem emptyingTaken_emptyBasket : EmptyingTaken st s (emptyBasket st s) := by
  obtain ⟨hbasket, hgather, honly⟩ := letsGo_holdsToRelease st s
  refine ⟨emptyBasket_frame st s, basketEmptied_emptyLetting hbasket, gatheringDropped_emptyLetting hgather,
    emptyingKeepsOthers_emptyLetting honly, fun e he => ?_⟩
  rw [emptyBasket_eq, hold_emptyLetting, if_pos (hgather e he)]

theorem line_emptyBasket_station : (emptyBasket st s).line (.station st) = s.line (.station st) :=
  line_emptyLetting_ne st _ s station_ne_site

/-- What a station is told after its basket was emptied stands last on its line. -/
theorem out_emit_emptyBasket (r : OutRec) (hup : s.isLost (.station st) = false) :
    ((emit (.station st) r (emptyBasket st s)).line (.station st)).out = (s.line (.station st)).out ++ [r] := by
  have hline := line_emptyBasket_station st s
  rw [out_emit (by unfold State.isLost; rw [hline]; exact hup), hline]

end

section

variable {st : Station} {s : State}

theorem abandon_of_idle (tag : Tag) (hidle : s.payIdle st = true) : abandon st tag s = emit (.station st)
    (.reply tag .ok [.seatsReleased (s.seatsToRelease st), .unitsReturned (unitsOf (s.basket st).snacks)]) (emptyBasket st s) := by
  simp [abandon, hidle, replyStation]

theorem lapseReached_of_idle (hlapse : (s.basket st).lapse.isSome = true) (hidle : s.payIdle st = true) : lapseReached st s =
    emit (.station st) (.basketLapsed .lapsed (s.seatsToRelease st) (unitsOf (s.basket st).snacks)) (emptyBasket st s) := by
  simp [lapseReached, expires, hlapse, hidle]

theorem lapseReached_of_busy (hlapse : (s.basket st).lapse.isSome = true) (hbusy : s.payIdle st = false) :
    lapseReached st s = setBasket st { s.basket st with overdue := true, lapse := none } s := by
  simp [lapseReached, expires, hlapse, hbusy, modifyBasket]

end

/-- Settles O36: the request and the deadline empty the basket alike and differ in what they tell; under a payment the deadline only
marks. -/
theorem emptyingAndLapse : Obligations.EmptyingAndLapse := by
  refine ⟨fun st tag s hidle => ?_, fun st s hbusy hlapse => congrArg Host.Outcome.next (lapseReached_of_busy hlapse hbusy)⟩
  intro after
  have taken (r : OutRec) : after (emit (.station st) r (emptyBasket st s)) := by
    obtain ⟨hframe, hemptied, hdropped, hothers, hgone⟩ := (emptyingTaken_emptyBasket st s).emit (.station st) r
    exact ⟨hframe, hemptied, hdropped, hothers, hgone⟩
  refine ⟨fun htakes => ⟨_, congrArg Host.Outcome.next ((stationRequest_of_takes htakes tag _).trans (abandon_of_idle tag hidle)),
    taken _, out_emit_emptyBasket st s _⟩, fun hlapse => ⟨_, congrArg Host.Outcome.next (lapseReached_of_idle hlapse hidle),
    taken _, out_emit_emptyBasket st s _⟩⟩

end Sys2Proof.Machine
end

section
/-! ADD-SNACK and REMOVE-SNACK past their checks: the units of an item that enter and leave a basket (R51 to R55, R58): O35. -/

namespace Sys2Proof.Machine

/-! ### The quantity of an item's line (R52, R53) -/

section

variable {l : List SnackLine} {item : Nat}

theorem lineQty_of_find {y : SnackLine} (h : l.find? (fun x => x.item = item) = some y) : lineQty l item = y.qty := by
  simp [lineQty, h]

theorem lineQty_of_none (h : l.find? (fun x => x.item = item) = none) : lineQty l item = 0 := by simp [lineQty, h]

theorem any_of_find {y : SnackLine} (h : l.find? (fun x => x.item = item) = some y) : l.any (fun x => x.item = item) = true :=
  have hy := List.find?_some h
  List.any_eq_true.mpr ⟨y, List.mem_of_find?_eq_some h, hy⟩

theorem lineQty_addUnits_of_find {y : SnackLine} (qty : Nat) (h : l.find? (fun x => x.item = item) = some y) :
    lineQty (addUnits item qty l) item = y.qty + qty := by
  have hy : y.item = item := by simpa using List.find?_some h
  have hkeep : (fun x : SnackLine => decide (x.item = item)) ∘ (fun x => if x.item = item then { x with qty := x.qty + qty } else x) =
      fun x => decide (x.item = item) := by
    funext x; by_cases hx : x.item = item <;> simp [hx]
  rw [addUnits, if_pos (any_of_find h)]
  refine (lineQty_of_find (y := { y with qty := y.qty + qty }) ?_)
  rw [List.find?_map, hkeep, h]
  simp [hy]

theorem lineQty_addUnits_of_none (qty : Nat) (h : l.find? (fun x => x.item = item) = none) :
    lineQty (addUnits item qty l) item = qty := by
  have hno : ¬l.any (fun x => x.item = item) = true := by simpa [List.find?_eq_none] using h
  rw [addUnits, if_neg hno]
  exact lineQty_of_find (y := ⟨item, qty⟩) (by simp [List.find?_append, h])

end

/-! ### Units reserved (R52, R166) -/

theorem item_reserveUnits_ne {code k : Nat} (h : k ≠ code) (qty : Nat) (s : State) : (reserveUnits code qty s).item k = s.item k := by
  unfold reserveUnits
  rw [item_judgeLow, if_neg h, item_modifyItem, if_neg h]

theorem item_reserveUnits {code : Nat} {x : Item} (qty : Nat) {s : State} (hx : s.item code = some x) :
    ∃ armed, (reserveUnits code qty s).item code = some { x with reserved := x.reserved + qty, armed := armed } := by
  unfold reserveUnits
  rw [item_judgeLow, if_pos rfl, item_modifyItem, if_pos rfl, hx]
  exact ⟨_, rfl⟩

theorem line_reserveUnits_ne {l : Line} (h : l ≠ .site) (code qty : Nat) (s : State) : (reserveUnits code qty s).line l = s.line l :=
  (line_judgeLow_ne h code _).trans (line_modifyItem ..)

/-! ### Units that enter a basket (R52, R54, R55) -/

theorem basketGains_of_empty {st : Station} {s : State} (f : Basket → Basket) (hb : (s.basket st).hollow = true) :
    basketGains st f s = setBasket st ((f (s.basket st)).openedAt s.timeBase s.limits.holdTime) s := by
  rw [basketGains, hb, ← basketOpens_modifyBasket, if_pos rfl]

theorem basketGains_of_open {st : Station} {s : State} (f : Basket → Basket) (hb : (s.basket st).hollow = false) :
    basketGains st f s = setBasket st ((f (s.basket st)).changedAt s.timeBase s.limits.holdTime) s := by
  rw [basketGains, hb, ← basketChange_modifyBasket, if_neg Bool.false_ne_true]

/-- Units of an item entered into a station's basket, whose snack lines are then `l`. -/
def unitsEnter (st : Station) (item qty : Nat) (l : List SnackLine) (s : State) : State :=
  basketGains st (fun b => { b with snacks := l }) (reserveUnits item qty s)

section

variable (st : Station) (item qty : Nat) (l : List SnackLine) (s : State)

theorem unitsEnter_frame : unitsEnter st item qty l s = { reserveUnits item qty s with
    baskets := s.baskets.set st ((unitsEnter st item qty l s).basket st) } := by
  have hbaskets : (reserveUnits item qty s).baskets = s.baskets := by rw [reserveUnits_frame]
  rw [← hbaskets]
  exact basketGains_frame ..

theorem item_unitsEnter (k : Nat) : (unitsEnter st item qty l s).item k = (reserveUnits item qty s).item k := by
  rw [unitsEnter_frame]; rfl

theorem line_unitsEnter {x : Line} (h : x ≠ .site) : (unitsEnter st item qty l s).line x = s.line x := by
  rw [unitsEnter_frame]
  exact line_reserveUnits_ne h item qty s

theorem basket_unitsEnter_of_empty (hb : (s.basket st).hollow = true) : (unitsEnter st item qty l s).basket st =
    ({ s.basket st with snacks := l } : Basket).openedAt s.timeBase s.limits.holdTime := by
  rw [unitsEnter, basketGains_of_empty _ (by rw [reserveUnits_frame]; exact hb), basket_setBasket, reserveUnits_frame]
  rfl

theorem basket_unitsEnter_of_open (hb : (s.basket st).hollow = false) : (unitsEnter st item qty l s).basket st =
    ({ s.basket st with snacks := l } : Basket).changedAt s.timeBase s.limits.holdTime := by
  rw [unitsEnter, basketGains_of_open _ (by rw [reserveUnits_frame]; exact hb), basket_setBasket, reserveUnits_frame]
  rfl

end

/-- ADD-SNACK past the checks of Table 3-3. -/
theorem addSnack_of_checks {st : Station} (tag : Tag) {item qty : Nat} {x : Item} {s : State} (hx : s.item item = some x)
    (hqty : quantityOk qty = true) (hidle : s.payIdle st = true) (hlimit : addPassesLimit (s.basket st).snacks item qty = false)
    (hstock : x.issued + x.reserved + qty ≤ x.allowance) (hroom : s.vouchers.length + s.reservedUnits + qty ≤ 2048) :
    addSnack st tag item qty s = emit (.station st)
      (.reply tag .ok [.quantity (lineQty (addUnits item qty (s.basket st).snacks) item),
        .snackUnits (unitsOf (addUnits item qty (s.basket st).snacks))])
      (unitsEnter st item qty (addUnits item qty (s.basket st).snacks) s) := by
  have hroom' : s.vouchers.length + s.reservedUnits + qty ≤ Config.voucherRecords := hroom
  simp [addSnack, hx, hqty, hidle, hlimit, Nat.not_lt.mpr hstock, Nat.not_lt.mpr hroom', replyStation, unitsEnter]

/-! ### Units that leave a basket (R53, R55, R58) -/

/-- Units of an item taken out of a station's basket, whose snack lines are then `l`: the basket before something of it may be left. -/
def unitsOut (st : Station) (item qty : Nat) (l : List SnackLine) (s : State) : State :=
  returnUnits item qty (setBasket st { s.basket st with snacks := l } s)

theorem setBasket_self (st : Station) (s : State) : setBasket st (s.basket st) s = s := by
  rw [setBasket, ← baskets_set_self]

section

variable {st : Station} {s : State} (hb : (s.basket st).hollow = true)

include hb

/-- A basket with neither hold nor snack line is EMPTY at once when the station has no hold that gathers. -/
theorem emptyBasket_of_nothing (hg : s.gathering st = none) : emptyBasket st s = setBasket st Basket.vacant s := by
  have hnone := (emptyBasket_of_hollow (s := s) hb).1 hg
  rw [setBasket_self] at hnone
  exact hnone

/-- A basket without a snack line returns no unit. -/
theorem items_emptyBasket_of_hollow : (emptyBasket st s).items = s.items := by
  cases hg : s.gathering st with
  | none => rw [emptyBasket_of_nothing hb hg]; rfl
  | some e =>
    have hsome := (emptyBasket_of_hollow (s := s) hb).2 e.1 e.2 hg
    rw [setBasket_self] at hsome
    rw [hsome, releaseHold_frame]; rfl

end

section

variable (st : Station) (item qty : Nat) (l : List SnackLine) (s : State)

theorem unitsOut_frame : unitsOut st item qty l s = { s with
    items := (unitsOut st item qty l s).items, baskets := s.baskets.set st { s.basket st with snacks := l },
    lines := (unitsOut st item qty l s).lines } := by
  unfold unitsOut
  rw [returnUnits_frame]
  rfl

@[simp] theorem basket_unitsOut : (unitsOut st item qty l s).basket st = { s.basket st with snacks := l } := by
  rw [unitsOut, returnUnits_frame]
  exact basket_setBasket ..

theorem item_unitsOut {x : Item} (hx : s.item item = some x) :
    ∃ armed, (unitsOut st item qty l s).item item = some { x with reserved := x.reserved - qty, armed := armed } :=
  item_returnUnits (s := setBasket st _ s) qty hx

theorem item_unitsOut_ne {k : Nat} (h : k ≠ item) : (unitsOut st item qty l s).item k = s.item k := item_returnUnits_ne h qty _

theorem line_unitsOut {x : Line} (h : x ≠ .site) : (unitsOut st item qty l s).line x = s.line x := line_returnUnits_ne h item qty _

/-- A basket that keeps something is changed (R55). -/
theorem basketLoses_unitsOut_of_left (hb : ({ s.basket st with snacks := l } : Basket).hollow = false) :
    basketLoses st (unitsOut st item qty l s) =
      setBasket st (({ s.basket st with snacks := l } : Basket).changedAt s.timeBase s.limits.holdTime) (unitsOut st item qty l s) := by
  have hbasket := basket_unitsOut st item qty l s
  have hframe := unitsOut_frame st item qty l s
  rw [basketLoses, hbasket, hb, basketChange_eq, hbasket]
  generalize unitsOut st item qty l s = u at hframe ⊢
  rw [hframe]
  rfl

/-- A basket that keeps nothing is emptied (R58). -/
theorem basketLoses_unitsOut_of_none (hb : ({ s.basket st with snacks := l } : Basket).hollow = true) :
    basketLoses st (unitsOut st item qty l s) = emptyBasket st (unitsOut st item qty l s) := by
  rw [basketLoses, basket_unitsOut, if_pos hb]

/-- What becomes of the basket leaves the items and the station's line as the return of the units leaves them. -/
theorem items_basketLoses_unitsOut : (basketLoses st (unitsOut st item qty l s)).items = (unitsOut st item qty l s).items := by
  cases hb : ({ s.basket st with snacks := l } : Basket).hollow with
  | false => rw [basketLoses_unitsOut_of_left _ _ _ _ _ hb]; rfl
  | true => rw [basketLoses_unitsOut_of_none _ _ _ _ _ hb, items_emptyBasket_of_hollow (by rw [basket_unitsOut, hb])]

theorem line_basketLoses_unitsOut : (basketLoses st (unitsOut st item qty l s)).line (.station st) = s.line (.station st) := by
  rw [← line_unitsOut st item qty l s station_ne_site]
  cases hb : ({ s.basket st with snacks := l } : Basket).hollow with
  | false => rw [basketLoses_unitsOut_of_left _ _ _ _ _ hb]; rfl
  | true => rw [basketLoses_unitsOut_of_none _ _ _ _ _ hb, line_emptyBasket_station]

end

/-- REMOVE-SNACK past its checks. -/
theorem removeSnack_of_checks {st : Station} (tag : Tag) {item qty : Nat} {line : SnackLine} {s : State} (hitem : itemOk item = true)
    (hqty : quantityOk qty = true) (hidle : s.payIdle st = true)
    (hline : (s.basket st).snacks.find? (fun y => y.item = item) = some line) (hle : qty ≤ line.qty) :
    removeSnack st tag item qty s = emit (.station st)
      (.reply tag .ok [.quantity (lineQty (takeUnits item qty (s.basket st).snacks) item),
        .snackUnits (unitsOf (takeUnits item qty (s.basket st).snacks))])
      (basketLoses st (unitsOut st item qty (takeUnits item qty (s.basket st).snacks) s)) := by
  have hany := any_of_find hline
  have hle' : ¬lineQty (s.basket st).snacks item < qty := by rw [lineQty_of_find hline]; exact Nat.not_lt.mpr hle
  simp only [removeSnack, hitem, hqty, hidle, hany, hle']
  rfl

theorem hollow_eq_false_iff (b : Basket) : b.hollow = false ↔ b.holds ≠ [] ∨ b.snacks ≠ [] := by
  rw [Bool.eq_false_iff, Ne, hollow_iff]
  tauto

@[simp] theorem item_emit (l : Line) (r : OutRec) (s : State) (code : Nat) : (emit l r s).item code = s.item code := by
  simp [State.item]

/-- What a station is told after an operation that left its line as it was stands last on that line. -/
theorem out_emit_of_line {st : Station} {s u : State} (hline : u.line (.station st) = s.line (.station st))
    (hup : s.isLost (.station st) = false) (r : OutRec) :
    ((emit (.station st) r u).line (.station st)).out = (s.line (.station st)).out ++ [r] := by
  rw [out_emit (by unfold State.isLost; rw [hline]; exact hup), hline]

theorem emit_unitsEnter_frame (l : Line) (r : OutRec) (st : Station) (item qty : Nat) (snacks : List SnackLine) (s : State) :
    emit l r (unitsEnter st item qty snacks s) = { s with
      items := (emit l r (unitsEnter st item qty snacks s)).items,
      baskets := s.baskets.set st ((emit l r (unitsEnter st item qty snacks s)).basket st),
      lines := (emit l r (unitsEnter st item qty snacks s)).lines } := by
  have hframe := unitsEnter_frame st item qty snacks s
  rw [reserveUnits_frame] at hframe
  rw [basket_emit, emit_items, emit_frame]
  generalize unitsEnter st item qty snacks s = u at hframe ⊢
  generalize u.basket st = b at hframe ⊢
  rw [hframe]

theorem item_basketLoses_unitsOut (st : Station) (item qty : Nat) (l : List SnackLine) (s : State) (k : Nat) :
    (basketLoses st (unitsOut st item qty l s)).item k = (unitsOut st item qty l s).item k := by
  simp only [State.item, items_basketLoses_unitsOut]

/-- A basket that keeps something when units leave it. -/
theorem emit_unitsOut_left_frame (x : Line) (r : OutRec) (st : Station) (item qty : Nat) (l : List SnackLine) (b : Basket) (s : State) :
    emit x r (setBasket st b (unitsOut st item qty l s)) = { s with
      items := (emit x r (setBasket st b (unitsOut st item qty l s))).items, baskets := s.baskets.set st b,
      lines := (emit x r (setBasket st b (unitsOut st item qty l s))).lines } := by
  have hframe := unitsOut_frame st item qty l s
  rw [emit_items, emit_frame]
  generalize unitsOut st item qty l s = u at hframe ⊢
  rw [hframe, ← set_set s.baskets st { s.basket st with snacks := l } b]
  rfl

/-- A basket that keeps nothing when units leave it: it is emptied, and with it goes the hold that gathers alone. -/
structure LastUnitsTaken (st : Station) (s t : State) : Prop where
  frame : t = { s with
    screenings := t.screenings, holds := t.holds, items := t.items, baskets := s.baskets.set st Basket.vacant, lines := t.lines }
  dropped : GatheringDropped st s t
  kept : s.gathering st = none → t.screenings = s.screenings ∧ t.holds = s.holds

theorem lastUnitsTaken_emit {st : Station} {item qty : Nat} {l : List SnackLine} {s : State}
    (hb : ({ s.basket st with snacks := l } : Basket).hollow = true) (x : Line) (r : OutRec) :
    LastUnitsTaken st s (emit x r (basketLoses st (unitsOut st item qty l s))) := by
  rw [basketLoses_unitsOut_of_none _ _ _ _ _ hb]
  have htaken := (emptyingTaken_emptyBasket st (unitsOut st item qty l s)).emit x r
  have hnothing := emptyBasket_of_nothing (st := st) (s := unitsOut st item qty l s) (by rw [basket_unitsOut, hb])
  have hframe := unitsOut_frame st item qty l s
  refine ⟨?_, ?_, fun hg => ?_⟩
  · have h := htaken.frame
    generalize emit x r (emptyBasket st (unitsOut st item qty l s)) = t at h ⊢
    rw [h, hframe, ← set_set s.baskets st { s.basket st with snacks := l } Basket.vacant]
  · have h := htaken.dropped
    rw [hframe] at h ⊢
    exact h
  · rw [emit_screenings, emit_holds, hnothing (by rw [hframe]; exact hg), hframe]
    exact ⟨rfl, rfl⟩

/-- Settles O35: the units enter the reserved count and the basket, or leave both, and the basket opens, changes or is emptied. -/
theorem snackLinesChanged : Obligations.SnackLinesChanged := by
  constructor
  · intro st tag item qty x s b after htakes hx h1 h9 hidle hlimit hstock hroom
    refine ⟨_, congrArg Host.Outcome.next ((stationRequest_of_takes htakes tag _).trans
      (addSnack_of_checks tag hx (within_iff.mpr ⟨h1, h9⟩) hidle hlimit hstock hroom)), emit_unitsEnter_frame .., ?_,
      fun code hcode => ?_, fun hempty => ?_, fun hopen => ?_, fun hup => ?_⟩
    · rw [item_emit, item_unitsEnter]; exact item_reserveUnits qty hx
    · rw [item_emit, item_unitsEnter]; exact item_reserveUnits_ne hcode qty s
    · rw [basket_emit, basket_unitsEnter_of_empty _ _ _ _ _ ((hollow_iff _).mpr hempty)]; rfl
    · rw [basket_emit, basket_unitsEnter_of_open _ _ _ _ _ ((hollow_eq_false_iff _).mpr hopen)]; rfl
    · rw [out_emit_of_line (line_unitsEnter st item qty _ s station_ne_site) hup]
      split
      · next y hy => rw [lineQty_addUnits_of_find qty hy]; rfl
      · next hno => rw [lineQty_addUnits_of_none qty hno]; rfl
  · intro st tag item qty x line s b left htakes hx h1 h9 hidle hline hle
    refine ⟨_, congrArg Host.Outcome.next ((stationRequest_of_takes htakes tag _).trans
      (removeSnack_of_checks tag (within_iff.mpr (item_code_range hx)) (within_iff.mpr ⟨h1, h9⟩) hidle hline hle)), ?_,
      fun code hcode => ?_, fun hleft => ?_, fun hholds hnone => ?_, fun hup => ?_⟩
    · rw [item_emit, item_basketLoses_unitsOut]; exact item_unitsOut _ _ _ _ _ hx
    · rw [item_emit, item_basketLoses_unitsOut]; exact item_unitsOut_ne _ _ _ _ _ hcode
    · rw [basketLoses_unitsOut_of_left _ _ _ _ _ ((hollow_eq_false_iff _).mpr hleft), basket_emit, basket_setBasket]
      exact ⟨emit_unitsOut_left_frame .., rfl⟩
    · have hhollow : ({ b with snacks := left } : Basket).hollow = true := (hollow_iff _).mpr ⟨hholds, hnone⟩
      obtain ⟨hframe, hdropped, hkept⟩ := lastUnitsTaken_emit (item := item) (qty := qty) hhollow (.station st) _
      exact ⟨hframe, hdropped, hkept⟩
    · rw [out_emit_of_line (line_basketLoses_unitsOut st item qty _ s) hup]
      split
      · next y hy => rw [lineQty_of_find (l := takeUnits item qty (s.basket st).snacks) hy]; rfl
      · next hno => rw [lineQty_of_none (l := takeUnits item qty (s.basket st).snacks) hno]; rfl

end Sys2Proof.Machine
end

section
/-! LOAD-TARIFF and LOAD-SNACKS past their checks: what they put in force, what they do to priced baskets, and whom they tell (R61,
R66, R67, R164): O39. -/

namespace Sys2Proof.Machine

/-! ### Lists judged entry by entry (R66, R164) -/

/-- A list whose entries are judged alone and against the keys of those before them has no entry at fault when every entry is in
order and no key comes twice. -/
theorem firstEntryFault_eq_none_iff {α : Type} {judge : List α → α → Option FieldName} {ok : α → Prop} {key : α → Nat}
    (h : ∀ before x, judge before x = none ↔ ok x ∧ ∀ d ∈ before, key d ≠ key x) : ∀ l before : List α,
    firstEntryFault judge before l = none ↔
      (∀ x ∈ l, ok x) ∧ (l.map key).Nodup ∧ ∀ x ∈ l, ∀ d ∈ before, key d ≠ key x
  | [], before => by simp [firstEntryFault]
  | x :: l, before => by
    have ih := firstEntryFault_eq_none_iff h l (before ++ [x])
    cases hx : judge before x with
    | some f =>
      have hno : ¬(ok x ∧ ∀ d ∈ before, key d ≠ key x) := fun hok => by rw [(h before x).mpr hok] at hx; cases hx
      simp only [firstEntryFault, hx]
      refine iff_of_false nofun fun ⟨hok, _, hnew⟩ => hno ⟨hok x List.mem_cons_self, hnew x List.mem_cons_self⟩
    | none =>
      obtain ⟨hok, hnew⟩ := (h before x).mp hx
      simp only [firstEntryFault, hx, ih, List.map_cons, List.nodup_cons, List.forall_mem_cons, List.mem_append, List.mem_map,
        List.mem_singleton]
      constructor
      · rintro ⟨hoks, hnodup, hkeys⟩
        exact ⟨⟨hok, hoks⟩, ⟨fun ⟨y, hy, e⟩ => hkeys y hy x (.inr rfl) e.symm, hnodup⟩, hnew, fun y hy d hd => hkeys y hy d (.inl hd)⟩
      · rintro ⟨⟨_, hoks⟩, ⟨hfresh, hnodup⟩, _, hkeys⟩
        refine ⟨hoks, hnodup, fun y hy d hd => hd.elim (hkeys y hy d) ?_⟩
        rintro rfl e
        exact hfresh ⟨y, hy, e.symm⟩

theorem categoryFault_eq_none_iff (before : List Category) (c : Category) : categoryFault before c = none ↔
    (c.num < 8 ∧ c.factor ≤ 2000) ∧ ∀ d ∈ before, d.num ≠ c.num := by
  simp [categoryFault, firstFault_eq_none, categoryOk, within, and_right_comm]

theorem snackFault_eq_none_iff (before : List SnackEntry) (e : SnackEntry) : snackFault before e = none ↔
    ((1 ≤ e.item ∧ e.item ≤ 24) ∧ e.price ≤ 5000) ∧ ∀ d ∈ before, d.item ≠ e.item := by
  simp [snackFault, firstFault_eq_none, itemOk, within, and_right_comm]

theorem nodup_of_tariffFault {f : Tariff} (h : tariffFault f = none) : (f.cats.map (·.num)).Nodup := by
  unfold tariffFault at h
  split at h
  · split at h
    · cases h
    · next hcats => exact ((firstEntryFault_eq_none_iff categoryFault_eq_none_iff _ _).mp hcats).2.1
  · cases h

/-! ### Categories put in order (R67) -/

theorem insertCategory_eq (c : Category) : ∀ l, insertCategory c l = l.orderedInsert (fun a b => a.num ≤ b.num) c
  | [] => rfl
  | d :: l => by rw [insertCategory, List.orderedInsert, insertCategory_eq c l]

theorem sortedCategories_eq (l : List Category) : l.foldr insertCategory [] = l.insertionSort (fun a b => a.num ≤ b.num) := by
  rw [List.insertionSort]
  congr
  funext c l
  exact insertCategory_eq c l

/-- The categories of a tariff past its checks, in ascending number (R67). -/
theorem sortedCategories {f : Tariff} (h : tariffFault f = none) : (f.cats.foldr insertCategory []).Perm f.cats ∧
    (f.cats.foldr insertCategory []).Pairwise (fun a b => a.num < b.num) := by
  have htotal : Std.Total (fun a b : Category => a.num ≤ b.num) := ⟨fun a b => le_total a.num b.num⟩
  have htrans : IsTrans Category (fun a b => a.num ≤ b.num) := ⟨fun _ _ _ => le_trans⟩
  rw [sortedCategories_eq]
  have hperm := List.perm_insertionSort (fun a b : Category => a.num ≤ b.num) f.cats
  refine ⟨hperm, ?_⟩
  have hnodup := (hperm.map (·.num)).nodup_iff.mpr (nodup_of_tariffFault h)
  have hne : (f.cats.insertionSort (fun a b => a.num ≤ b.num)).Pairwise (fun a b => a.num ≠ b.num) := List.pairwise_map.mp hnodup
  exact (List.pairwise_insertionSort _ _).and hne |>.imp fun ⟨hle, hne⟩ => lt_of_le_of_ne hle hne

/-! ### Baskets treated at a load (R61) -/

/-- A line after records are put out on it (R184). -/
def State.lineWith (s : State) (l : Line) (rs : List OutRec) : LineRec :=
  if s.isLost l then s.line l else { s.line l with out := (s.line l).out ++ rs }

theorem line_emit (l : Line) (r : OutRec) (s : State) : (emit l r s).line l = s.lineWith l [r] := by
  unfold State.lineWith
  cases h : s.isLost l with
  | true => rw [emit_of_lost h]; rfl
  | false => rw [emit_of_up h]; exact line_setLine ..

theorem lineWith_nil (s : State) (l : Line) : s.lineWith l [] = s.line l := by simp [State.lineWith]

theorem lineWith_congr {s u : State} {l : Line} (h : u.line l = s.line l) (rs : List OutRec) : u.lineWith l rs = s.lineWith l rs := by
  unfold State.lineWith State.isLost; rw [h]

/-- A load outdates the summary of an idle station's basket. -/
abbrev State.Outdated (s : State) (st : Station) : Prop := (s.basket st).summary.isSome = true ∧ s.payIdle st = true

/-- What a load of kind `k` leaves of a station's basket and line, from `s` to `t` (R61). -/
inductive BasketTreated (k : LoadKind) (st : Station) (s t : State) : Prop
  | paying (h : s.basketState st = .paying) (hbasket : t.basket st = { s.basket st with payLoad := some k })
      (hline : t.line (.station st) = s.line (.station st))
  | outdated (h : s.Outdated st) (hbasket : t.basket st = { s.basket st with summary := none, stale := true })
      (hline : t.line (.station st) = s.lineWith (.station st) [.priceStale k])
  | kept (hno : s.basketState st ≠ .paying) (h : ¬s.Outdated st) (hbasket : t.basket st = s.basket st)
      (hline : t.line (.station st) = s.line (.station st))

/-- A station that pays is not idle (R47). -/
theorem basketState_ne_paying {s : State} {st : Station} (h : s.payIdle st = true) : s.basketState st ≠ .paying := by
  simp only [State.basketState, State.payState, payment_eq_none_of_payIdle h]
  split <;> decide

theorem not_outdated_of_paying {s : State} {st : Station} (h : s.basketState st = .paying) : ¬s.Outdated st :=
  fun ⟨_, hidle⟩ => basketState_ne_paying hidle h

theorem BasketTreated.basket {k : LoadKind} {st : Station} {s t : State} (h : BasketTreated k st s t) : t.basket st =
    if s.basketState st = .paying then { s.basket st with payLoad := some k }
    else if (s.basket st).summary.isSome = true ∧ s.payIdle st = true then { s.basket st with summary := none, stale := true }
    else s.basket st := by
  cases h with
  | paying h hbasket _ => rw [hbasket, if_pos h]
  | outdated h hbasket _ => rw [hbasket, if_neg (basketState_ne_paying h.2), if_pos h]
  | kept hno h hbasket _ => rw [hbasket, if_neg hno, if_neg h]

theorem BasketTreated.line {k : LoadKind} {st : Station} {s t : State} (h : BasketTreated k st s t) : t.line (.station st) =
    s.lineWith (.station st) (if (s.basket st).summary.isSome = true ∧ s.payIdle st = true then [.priceStale k] else []) := by
  cases h with
  | paying h _ hline => rw [hline, if_neg (not_outdated_of_paying h), lineWith_nil]
  | outdated h _ hline => rw [hline, if_pos h]
  | kept _ h _ hline => rw [hline, if_neg h, lineWith_nil]

theorem treatBasket_of_paying (k : LoadKind) {s : State} {st : Station} (h : s.basketState st = .paying) :
    treatBasket k s st = setBasket st { s.basket st with payLoad := some k } s := by
  simp [treatBasket, h, modifyBasket]

theorem treatBasket_of_outdated (k : LoadKind) {s : State} {st : Station} (h : s.Outdated st) : treatBasket k s st =
    emit (.station st) (.priceStale k) (setBasket st { s.basket st with summary := none, stale := true } s) := by
  obtain ⟨hsummary, hidle⟩ := h
  obtain ⟨m, hm⟩ := Option.isSome_iff_exists.mp hsummary
  have hno := basketState_ne_paying hidle
  cases hb : s.basketState st with
  | paying => exact absurd hb hno
  | empty => simp [treatBasket, hb, hm, hidle, modifyBasket]
  | opened => simp [treatBasket, hb, hm, hidle, modifyBasket]

theorem treatBasket_of_kept (k : LoadKind) {s : State} {st : Station} (hno : s.basketState st ≠ .paying) (h : ¬s.Outdated st) :
    treatBasket k s st = s := by
  have hbusy {m : Summary} (hm : (s.basket st).summary = some m) : ¬s.payIdle st = true := fun hidle => h ⟨by rw [hm]; rfl, hidle⟩
  unfold treatBasket
  split
  · next hp => exact absurd hp hno
  · next hm => exact if_neg (hbusy hm)
  · next hm => exact if_neg (hbusy hm)
  · rfl
  · rfl

theorem basketTreated_treatBasket (k : LoadKind) (st : Station) (s : State) : BasketTreated k st s (treatBasket k s st) := by
  by_cases hp : s.basketState st = .paying
  · rw [treatBasket_of_paying k hp]
    exact .paying hp (basket_setBasket ..) rfl
  · by_cases ho : s.Outdated st
    · rw [treatBasket_of_outdated k ho]
      exact .outdated ho ((basket_emit ..).trans (basket_setBasket ..)) (line_emit ..)
    · rw [treatBasket_of_kept k hp ho]
      exact .kept hp ho rfl rfl

/-- The basket, the payment and the line of a station: all that the treatment of its basket reads or writes. -/
def State.part (s : State) (st : Station) : Basket × Option Payment × LineRec :=
  (s.basket st, s.payment st, s.line (.station st))

theorem part_setBasket_ne {st st' : Station} (h : st' ≠ st) (b : Basket) (s : State) : (setBasket st b s).part st' = s.part st' := by
  unfold State.part; rw [basket_setBasket_ne h]; rfl

theorem part_emit_ne {st : Station} {l : Line} (h : Line.station st ≠ l) (r : OutRec) (s : State) :
    (emit l r s).part st = s.part st := by
  unfold State.part State.payment State.pay; rw [basket_emit, line_emit_ne h, emit_pays]

/-- The treatment of one basket leaves the other stations alone. -/
theorem part_treatBasket_ne {st st' : Station} (h : st' ≠ st) (k : LoadKind) (s : State) :
    (treatBasket k s st).part st' = s.part st' := by
  have hline : Line.station st' ≠ Line.station st := fun e => h (Line.station.inj e)
  cases basketTreated_treatBasket k st s with
  | paying hp => rw [treatBasket_of_paying k hp, part_setBasket_ne h]
  | outdated ho => rw [treatBasket_of_outdated k ho, part_emit_ne hline, part_setBasket_ne h]
  | kept hp ho => rw [treatBasket_of_kept k hp ho]

theorem BasketTreated.congr {k : LoadKind} {st : Station} {s t s' t' : State} (h : BasketTreated k st s t)
    (hs : s'.part st = s.part st) (ht : t'.part st = t.part st) : BasketTreated k st s' t' := by
  obtain ⟨hb, hp, hl⟩ := Prod.mk.inj hs |>.imp_right Prod.mk.inj
  obtain ⟨hb', -, hl'⟩ := Prod.mk.inj ht |>.imp_right Prod.mk.inj
  have hstate : s'.basketState st = s.basketState st := by unfold State.basketState State.payState; rw [hb, hp]
  have hout : s'.Outdated st ↔ s.Outdated st := by unfold State.Outdated State.payIdle; rw [hb, hp]
  cases h with
  | paying h hbasket hline => exact .paying (hstate.trans h) (by rw [hb', hb, hbasket]) (by rw [hl', hl, hline])
  | outdated h hbasket hline =>
    exact .outdated (hout.mpr h) (by rw [hb', hb, hbasket]) (by rw [hl', hline, lineWith_congr hl])
  | kept hno h hbasket hline =>
    exact .kept (hstate ▸ hno) (hout.not.mpr h) (by rw [hb', hb, hbasket]) (by rw [hl', hl, hline])

/-- What the step of a fold leaves at each member of the list, the fold leaves. -/
theorem foldl_keeps_of_mem {α β : Type} (f : State → β) (op : State → α → State) : ∀ (l : List α) (s : State),
    (∀ a ∈ l, ∀ s, f (op s a) = f s) → f (l.foldl op s) = f s
  | [], _, _ => rfl
  | a :: l, s, h => by
    rw [List.foldl_cons, foldl_keeps_of_mem f op l _ fun b hb => h b (List.mem_cons_of_mem _ hb), h a List.mem_cons_self]

/-- Every station's basket is treated once. -/
theorem basketTreated_treatBaskets (k : LoadKind) (st : Station) (s : State) : BasketTreated k st s (treatBaskets k s) := by
  have hnodup := List.nodup_finRange 8
  obtain ⟨before, behind, hl⟩ := List.append_of_mem (List.mem_finRange st)
  rw [hl, List.nodup_append, List.nodup_cons] at hnodup
  obtain ⟨-, ⟨hbehind, -⟩, hbefore⟩ := hnodup
  rw [treatBaskets, hl, List.foldl_append, List.foldl_cons]
  have hfirst : (before.foldl (treatBasket k) s).part st = s.part st := foldl_keeps_of_mem (·.part st) _ before s
    fun a ha u => part_treatBasket_ne (fun e => hbefore a ha st List.mem_cons_self e.symm) k u
  refine (basketTreated_treatBasket k st _).congr hfirst.symm ?_
  exact foldl_keeps_of_mem (·.part st) _ behind _ fun a ha u => part_treatBasket_ne (fun e => hbehind (by rw [e]; exact ha)) k u

/-- A load tells stations alone, before its reply (R61). -/
theorem line_treatBaskets {l : Line} (h : ∀ st, l ≠ .station st) (k : LoadKind) (s : State) : (treatBaskets k s).line l = s.line l := by
  refine foldl_keeps (·.line l) _ (fun u st => ?_) _ s
  cases basketTreated_treatBasket k st u with
  | paying hp => rw [treatBasket_of_paying k hp]; rfl
  | outdated ho => rw [treatBasket_of_outdated k ho, line_emit_ne (h st)]; rfl
  | kept hp ho => rw [treatBasket_of_kept k hp ho]

/-! ### A load answered (R61, R67, R164) -/

/-- What a load puts out on a line: the reply on the site link, PRICE-STALE to a station whose summary is outdated. -/
def loadTells (k : LoadKind) (reply : OutRec) (s : State) : Line → List OutRec
  | .site => [reply]
  | .station st => if (s.basket st).summary.isSome = true ∧ s.payIdle st = true then [.priceStale k] else []
  | .terminal _ | .printer _ => []

/-- The end of a load of kind `k`, from the state `s` in which its records are in force to `t`: every basket treated, the stations
told, and then the reply. -/
structure LoadEnded (k : LoadKind) (reply : OutRec) (s t : State) : Prop where
  frame : t = { s with baskets := t.baskets, lines := t.lines }
  treated : ∀ st, BasketTreated k st s t
  told : ∀ l, t.line l = s.lineWith l (loadTells k reply s l)

theorem loadEnded_replySite (k : LoadKind) (tag : Tag) (vs : List Val) (s : State) :
    LoadEnded k (.reply tag .ok vs) s (replySite tag .ok vs (treatBaskets k s)) := by
  have hframe := treatBaskets_frame k s
  have htreated (st : Station) := basketTreated_treatBaskets k st s
  have hline {l : Line} (h : ∀ st, l ≠ .station st) := line_treatBaskets h k s
  unfold replySite
  generalize treatBaskets k s = u at hframe htreated hline ⊢
  refine ⟨?_, fun st => (htreated st).congr rfl (part_emit_ne station_ne_site ..), fun l => ?_⟩
  · rw [emit_baskets, emit_frame, hframe]
  · cases l with
    | site => exact (line_emit ..).trans (lineWith_congr (hline (by simp)) _)
    | station st => exact (line_emit_ne station_ne_site ..).trans (htreated st).line
    | terminal st => exact (line_emit_ne (by simp) ..).trans ((hline (by simp)).trans (lineWith_nil ..).symm)
    | printer st => exact (line_emit_ne (by simp) ..).trans ((hline (by simp)).trans (lineWith_nil ..).symm)

/-! ### The items of LOAD-SNACKS (R164) -/

theorem item_takeSnacks_of_other {entries : List SnackEntry} {code : Nat} (h : ∀ e ∈ entries, e.item ≠ code) (s : State) :
    (takeSnacks entries s).item code = s.item code :=
  foldl_keeps_of_mem (·.item code) _ entries s fun e he u => by rw [item_modifyItem, if_neg (h e he).symm]

theorem item_takeSnacks_of_entry {entries : List SnackEntry} (hnodup : (entries.map (·.item)).Nodup) {e : SnackEntry} (he : e ∈ entries)
    {x : Item} {s : State} (hx : s.item e.item = some x) :
    (takeSnacks entries s).item e.item = some { x with name := e.name, price := e.price } := by
  obtain ⟨before, behind, rfl⟩ := List.append_of_mem he
  rw [List.map_append, List.map_cons, List.nodup_append, List.nodup_cons] at hnodup
  obtain ⟨-, ⟨hbehind, -⟩, hbefore⟩ := hnodup
  have hfirst := item_takeSnacks_of_other (entries := before) (code := e.item)
    (fun d hd => hbefore d.item (List.mem_map_of_mem hd) e.item List.mem_cons_self) s
  have hlast := item_takeSnacks_of_other (entries := behind) (code := e.item)
    (fun d hd heq => hbehind (List.mem_map.mpr ⟨d, hd, heq⟩))
  unfold takeSnacks at hfirst hlast ⊢
  rw [List.foldl_append, List.foldl_cons, hlast, item_modifyItem, if_pos rfl, hfirst, hx]
  rfl

/-! ### The loads past their checks (R67, R164) -/

theorem loadEnded_loadTariff (tag : Tag) {f : Tariff} (s : State) (h : tariffFault f = none) :
    LoadEnded .tariff (.reply tag .ok [.tariffId (succWrap Config.maxSequence s.tariffId)])
      { s with tariff := some { f with cats := f.cats.foldr insertCategory [] }, tariffId := succWrap Config.maxSequence s.tariffId }
      (loadTariff tag f s) := by
  simp only [loadTariff, h]
  exact loadEnded_replySite ..

theorem loadEnded_loadSnacks (tag : Tag) {entries : List SnackEntry} (s : State) (h1 : 1 ≤ entries.length) (h24 : entries.length ≤ 24)
    (hrange : ∀ e ∈ entries, 1 ≤ e.item ∧ e.item ≤ 24 ∧ e.price ≤ 5000) (hnodup : (entries.map (·.item)).Nodup) :
    LoadEnded .snacks (.reply tag .ok [.itemsChanged entries.length]) (takeSnacks entries s) (loadSnacks tag entries s) := by
  have hlen : within 1 24 entries.length = true := within_iff.mpr ⟨h1, h24⟩
  have hfault : firstEntryFault snackFault [] entries = none := (firstEntryFault_eq_none_iff snackFault_eq_none_iff entries []).mpr
    ⟨fun e he => and_assoc.mpr (hrange e he), hnodup, fun _ _ _ hd => by cases hd⟩
  simp only [loadSnacks, hlen, hfault, if_true]
  exact loadEnded_replySite ..

/-- Settles O39: both loads end alike, after the tariff or the items that they put in force. -/
theorem loadsTaken : Obligations.LoadsTaken := by
  unfold Obligations.LoadsTaken
  intro told
  refine ⟨fun tag f s h => ⟨loadTariff tag f s, rfl, ?_⟩,
    fun tag entries s h1 h24 hrange hnodup => ⟨loadSnacks tag entries s, rfl, ?_⟩⟩
  · obtain ⟨hframe, htreated, htold⟩ := loadEnded_loadTariff tag s h
    generalize loadTariff tag f s = t at hframe htreated htold ⊢
    have hid : t.tariffId = succWrap Config.maxSequence s.tariffId := by rw [hframe]
    refine ⟨hframe.trans ?_, ?_, ⟨_, ?_, sortedCategories h⟩, fun st => (htreated st).basket⟩
    · rw [hframe]; rfl
    · rw [hid]; exact htold
    · rw [hframe]
  · obtain ⟨hframe, htreated, htold⟩ := loadEnded_loadSnacks tag s h1 h24 hrange hnodup
    generalize loadSnacks tag entries s = t at hframe htreated htold ⊢
    have hitem (code : Nat) : t.item code = (takeSnacks entries s).item code := by rw [hframe]; rfl
    refine ⟨?_, fun l => ?_, fun e he x hx => ?_, fun code hcode => ?_, fun st => ?_⟩
    · rw [hframe, takeSnacks_frame]
    · rw [htold, takeSnacks_frame]; rfl
    · rw [hitem, item_takeSnacks_of_entry hnodup he hx]
    · rw [hitem, item_takeSnacks_of_other hcode]
    · rw [(htreated st).basket, takeSnacks_frame]; rfl

end Sys2Proof.Machine
end

section
/-! The stages of a pricing, its totals and taxes (R68, R71 to R78): O37; and the shares of its units in the snack net (R80): O38. -/

namespace Sys2Proof.Machine

/-! ### Rounding (R72, R73, R78) -/

theorem dvd_stepRound (c r : Nat) : r ∣ stepRound c r := by
  have hlow : r ∣ c - c % r := Nat.dvd_sub_mod c
  unfold stepRound
  split
  · exact Nat.dvd_add hlow (Nat.dvd_refl r)
  · exact hlow

/-- The ceiling is a multiple of every step a tariff may hold (Table 4-1, R73). -/
theorem dvd_fareCeiling {r : Nat} (h : r ∈ [1, 5, 10, 25, 50, 100]) : r ∣ Config.fareCeiling := by
  revert r
  decide

theorem dvd_ceilingFare {c r : Nat} (hceil : r ∣ Config.fareCeiling) (hc : r ∣ c) : r ∣ ceilingFare c := by
  unfold ceilingFare
  rcases min_choice c Config.fareCeiling with h | h
  · rwa [h]
  · rwa [h]

/-- Half-up rounding of a quotient does not pass a whole number that bounds the quotient. -/
theorem halfUp_le {n d a : Nat} (hd : 0 < d) (h : n ≤ a * d) : halfUp n d ≤ a := by
  have hhalf : d / 2 < d := Nat.div_lt_self hd Nat.one_lt_two
  refine Nat.le_of_lt_succ ((Nat.div_lt_iff_lt_mul hd).mpr ?_)
  calc n + d / 2 < a * d + d := Nat.add_lt_add_of_le_of_lt h hhalf
    _ = (a + 1) * d := (Nat.succ_mul a d).symm

/-- A tax contained in an amount never exceeds it (R78). -/
theorem tax_le (amount rate : Nat) : halfUp (amount * rate) (10000 + rate) ≤ amount :=
  halfUp_le (by omega) (Nat.mul_le_mul_left amount (Nat.le_add_left rate 10000))

/-! ### Lines priced (R68, R74, R75) -/

theorem bandFactor_of_screening {s : State} {r : SeatRef} {sc : Screening} (hsc : s.screening r.slot = some sc) :
    s.bandFactor r = sc.band := by
  simp [State.bandFactor, hsc]

theorem classFare_of_seat {s : State} {r : SeatRef} {sc : Screening} {x : Seat} (hsc : s.screening r.slot = some sc)
    (hx : s.seat r.slot (refPos r) = some x) : s.classFare r = sc.fares[x.cls] := by
  simp [State.classFare, hsc, hx]

theorem priceSeat_of_seat {t : Tariff} {l : SeatLine} {sc : Screening} {x : Seat} {c : Category} {s : State}
    (hsc : s.screening l.ref.slot = some sc) (hx : s.seat l.ref.slot (refPos l.ref) = some x)
    (hc : tariffCategory t l.cat = some c) :
    priceSeat t s l =
      let fare := seatFare sc.fares[x.cls] sc.band c.factor t.step
      let fee := seatFee t.bookingFee fare.1 c.feeExempt
      { ref := l.ref, cat := l.cat, fare := fare.1, fee := fee, total := fare.1 + fee, clamped := fare.2 } := by
  simp only [priceSeat, hc, classFare_of_seat hsc hx, bandFactor_of_screening hsc, Option.map_some, Option.getD_some]

theorem priceSnack_of_item {l : SnackLine} {x : Item} {s : State} (hx : s.item l.item = some x) :
    priceSnack s l = { item := l.item, qty := l.qty, price := x.price, amount := x.price * l.qty } := by
  simp [priceSnack, hx]

/-! ### Totals of a pricing (R74, R76, R77) -/

section

variable {t : Tariff} {lines : List SeatLine} {snacks : List SnackLine} {s : State}

@[simp] theorem seats_pricing (t : Tariff) (lines : List SeatLine) (snacks : List SnackLine) (s : State) :
    (pricing t lines snacks s).seats = lines.map (priceSeat t s) := rfl

@[simp] theorem snacks_pricing (t : Tariff) (lines : List SeatLine) (snacks : List SnackLine) (s : State) :
    (pricing t lines snacks s).snacks = snacks.map (priceSnack s) := rfl

theorem total_of_mem_pricing {x : PricedSeat} (hx : x ∈ (pricing t lines snacks s).seats) : x.total = x.fare + x.fee := by
  obtain ⟨l, -, rfl⟩ := List.mem_map.mp hx
  rfl

theorem seatPart_pricing (t : Tariff) (lines : List SeatLine) (snacks : List SnackLine) (s : State) :
    (pricing t lines snacks s).seatPart = ((pricing t lines snacks s).seats.map (fun x => x.fare + x.fee)).sum :=
  congrArg List.sum (List.map_congr_left fun _ hx => total_of_mem_pricing (snacks := snacks) hx)

theorem effD_pricing_of_paid (h : ∃ x ∈ (pricing t lines snacks s).seats, 0 < x.fare) :
    (pricing t lines snacks s).effD = t.combo :=
  if_pos (by simpa using h)

theorem effD_pricing_of_unpaid (h : ∀ x ∈ (pricing t lines snacks s).seats, x.fare = 0) :
    (pricing t lines snacks s).effD = 0 :=
  if_neg (by simpa using h)

theorem effD_pricing_le (t : Tariff) (lines : List SeatLine) (snacks : List SnackLine) (s : State) :
    (pricing t lines snacks s).effD ≤ t.combo := by
  by_cases h : ∃ x ∈ (pricing t lines snacks s).seats, 0 < x.fare
  · exact (effD_pricing_of_paid h).le
  · have hfree : (pricing t lines snacks s).effD = 0 :=
      effD_pricing_of_unpaid fun x hx => Nat.eq_zero_of_not_pos fun hpos => h ⟨x, hx, hpos⟩
    rw [hfree]
    exact Nat.zero_le _

end

/-- Settles O37: each stage, line and total by its own rule. -/
theorem priceArithmetic : Obligations.PriceArithmetic := by
  refine ⟨fun f m p r hr => ?_, fun t lines snacks s => ?_, fun t lines sc x c s hsc hx hc => ?_,
    fun l x s hx => priceSnack_of_item hx⟩
  · have hmultiple : r ∣ (seatFare f m p r).1 := dvd_ceilingFare (dvd_fareCeiling hr) (dvd_stepRound _ r)
    exact ⟨rfl, Nat.mod_eq_zero_of_dvd hmultiple, Nat.min_le_right _ _⟩
  · exact ⟨rfl, rfl, rfl, rfl, fun x hx => total_of_mem_pricing hx, rfl, seatPart_pricing t lines snacks s, rfl, rfl,
      effD_pricing_of_paid, effD_pricing_of_unpaid, rfl, rfl, tax_le _ _, tax_le _ _⟩
  · exact priceSeat_of_seat hsc hx hc

/-! ### Unit prices and their shares (R80) -/

/-- The unit price of each unit of a summary, in unit order (R80). -/
def unitPrices (m : Summary) : List Nat := m.snacks.flatMap (fun l => List.replicate l.qty l.price)

/-- A unit price less the effective D, rounded down (R80). -/
def shareOf (d price : Nat) : Nat := price * (1000 - d) / 1000

theorem map_snd_unitShares (m : Summary) : (unitShares m).map (·.2) = (unitPrices m).map (shareOf m.effD) := by
  simp [unitShares, unitPrices, shareOf, List.map_flatMap]

theorem length_unitShares (m : Summary) : (unitShares m).length = (m.snacks.map (·.qty)).sum := by
  simp [unitShares, List.length_flatMap]

theorem length_unitPrices (m : Summary) : (unitPrices m).length = (unitShares m).length := by
  simp [unitShares, unitPrices, List.length_flatMap]

theorem sum_unitPrices_pricing (t : Tariff) (lines : List SeatLine) (snacks : List SnackLine) (s : State) :
    (unitPrices (pricing t lines snacks s)).sum = (pricing t lines snacks s).subtotal := by
  change ((snacks.map (priceSnack s)).flatMap (fun l => List.replicate l.qty l.price)).sum =
    ((snacks.map (priceSnack s)).map (·.amount)).sum
  induction snacks with
  | nil => rfl
  | cons l rest ih => simp [ih, priceSnack, Nat.mul_comm]

/-- Rounding each unit's share down loses less than a cent a unit. -/
theorem sum_shareOf_bounds (d : Nat) (prices : List Nat) :
    1000 * (prices.map (shareOf d)).sum ≤ prices.sum * (1000 - d) ∧
      prices.sum * (1000 - d) ≤ 1000 * (prices.map (shareOf d)).sum + 999 * prices.length := by
  induction prices with
  | nil => simp
  | cons p rest ih =>
    simp only [List.map_cons, List.sum_cons, List.length_cons, Nat.add_mul, shareOf] at ih ⊢
    omega

/-- The net of a discount rounded down lies between the sum of the unit shares and that sum with a cent more for each unit. -/
theorem net_bounds {d : Nat} (hd : d ≤ 1000) (prices : List Nat) :
    (prices.map (shareOf d)).sum ≤ prices.sum - prices.sum * d / 1000 ∧
      prices.sum - prices.sum * d / 1000 - (prices.map (shareOf d)).sum ≤ prices.length := by
  obtain ⟨hlow, hhigh⟩ := sum_shareOf_bounds d prices
  have hsplit : prices.sum * (1000 - d) + prices.sum * d = prices.sum * 1000 := by
    rw [← Nat.mul_add, Nat.sub_add_cancel hd]
  omega

/-! ### The residue given to the first unit (R80) -/

theorem length_giveResidue (residue : Nat) (units : List (Nat × Nat)) : (giveResidue residue units).length = units.length := by
  cases units <;> rfl

/-- Nothing of a residue is lost: a list with no unit has none to give. -/
theorem sum_giveResidue {residue : Nat} {units : List (Nat × Nat)} (h : residue ≤ units.length) :
    ((giveResidue residue units).map (·.2)).sum = (units.map (·.2)).sum + residue := by
  cases units with
  | nil => rw [Nat.le_zero.mp h]; rfl
  | cons u rest => simp [giveResidue, Nat.add_right_comm]

/-! ### Charged values (R80) -/

theorem sum_unitShares_bounds {t : Tariff} (hcombo : t.combo ≤ 1000) (lines : List SeatLine) (snacks : List SnackLine) (s : State) :
    let m := pricing t lines snacks s
    ((unitShares m).map (·.2)).sum ≤ m.snackNet ∧ m.snackNet - ((unitShares m).map (·.2)).sum ≤ (unitShares m).length := by
  intro m
  have hnet : m.snackNet = (unitPrices m).sum - (unitPrices m).sum * m.effD / 1000 := by
    rw [sum_unitPrices_pricing]; rfl
  rw [hnet, map_snd_unitShares, ← length_unitPrices]
  exact net_bounds ((effD_pricing_le t lines snacks s).trans hcombo) (unitPrices m)

/-- Settles O38: the residue is what rounding takes from the units, and the first unit gets it back. -/
theorem chargedValuesSumToSnackNet : Obligations.ChargedValuesSumToSnackNet := by
  intro t lines snacks s hcombo m units shared
  obtain ⟨hshared, hresidue⟩ := sum_unitShares_bounds (hcombo.trans (by decide)) lines snacks s
  refine ⟨?_, hshared, hresidue, ?_, ?_⟩
  · change giveResidue (m.snackNet - shared) units = _
    cases units <;> rfl
  · calc ((chargedValues m).map (·.2)).sum = shared + (m.snackNet - shared) := sum_giveResidue hresidue
      _ = m.snackNet := Nat.add_sub_cancel' hshared
  · calc (chargedValues m).length = (unitShares m).length := length_giveResidue _ _
      _ = (m.snacks.map (·.qty)).sum := length_unitShares m
      _ = (snacks.map (·.qty)).sum := by rw [snacks_pricing, List.map_map]; rfl

end Sys2Proof.Machine
end

section
/-! Stock, baskets, payments and lane room between two states (R52, R89, R129, R166): what easing them means, what a change of one
basket does to the stock, and how a step changes them, said once. -/

namespace Sys2Proof.Machine

/-! ### Units in snack lines -/

/-- The units of an item in snack lines. -/
def unitsIn (code : Nat) (l : List SnackLine) : Nat := ((l.filter (fun x => x.item = code)).map (·.qty)).sum

@[simp] theorem unitsIn_nil (code : Nat) : unitsIn code [] = 0 := rfl

theorem unitsIn_cons (code : Nat) (x : SnackLine) (l : List SnackLine) :
    unitsIn code (x :: l) = (if x.item = code then x.qty else 0) + unitsIn code l := by
  unfold unitsIn; by_cases h : x.item = code <;> simp [h]

theorem unitsIn_append (code : Nat) (a b : List SnackLine) : unitsIn code (a ++ b) = unitsIn code a + unitsIn code b := by
  simp [unitsIn]

theorem unitsIn_eq_zero {code : Nat} {l : List SnackLine} (h : ∀ x ∈ l, x.item ≠ code) : unitsIn code l = 0 := by
  have hnone : l.filter (fun x => x.item = code) = [] := List.filter_eq_nil_iff.mpr fun x hx => by simpa using h x hx
  simp [unitsIn, hnone]

theorem basketUnits_eq (s : State) (code : Nat) :
    s.basketUnits code = ((List.finRange 8).map (fun st => unitsIn code (s.basket st).snacks)).sum := rfl

/-- A sum over the stations changes by the one station at which the summand changes. -/
theorem sum_stations_change {f g : Fin 8 → Nat} (st : Fin 8) (h : ∀ st', st' ≠ st → g st' = f st') :
    ((List.finRange 8).map g).sum + f st = ((List.finRange 8).map f).sum + g st := by
  have hrest : ∑ x ∈ Finset.univ.erase st, g x = ∑ x ∈ Finset.univ.erase st, f x :=
    Finset.sum_congr rfl fun x hx => h x (Finset.ne_of_mem_erase hx)
  have hf := Finset.add_sum_erase Finset.univ f (Finset.mem_univ st)
  have hg := Finset.add_sum_erase Finset.univ g (Finset.mem_univ st)
  rw [← Fin.sum_univ_def, ← Fin.sum_univ_def]
  omega

theorem le_sum_stations (f : Station → Nat) (st : Station) : f st ≤ ((List.finRange 8).map f).sum :=
  List.le_sum_of_mem (List.mem_map_of_mem (List.mem_finRange st))

/-! ### Items, baskets and lanes that ease -/

/-- The counts of an item fit its allowance (R166). -/
def Item.Fits (x : Item) : Prop := x.issued + x.reserved ≤ x.allowance

/-- A summary lists the snack lines of a basket, and as many seats as the basket has seat lines (R69). -/
def Summary.Prices (m : Summary) (b : Basket) : Prop :=
  m.snacks.map (fun l => (⟨l.item, l.qty⟩ : SnackLine)) = b.snacks ∧ m.seats.length = b.seatLines.length

/-- A basket keeps its snack lines and the number of its seat lines; a summary in it stood before or prices it. -/
structure BasketKept (b c : Basket) : Prop where
  snacks : c.snacks = b.snacks
  lines : c.seatLines.length = b.seatLines.length
  summary : ∀ m, c.summary = some m → b.summary = some m ∨ m.Prices c

theorem BasketKept.refl (b : Basket) : BasketKept b b := ⟨rfl, rfl, fun _ => .inl⟩

theorem BasketKept.trans {b c d : Basket} (h : BasketKept b c) (k : BasketKept c d) : BasketKept b d where
  snacks := k.snacks.trans h.snacks
  lines := k.lines.trans h.lines
  summary m hm := by
    rcases k.summary m hm with hm | hm
    · exact (h.summary m hm).imp_right fun ⟨hs, hl⟩ => ⟨hs.trans k.snacks.symm, hl.trans k.lines.symm⟩
    · exact .inr hm

/-- A lane keeps its reserved room, and its orders fit beside it if they did (R129). -/
structure LaneKept (l m : Lane) : Prop where
  room : m.reservedRoom = l.reservedRoom
  fits : l.queue.length + l.reservedRoom ≤ 32 → m.queue.length + l.reservedRoom ≤ 32

theorem LaneKept.refl (l : Lane) : LaneKept l l := ⟨rfl, id⟩

theorem LaneKept.trans {l m n : Lane} (h : LaneKept l m) (k : LaneKept m n) : LaneKept l n :=
  ⟨k.room.trans h.room, fun hl => by have := k.fits; rw [h.room] at this; exact this (h.fits hl)⟩

/-- What lane room depends on of a payment: whether it is before its commit, and the room it holds. -/
def Payment.laneHold (p : Payment) : Bool × Nat := (decide (p.phase = .capturing), p.resLane)

/-- From `s` to `t` no unit or room is taken beyond what fits: items keep at least their reserved counts and stay within their
allowances, baskets their contents, lanes their reserved room, and payments what they hold. -/
structure Eases (s t : State) : Prop where
  items : ∀ code y, t.item code = some y → ∃ x, s.item code = some x ∧ x.reserved ≤ y.reserved ∧ (x.Fits → y.Fits)
  baskets : ∀ st, BasketKept (s.basket st) (t.basket st)
  lanes : ∀ st, LaneKept (s.lane st) (t.lane st)
  payments : ∀ st, (t.payment st).map Payment.laneHold = (s.payment st).map Payment.laneHold

/-- Items that keep their counts. -/
theorem items_of_same {s t : State} (h : t.items = s.items) (code : Nat) (y : Item) (hy : t.item code = some y) :
    ∃ x, s.item code = some x ∧ x.reserved ≤ y.reserved ∧ (x.Fits → y.Fits) :=
  ⟨y, by unfold State.item at *; rwa [h] at hy, le_rfl, id⟩

theorem Eases.of_same {s t : State} (hitems : t.items = s.items) (hbaskets : t.baskets = s.baskets) (hlanes : t.lanes = s.lanes)
    (hpays : t.pays = s.pays) : Eases s t where
  items := items_of_same hitems
  baskets st := by unfold State.basket; rw [hbaskets]; exact .refl _
  lanes st := by unfold State.lane; rw [hlanes]; exact .refl _
  payments st := by unfold State.payment State.pay; rw [hpays]

theorem Eases.refl (s : State) : Eases s s := .of_same rfl rfl rfl rfl

theorem Eases.trans {s t u : State} (h : Eases s t) (k : Eases t u) : Eases s u where
  items code z hz := by
    obtain ⟨y, hy, hle, hfits⟩ := k.items code z hz
    obtain ⟨x, hx, hle', hfits'⟩ := h.items code y hy
    exact ⟨x, hx, hle'.trans hle, hfits ∘ hfits'⟩
  baskets st := (h.baskets st).trans (k.baskets st)
  lanes st := (h.lanes st).trans (k.lanes st)
  payments st := (k.payments st).trans (h.payments st)

/-- `Eases.trans` read from the last operation inward, as a composed operation is written. -/
theorem Eases.after {s t u : State} (k : Eases t u) (h : Eases s t) : Eases s u := h.trans k

theorem Eases.foldl {α : Type} (op : State → α → State) (h : ∀ s a, Eases s (op s a)) (l : List α) (s : State) :
    Eases s (l.foldl op s) :=
  foldl_preserves (Eases s) op (fun t a ht => ht.trans (h t a)) l s (.refl s)

/-! ### One basket and the stock -/

/-- The counts of an item follow a change of the units that one basket has of it, from `before` to `after` (R52, R53). -/
structure ItemFollows (before after : Nat) (x y : Item) : Prop where
  fits : x.Fits → y.Fits
  reserved : before ≤ x.reserved → x.reserved + after ≤ y.reserved + before

/-- From `s` to `t` the basket of one station changes, and the reserved counts follow its units (R166). -/
structure StockFollows (st : Station) (s t : State) : Prop where
  elsewhere : ∀ st', st' ≠ st → t.basket st' = s.basket st'
  once : ((s.basket st).snacks.map (·.item)).Nodup → ((t.basket st).snacks.map (·.item)).Nodup
  items : ((s.basket st).snacks.map (·.item)).Nodup → ∀ code y, t.item code = some y → ∃ x, s.item code = some x ∧
    ItemFollows (unitsIn code (s.basket st).snacks) (unitsIn code (t.basket st).snacks) x y

theorem StockFollows.trans {st : Station} {s t u : State} (h : StockFollows st s t) (k : StockFollows st t u) :
    StockFollows st s u where
  elsewhere st' hne := (k.elsewhere st' hne).trans (h.elsewhere st' hne)
  once := k.once ∘ h.once
  items hn code z hz := by
    obtain ⟨y, hy, hyz⟩ := k.items (h.once hn) code z hz
    obtain ⟨x, hx, hxy⟩ := h.items hn code y hy
    refine ⟨x, hx, hyz.fits ∘ hxy.fits, fun hle => ?_⟩
    have h1 := hxy.reserved hle
    have h2 := hyz.reserved (by omega)
    omega

theorem StockFollows.after {st : Station} {s t u : State} (k : StockFollows st t u) (h : StockFollows st s t) :
    StockFollows st s u := h.trans k

/-- A basket that keeps its snack lines, with no item changed. -/
theorem StockFollows.of_same {st : Station} {s t : State} (hitems : t.items = s.items)
    (helse : ∀ st', st' ≠ st → t.basket st' = s.basket st') (hsnacks : (t.basket st).snacks = (s.basket st).snacks) :
    StockFollows st s t where
  elsewhere := helse
  once := by rw [hsnacks]; exact id
  items _ code y hy := by
    obtain ⟨x, hx, hle, hfits⟩ := items_of_same hitems code y hy
    exact ⟨x, hx, hfits, fun _ => by rw [hsnacks]; omega⟩

/-! ### The shifts of a step -/

/-- One shift of a step in stock, baskets, payments and lane room.  `F` is what a step may suppose of the state it begins in. -/
inductive Shift (F : Prop) : State → State → Prop
  /-- Nothing is taken beyond what fits. -/
  | eases {s t : State} (h : Eases s t) : Shift F s t
  /-- Power-on and RESET. -/
  | restarts {s t : State} (hitems : t.items = State.reset.items) (hbaskets : t.baskets = State.reset.baskets)
      (hpays : t.pays = State.reset.pays) (hlanes : ∀ st, (t.lane st).queue = [] ∧ (t.lane st).reservedRoom = 0) : Shift F s t
  /-- The basket of a station with no payment in flight changes, and is left without a summary (R55, R58). -/
  | turns {s t : State} {st : Station} (hidle : F → s.payment st = none) (h : StockFollows st s t)
      (hsummary : (t.basket st).summary = none) (hpays : t.pays = s.pays) (hlanes : t.lanes = s.lanes) : Shift F s t
  /-- PAY (R88). -/
  | starts {s : State} {st : Station} (tag : Tag) (h : payRefusal st s = none) : Shift F s (acceptPay st tag s)
  /-- A payment ends without a sale (R94). -/
  | ends {s : State} {st : Station} {p q : Payment} (hp : s.payment st = some p) (hq : q.resLane = p.resLane)
      (o : Option PayOutcome) : Shift F s (endWithoutSale st q o s)
  /-- The end of a capture (R104). -/
  | captures {s : State} {st : Station} {p : Payment} (hp : s.payment st = some p) (hph : p.phase = .capturing)
      (c : CaptureState) : Shift F s (endCapture st p c s)
  /-- The commit of a station's basket (R112). -/
  | commits {s : State} {st : Station} {p p' : Payment} (hp : s.payment st = some p) (hph : p.phase = .authorising)
      (hph' : p'.phase = .capturing) (hlane : p'.resLane = 0) (auth : Auth) :
      Shift F s (setPayment st (some p') (commit st auth p.resLane s))

/-- A sequence of shifts. -/
abbrev Shifts (F : Prop) : State → State → Prop := Relation.ReflTransGen (Shift F)

theorem Eases.shifts {F : Prop} {s t : State} (h : Eases s t) : Shifts F s t := .single (.eases h)

/-- Shifts read from the last operation inward, as a composed operation is written. -/
theorem Shifts.after {F : Prop} {s t u : State} (k : Shifts F t u) (h : Shifts F s t) : Shifts F s u := h.trans k

end Sys2Proof.Machine
end

section
/-! Stock and lane room under each shift (R129, R166). -/

namespace Sys2Proof.Machine

/-! ### A PAY accepted (R88) -/

/-- Every field that the acceptance of a PAY can change (R85, R88, R89). -/
theorem acceptPay_whole (st : Station) (tag : Tag) (s : State) : acceptPay st tag s = { s with
    salesReserved := s.salesReserved + 1, journalReserved := s.journalReserved + 1,
    journalArmed := (acceptPay st tag s).journalArmed,
    lanes := s.lanes.set st { s.lane st with reservedRoom := (s.lane st).reservedRoom + (s.basket st).chainLength },
    pays := s.pays.set st
      { count := succWrap Config.maxPayCount (s.pay st).count,
        current := some (newPayment s (((s.basket st).summary.map (·.total)).getD 0) (s.basket st).chainLength) },
    holds := (setHoldPhases st .paying s).holds, requests := s.requests.set st (some ⟨.pay, tag⟩),
    lines := (acceptPay st tag s).lines } := by
  unfold acceptPay
  dsimp only
  generalize h1 : judgeJournal _ = s1
  have e1 := judgeJournal_frame { s with salesReserved := s.salesReserved + 1, journalReserved := s.journalReserved + 1 }
  rw [h1] at e1
  generalize hu : setPay st _ (modifyLane st _ s1) = u
  have hh : (setHoldPhases st .paying u).holds = (setHoldPhases st .paying s).holds :=
    holds_setHoldPhases_congr st .paying (by rw [← hu, e1]; rfl) (by rw [← hu, e1]; rfl)
  generalize h3 : emit (.terminal st) _ _ = s3
  have e3 := emit_frame (.terminal st) (.select (s.station st).addr) (setHoldPhases st .paying u)
  rw [h3, setHoldPhases_frame, hh] at e3
  clear h1 h3
  rw [e3, ← hu, e1]
  rfl

/-! ### The units of a summary and of a commit (R80, R166) -/

theorem map_fst_giveResidue (residue : Nat) (l : List (Nat × Nat)) : (giveResidue residue l).map (·.1) = l.map (·.1) := by
  cases l <;> rfl

/-- The units of an item among the charged values are those of the summary's snack lines (R80). -/
theorem countP_chargedValues (m : Summary) (code : Nat) : (chargedValues m).countP (fun e => e.1 = code) =
    unitsIn code (m.snacks.map (fun l => (⟨l.item, l.qty⟩ : SnackLine))) := by
  have hcount (l : List (Nat × Nat)) : l.countP (fun e => e.1 = code) = (l.map (·.1)).count code := by
    rw [List.count, List.countP_map]
    exact List.countP_congr fun e _ => by simp
  rw [hcount, chargedValues, map_fst_giveResidue, ← hcount, unitShares]
  induction m.snacks with
  | nil => rfl
  | cons l t ih =>
    rw [List.flatMap_cons, List.countP_append, ih, List.map_cons, unitsIn_cons, List.countP_replicate]
    simp

theorem length_chargedValues (m : Summary) : (chargedValues m).length = (m.snacks.map (·.qty)).sum := by
  rw [chargedValues, length_giveResidue, length_unitShares]

theorem unitsOf_map_snacks (l : List PricedSnack) :
    unitsOf (l.map (fun x => (⟨x.item, x.qty⟩ : SnackLine))) = (l.map (·.qty)).sum := by
  simp [unitsOf, Function.comp_def]

/-- The units of a sale entered from a basket pass from the reserved to the issued counts (R166). -/
theorem item_enterSale_reserved (n : Nat) (x : Sale) (m : Summary) (holds : List Nat) (s : State) (k : Nat) :
    (enterSale n x m holds true s).item k = (s.item k).map (fun i =>
      { i with
        reserved := i.reserved - (chargedValues m).countP (fun e => e.1 = k),
        issued := i.issued + (chargedValues m).countP (fun e => e.1 = k) }) := by
  unfold enterSale
  dsimp only
  rw [modifySale_frame]
  refine (item_createVouchers_reserved ..).trans ?_
  rw [sellHolds_frame]
  rfl

theorem items_queueSale (st : Station) (n room : Nat) (s : State) : (queueSale st n room s).items = s.items := by
  unfold queueSale; split <;> rfl

/-- The units of a basket pass from the reserved to the issued counts at its commit (R112, R166). -/
theorem item_commit (st : Station) (auth : Auth) (room : Nat) (s : State) (k : Nat) :
    let units := (chargedValues ((s.basket st).summary.getD Summary.nothing)).countP (fun e => e.1 = k)
    (commit st auth room s).item k =
      (s.item k).map (fun i => { i with reserved := i.reserved - units, issued := i.issued + units }) := by
  unfold commit State.item
  rw [items_queueSale]
  exact item_enterSale_reserved ..

/-! ### The basket at the end of a payment (R62, R94) -/

/-- Units returned lower the reserved counts of their items (R53, R58). -/
theorem item_returned (k : Nat) : ∀ (l : List SnackLine) (s : State) (y : Item),
    (l.foldl (fun s x => returnUnits x.item x.qty s) s).item k = some y → ∃ x, s.item k = some x ∧
      y.allowance = x.allowance ∧ y.issued = x.issued ∧ y.reserved = x.reserved - unitsIn k l
  | [], _, y, hy => ⟨y, hy, rfl, rfl, rfl⟩
  | a :: l, s, y, hy => by
    obtain ⟨z, hz, h1, h2, h3⟩ := item_returned k l (returnUnits a.item a.qty s) y hy
    rw [unitsIn_cons]
    by_cases e : a.item = k
    · subst e
      cases hx : s.item a.item with
      | none =>
        rw [returnUnits, item_judgeLow, item_modifyItem, hx] at hz
        simp at hz
      | some x =>
        obtain ⟨armed, hret⟩ := item_returnUnits a.qty hx
        rw [hret] at hz
        cases hz
        exact ⟨x, rfl, h1, h2, by rw [h3, if_pos rfl]; dsimp only; omega⟩
    · rw [item_returnUnits_ne (Ne.symm e)] at hz
      exact ⟨z, hz, h1, h2, by rw [h3, if_neg e, Nat.zero_add]⟩

/-- An emptying returns the units of the basket (R58). -/
theorem stockFollows_emptyBasket (st : Station) (s : State) : StockFollows st s (emptyBasket st s) := by
  have hvacant : (emptyBasket st s).basket st = Basket.vacant := by rw [emptyBasket_eq, basket_emptyLetting]
  refine ⟨fun st' hne => ?_, fun _ => by rw [hvacant]; exact List.nodup_nil, fun _ code y hy => ?_⟩
  · exact (basket_of_set (by rw [emptyBasket_frame])).2 st' hne
  · obtain ⟨x, hx, h1, h2, h3⟩ := item_returned code _ _ y hy
    rw [item_releases] at hx
    refine ⟨x, hx, fun hfits => ?_, fun hle => ?_⟩
    · unfold Item.Fits at hfits ⊢; omega
    · rw [hvacant, show unitsIn code Basket.vacant.snacks = 0 from rfl]; omega

/-- What the basket of a station comes to when its contents go or its price: it has no summary, or is as it was. -/
structure BasketEnds (st : Station) (s t : State) : Prop where
  follows : StockFollows st s t
  summary : (t.basket st).summary = none ∨ BasketKept (s.basket st) (t.basket st)

theorem BasketEnds.of_vacant {st : Station} {s t : State} (h : StockFollows st s t) (hb : (t.basket st).summary = none) :
    BasketEnds st s t := ⟨h, .inl hb⟩

theorem basketEnds_settleBasket (st : Station) (s : State) : BasketEnds st s (settleBasket st s) := by
  have emptied (u : State) (hu : u.items = (emptyBasket st s).items ∧ u.baskets = (emptyBasket st s).baskets) :
      BasketEnds st s u := by
    have hb (st' : Station) : u.basket st' = (emptyBasket st s).basket st' := by unfold State.basket; rw [hu.2]
    refine .of_vacant ((stockFollows_emptyBasket st s).trans (.of_same hu.1 (fun st' _ => hb st') (by rw [hb]))) ?_
    rw [hb, emptyBasket_eq, basket_emptyLetting]; rfl
  unfold settleBasket
  dsimp only
  split
  · exact emptied _ ⟨by simp, by simp⟩
  · split
    · exact emptied _ ⟨rfl, rfl⟩
    · split
      · refine .of_vacant (.of_same (by simp [modifyBasket]) (fun st' hne => ?_) ?_) ?_
        · rw [basket_emit]; exact basket_setBasket_ne hne ..
        · rw [basket_emit, modifyBasket, basket_setBasket]
        · rw [basket_emit, modifyBasket, basket_setBasket]
      · exact ⟨.of_same rfl (fun _ _ => rfl) rfl, .inr (.refl _)⟩

theorem basketEnds_endWithoutSale (st : Station) (q : Payment) (o : Option PayOutcome) (s : State) :
    BasketEnds st s (endWithoutSale st q o s) := by
  unfold endWithoutSale
  dsimp only
  generalize hw : setHoldPhases st .standing _ = w
  have hitems : w.items = s.items := by
    rw [← hw, setHoldPhases_frame]
    split
    · rw [modifyBasket, setBasket_items, releaseReservations_frame]
    · rw [releaseReservations_frame]
  have helse (st' : Station) (hne : st' ≠ st) : w.basket st' = s.basket st' := by
    rw [← hw, setHoldPhases_frame]
    split
    · refine (basket_setBasket_ne hne ..).trans ?_
      rw [releaseReservations_frame]; rfl
    · rw [releaseReservations_frame]; rfl
  have hkept : BasketKept (s.basket st) (w.basket st) := by
    have hbasket : (releaseReservations st q s).basket st = s.basket st := by rw [releaseReservations_frame]; rfl
    rw [← hw, setHoldPhases_frame]
    split
    · have e : (modifyBasket st (fun b => { b with attempts := b.attempts + 1 }) (releaseReservations st q s)).basket st =
          { s.basket st with attempts := (s.basket st).attempts + 1 } := by rw [modifyBasket, basket_setBasket, hbasket]
      exact e ▸ ⟨rfl, rfl, fun _ => .inl⟩
    · exact (show BasketKept (s.basket st) ((releaseReservations st q s).basket st) by rw [hbasket]; exact .refl _)
  obtain ⟨hfollows, hsummary⟩ := basketEnds_settleBasket st w
  rw [tellOutcome_frame]
  exact ⟨(StockFollows.of_same hitems helse hkept.snacks).trans (hfollows.trans (.of_same rfl (fun _ _ => rfl) rfl)),
    hsummary.imp id hkept.trans⟩

theorem items_endCapture (st : Station) (p : Payment) (c : CaptureState) (s : State) : (endCapture st p c s).items = s.items := by
  unfold endCapture
  split
  · rw [setPayment_items, releaseReservations_frame]
  · rfl

theorem lanes_endCapture {p : Payment} (h : p.resLane = 0) (st : Station) (c : CaptureState) (s : State) :
    (endCapture st p c s).lanes = s.lanes := by
  unfold endCapture
  split
  · rw [setPayment_lanes, releaseReservations_frame]
    dsimp only
    rw [h]
    exact set_self s.lanes st
  · rfl

/-! ### Stock -/

/-- Items that ease beside baskets that keep their contents. -/
theorem stockFits_of_eases {s t : State} (hs : StockFits s)
    (hitems : ∀ code y, t.item code = some y → ∃ x, s.item code = some x ∧ x.reserved ≤ y.reserved ∧ (x.Fits → y.Fits))
    (hbaskets : ∀ st, BasketKept (s.basket st) (t.basket st)) : StockFits t := by
  obtain ⟨hfits, honce, hmatch⟩ := hs
  refine ⟨fun code y hy => ?_, fun st => ?_, fun st m hm => ?_⟩
  · obtain ⟨x, hx, hle, hxy⟩ := hitems code y hy
    obtain ⟨hxfits, hunits⟩ := hfits code x hx
    refine ⟨hxy hxfits, ?_⟩
    have hsame : t.basketUnits code = s.basketUnits code := by
      simp only [basketUnits_eq, fun st => (hbaskets st).snacks]
    omega
  · rw [(hbaskets st).snacks]; exact honce st
  · rcases (hbaskets st).summary m hm with h | h
    · rw [(hbaskets st).snacks]; exact hmatch st m h
    · exact h.1

theorem stockFits_of_same {s t : State} (hs : StockFits s) (hitems : t.items = s.items) (hbaskets : t.baskets = s.baskets) :
    StockFits t :=
  stockFits_of_eases hs (items_of_same hitems) (fun st => by unfold State.basket; rw [hbaskets]; exact .refl _)

/-- The units of all baskets change by those of one. -/
theorem basketUnits_follows {st : Station} {s t : State} (h : ∀ st', st' ≠ st → t.basket st' = s.basket st') (code : Nat) :
    t.basketUnits code + unitsIn code (s.basket st).snacks = s.basketUnits code + unitsIn code (t.basket st).snacks :=
  sum_stations_change (f := fun st => unitsIn code (s.basket st).snacks) (g := fun st => unitsIn code (t.basket st).snacks) st
    fun st' hne => by rw [h st' hne]

theorem unitsIn_le_basketUnits (s : State) (st : Station) (code : Nat) : unitsIn code (s.basket st).snacks ≤ s.basketUnits code :=
  le_sum_stations (fun st => unitsIn code (s.basket st).snacks) st

/-- A basket changes, and the stock follows it. -/
theorem stockFits_of_ends {st : Station} {s t : State} (hs : StockFits s) (h : BasketEnds st s t) : StockFits t := by
  obtain ⟨hfits, honce, hmatch⟩ := hs
  obtain ⟨⟨helse, hnodup, hitems⟩, hsummary⟩ := h
  refine ⟨fun code y hy => ?_, fun st' => ?_, fun st' m hm => ?_⟩
  · obtain ⟨x, hx, hxy⟩ := hitems (honce st) code y hy
    obtain ⟨hxfits, hunits⟩ := hfits code x hx
    have hone := unitsIn_le_basketUnits s st code
    have hsum := basketUnits_follows helse code
    have hres := hxy.reserved (by omega)
    exact ⟨hxy.fits hxfits, by omega⟩
  · by_cases e : st' = st
    · subst e; exact hnodup (honce st')
    · rw [helse st' e]; exact honce st'
  · by_cases e : st' = st
    · subst e
      rcases hsummary with hnone | hkept
      · rw [hnone] at hm; cases hm
      · rcases hkept.summary m hm with h | h
        · rw [hkept.snacks]; exact hmatch st' m h
        · exact h.1
    · rw [helse st' e] at hm ⊢; exact hmatch st' m hm

/-- A commit issues the units of its basket, which were reserved (R112, R166). -/
theorem stockFits_commit {st : Station} {auth : Auth} {room : Nat} {s : State} (hs : StockFits s) :
    StockFits (commit st auth room s) := by
  obtain ⟨hfits, honce, hmatch⟩ := hs
  obtain ⟨_, _, hframe⟩ := commit_frame st auth room s
  obtain ⟨hvacant, helse⟩ := basket_of_set (s := s) (t := commit st auth room s) (by rw [hframe])
  have hunits (code : Nat) : (chargedValues ((s.basket st).summary.getD Summary.nothing)).countP (fun e => e.1 = code) ≤
      unitsIn code (s.basket st).snacks := by
    rw [countP_chargedValues]
    cases hm : (s.basket st).summary with
    | none => exact Nat.zero_le _
    | some m => exact (congrArg _ (hmatch st m hm)).le
  refine ⟨fun code y hy => ?_, fun st' => ?_, fun st' m hm => ?_⟩
  · rw [item_commit] at hy
    obtain ⟨x, hx, rfl⟩ := Option.map_eq_some_iff.mp hy
    obtain ⟨hxfits, hreserved⟩ := hfits code x hx
    have hle := hunits code
    have hone := unitsIn_le_basketUnits s st code
    have hsum := basketUnits_follows helse code
    rw [hvacant, show unitsIn code Basket.vacant.snacks = 0 from rfl] at hsum
    exact ⟨by dsimp only; omega, by dsimp only; omega⟩
  · by_cases e : st' = st
    · subst e; rw [hvacant]; exact List.nodup_nil
    · rw [helse st' e]; exact honce st'
  · by_cases e : st' = st
    · subst e; rw [hvacant] at hm; cases hm
    · rw [helse st' e] at hm ⊢; exact hmatch st' m hm

theorem stockFits_reset : StockFits State.reset := by
  have hitem (code : Nat) (x : Item) (h : State.reset.item code = some x) : x = Item.unnamed := by
    unfold State.item at h
    split at h
    · cases h; simp [State.reset]
    · cases h
  have hbasket (st : Station) : State.reset.basket st = Basket.vacant := by simp [State.basket, State.reset]
  refine ⟨fun code x hx => ?_, fun st => by rw [hbasket]; exact List.nodup_nil, fun st m hm => ?_⟩
  · obtain rfl := hitem code x hx
    simp [basketUnits_eq, hbasket, Basket.vacant, Item.unnamed]
  · rw [hbasket] at hm; cases hm

theorem stockFits_of_shift {F : Prop} {s t : State} (h : Shift F s t) (hs : StockFits s) : StockFits t := by
  cases h with
  | eases h => exact stockFits_of_eases hs h.items h.baskets
  | restarts hitems hbaskets _ _ => exact stockFits_of_same stockFits_reset hitems hbaskets
  | turns _ h hsummary _ _ => exact stockFits_of_ends hs ⟨h, .inl hsummary⟩
  | starts tag _ => exact stockFits_of_same hs (by rw [acceptPay_whole]) (by rw [acceptPay_whole])
  | ends _ _ o => exact stockFits_of_ends hs (basketEnds_endWithoutSale ..)
  | captures _ _ c => exact stockFits_of_same hs (items_endCapture ..) (baskets_endCapture ..)
  | commits _ _ _ _ auth => exact stockFits_of_same (stockFits_commit hs) (setPayment_items ..) (setPayment_baskets ..)

/-! ### Lane room -/

/-- What LanesFit says of one station. -/
structure StationFits (l : Lane) (q : Option Payment) (b : Basket) : Prop where
  priced : ∀ m, b.summary = some m → m.Prices b
  fits : l.queue.length + l.reservedRoom ≤ 32
  room : l.reservedRoom = (q.map (·.resLane)).getD 0
  held : ∀ p, q = some p → p.resLane = if p.phase = .capturing then 0 else b.chainLength

theorem lanesFit_iff (s : State) : LanesFit s ↔ PaymentsFreezeHolds s ∧
    ∀ st, StationFits (s.lane st) (s.payment st) (s.basket st) :=
  ⟨fun ⟨hf, hmatch, hlines, h⟩ => ⟨hf, fun st => ⟨fun m hm => ⟨hmatch st m hm, hlines st m hm⟩, (h st).1, (h st).2.1, (h st).2.2⟩⟩,
    fun ⟨hf, h⟩ => ⟨hf, fun st m hm => ((h st).priced m hm).1, fun st m hm => ((h st).priced m hm).2,
      fun st => ⟨(h st).fits, (h st).room, (h st).held⟩⟩⟩

theorem chainLength_of_kept {b c : Basket} (h : BasketKept b c) : c.chainLength = b.chainLength := by
  unfold Basket.chainLength; rw [h.lines, h.snacks]

theorem priced_of_kept {b c : Basket} (h : BasketKept b c) (hb : ∀ m, b.summary = some m → m.Prices b) (m : Summary)
    (hm : c.summary = some m) : m.Prices c := by
  rcases h.summary m hm with hm | hm
  · obtain ⟨hs, hl⟩ := hb m hm
    exact ⟨hs.trans h.snacks.symm, hl.trans h.lines.symm⟩
  · exact hm

theorem StationFits.ease {l l' : Lane} {q q' : Option Payment} {b b' : Basket} (h : StationFits l q b) (hl : LaneKept l l')
    (hq : q'.map Payment.laneHold = q.map Payment.laneHold) (hb : BasketKept b b') : StationFits l' q' b' where
  priced := priced_of_kept hb h.priced
  fits := by rw [hl.room]; exact hl.fits h.fits
  room := by
    rw [hl.room, h.room]
    cases q <;> cases q' <;> simp_all [Payment.laneHold]
  held p' hp' := by
    rw [chainLength_of_kept hb]
    subst hp'
    obtain ⟨p, hp, hkey⟩ := Option.map_eq_some_iff.mp hq.symm
    have := h.held p hp
    simp only [Payment.laneHold, Prod.mk.injEq, decide_eq_decide] at hkey
    simp only [hkey.1] at this
    rw [← hkey.2, this]

/-- A basket changes while no payment is in flight. -/
theorem StationFits.idle {l : Lane} {b b' : Basket} (h : StationFits l none b) (hb : ∀ m, b'.summary = some m → m.Prices b') :
    StationFits l none b' := ⟨hb, h.fits, h.room, fun _ h => by cases h⟩

theorem lane_of_set {s t : State} {st : Station} {l : Lane} (h : t.lanes = s.lanes.set st l) : t.lane st = l ∧
    ∀ st', st' ≠ st → t.lane st' = s.lane st' := by
  unfold State.lane
  rw [h]
  refine ⟨by simp, fun st' hne => ?_⟩
  simp only [Fin.getElem_fin]
  exact Vector.getElem_set_ne _ _ (by intro e; exact hne (Fin.ext e.symm))

/-- One station changes in lane, payment and basket. -/
theorem stationFits_of_turn {s t : State} {st : Station} {q : Option Payment}
    (hs : ∀ st', StationFits (s.lane st') (s.payment st') (s.basket st')) (hq : PaymentTurns st q s t)
    (hlane : ∀ st', st' ≠ st → t.lane st' = s.lane st') (hbasket : ∀ st', st' ≠ st → t.basket st' = s.basket st')
    (h : StationFits (t.lane st) q (t.basket st)) (st' : Station) : StationFits (t.lane st') (t.payment st') (t.basket st') := by
  by_cases e : st' = st
  · subst e; rw [hq.there]; exact h
  · rw [hlane st' e, hbasket st' e, hq.elsewhere st' e]; exact hs st'

theorem payRefusal_of_short_lane {s : State} {st : Station} (h : (s.lane st).room < (s.basket st).chainLength) :
    payRefusal st s ≠ none := by
  unfold payRefusal
  simp only [if_pos h]
  repeat' split
  all_goals exact Option.some_ne_none _

/-- What a PAY that no check of Table 5-5 refuses has found of its lane (R87). -/
theorem room_of_payRefusal {s : State} {st : Station} (h : payRefusal st s = none) :
    (s.lane st).queue.length + (s.lane st).reservedRoom + (s.basket st).chainLength ≤ 32 := by
  have hroom : ¬(s.lane st).room < (s.basket st).chainLength := fun hlt => payRefusal_of_short_lane hlt h
  unfold Lane.room Config.laneOrders at hroom
  have hpos : 1 ≤ (s.basket st).chainLength := Nat.le_add_left ..
  omega

theorem stationFits_of_restart {s : State} (hbaskets : s.baskets = State.reset.baskets) (hpays : s.pays = State.reset.pays)
    (hlanes : ∀ st, (s.lane st).queue = [] ∧ (s.lane st).reservedRoom = 0) (st : Station) :
    StationFits (s.lane st) (s.payment st) (s.basket st) := by
  have hbasket : s.basket st = Basket.vacant := by simp [State.basket, hbaskets, State.reset]
  have hpayment : s.payment st = none := by simp [State.payment, State.pay, hpays, State.reset]
  obtain ⟨hqueue, hroom⟩ := hlanes st
  rw [hbasket, hpayment]
  exact ⟨fun _ hm => (nomatch hm), by rw [hqueue, hroom]; decide, hroom, fun _ hp => (nomatch hp)⟩

/-- The room that a payment holds goes with it. -/
theorem StationFits.end {l : Lane} {p : Payment} {b b' : Basket} (h : StationFits l (some p) b)
    (hb : b'.summary = none ∨ BasketKept b b') : StationFits { l with reservedRoom := l.reservedRoom - p.resLane } none b' := by
  have hroom : l.reservedRoom = p.resLane := h.room
  have hfits := h.fits
  refine ⟨fun m hm => ?_, by dsimp only; omega, by simp [hroom], fun p hp => by cases hp⟩
  rcases hb with hnone | hkept
  · rw [hnone] at hm; cases hm
  · exact priced_of_kept hkept h.priced m hm

theorem length_chainOf_station (s : State) (n : Nat) (x : Sale) (m : Summary) (hseats : x.seats = s.saleSeats m)
    (hserials : x.serials.length = (chargedValues m).length) :
    (chainOf n x true).length = m.seats.length + (m.snacks.map (·.qty)).sum + 1 := by
  simp [chainOf, hseats, hserials, length_chargedValues, State.saleSeats, Nat.add_assoc]

/-- The chain of a commit takes the room that was reserved for it (R89, R112). -/
theorem StationFits.commit {st : Station} {auth : Auth} {s : State} {p p' : Payment} (hp : s.payment st = some p)
    (hph : p.phase = .authorising) (hph' : p'.phase = .capturing) (hlane : p'.resLane = 0)
    (h : StationFits (s.lane st) (s.payment st) (s.basket st)) :
    StationFits ((commit st auth p.resLane s).lane st) (some p') ((commit st auth p.resLane s).basket st) := by
  obtain ⟨serials, hserials, hframe⟩ := commit_frame st auth p.resLane s
  obtain ⟨hl, _⟩ := lane_of_set (s := s) (t := Machine.commit st auth p.resLane s) (by rw [hframe])
  obtain ⟨hb, _⟩ := basket_of_set (s := s) (t := Machine.commit st auth p.resLane s) (by rw [hframe])
  have hchain := length_chainOf_station s s.freshSale
    { s.stationSale st ((s.basket st).summary.getD Summary.nothing) auth with serials := serials }
    ((s.basket st).summary.getD Summary.nothing) rfl hserials
  rw [hp] at h
  have hroom : (s.lane st).reservedRoom = p.resLane := h.room
  have hheld : p.resLane = (s.basket st).chainLength := by simpa [hph] using h.held p rfl
  have hle : ((s.basket st).summary.getD Summary.nothing).seats.length +
      (((s.basket st).summary.getD Summary.nothing).snacks.map (·.qty)).sum + 1 ≤ (s.basket st).chainLength := by
    cases hm : (s.basket st).summary with
    | none => exact Nat.le_add_left ..
    | some m =>
      obtain ⟨hsnacks, hseats⟩ := h.priced m hm
      unfold Basket.chainLength
      rw [← hsnacks, unitsOf_map_snacks, ← hseats]
      exact le_rfl
  have hfits := h.fits
  rw [hl, hb]
  refine ⟨fun _ hm => (nomatch hm), ?_, by simp [hlane, hroom], fun q hq => ?_⟩
  · dsimp only
    rw [List.length_append, hchain]
    omega
  · cases hq; simp [hph', hlane]

/-- While no payment is in flight where a hold gathers, every shift keeps the lane room. -/
theorem stationFits_of_shift {F : Prop} {s t : State} (hF : F) (h : Shift F s t)
    (hs : ∀ st, StationFits (s.lane st) (s.payment st) (s.basket st)) (st : Station) :
    StationFits (t.lane st) (t.payment st) (t.basket st) := by
  revert st
  cases h with
  | eases h => exact fun st => (hs st).ease (h.lanes st) (h.payments st) (h.baskets st)
  | restarts _ hbaskets hpays hlanes => exact stationFits_of_restart hbaskets hpays hlanes
  | @turns _ st hidle h hsummary hpays hlanes =>
    have hpayment : t.payment = s.payment := by funext st'; unfold State.payment State.pay; rw [hpays]
    have hlane (st' : Station) : t.lane st' = s.lane st' := by unfold State.lane; rw [hlanes]
    have hst := hs st
    rw [hidle hF] at hst
    refine stationFits_of_turn hs (hidle hF ▸ paymentTurns_of_same hpayment st) (fun st' _ => hlane st') h.elsewhere ?_
    rw [hlane st]
    exact hst.idle fun m hm => by rw [hsummary] at hm; cases hm
  | @starts st tag h =>
    obtain ⟨hnone, _⟩ := payRefusal_none h
    have hst := hs st
    have hroom := room_of_payRefusal h
    have hframe := acceptPay_whole st tag s
    generalize acceptPay st tag s = t at hframe ⊢
    obtain ⟨hl, hlane⟩ := lane_of_set (s := s) (t := t) (by rw [hframe])
    have hb (st' : Station) : t.basket st' = s.basket st' := by rw [hframe]; rfl
    refine stationFits_of_turn hs (paymentTurns_of_pays (by rw [hframe])) hlane (fun st' _ => hb st') ?_
    rw [hb, hl]
    have hzero : (s.lane st).reservedRoom = 0 := by rw [hst.room, hnone]; rfl
    exact ⟨hst.priced, by dsimp only; omega, by simp [hzero, newPayment], fun p hp => by cases hp; simp [newPayment]⟩
  | @ends st p q hp hq o =>
    have hframe := endWithoutSale_frame st q o s
    obtain ⟨hfollows, hsummary⟩ := basketEnds_endWithoutSale st q o s
    have hst := hs st
    generalize endWithoutSale st q o s = t at hframe hfollows hsummary ⊢
    obtain ⟨hl, hlane⟩ := lane_of_set (s := s) (t := t) (by rw [hframe])
    refine stationFits_of_turn hs (paymentTurns_of_pays (c := { s.pay st with current := none }) (by rw [hframe])) hlane
      hfollows.elsewhere ?_
    rw [hl, hq]
    exact (hp ▸ hst).end hsummary
  | @captures st p hp hph c =>
    have hb (st' : Station) : (endCapture st p c s).basket st' = s.basket st' := by
      unfold State.basket; rw [baskets_endCapture]
    have hst := hs st
    rw [hp] at hst
    have hheld : p.resLane = 0 := by simpa [hph] using hst.held p rfl
    have hlane (st' : Station) : (endCapture st p c s).lane st' = s.lane st' := by
      unfold State.lane; rw [lanes_endCapture hheld]
    refine stationFits_of_turn hs turns_endCapture (fun st' _ => hlane st') (fun st' _ => hb st') ?_
    have hended := hst.end (.inr (.refl _))
    rw [hlane, hb]
    rwa [hheld] at hended
  | @commits st p p' hp hph hph' hlane auth =>
    obtain ⟨_, _, hframe⟩ := commit_frame st auth p.resLane s
    have hst := StationFits.commit (auth := auth) hp hph hph' hlane (hs st)
    generalize commit st auth p.resLane s = u at hframe hst ⊢
    have hpays : u.pays = s.pays := by rw [hframe]
    refine stationFits_of_turn hs (paymentTurns_of_pays (c := { u.pay st with current := some p' })
      (by rw [setPayment_pays, hpays])) (fun st' hne => ?_) (fun st' hne => ?_) hst
    · exact (lane_of_set (s := s) (t := setPayment st (some p') u) (by rw [setPayment_lanes, hframe])).2 st' hne
    · exact (basket_of_set (s := s) (t := setPayment st (some p') u) (by rw [setPayment_baskets, hframe])).2 st' hne

end Sys2Proof.Machine
end

section
/-! What eases stock and lane room: the shared operations, and the commands that take no unit and no room beyond what fits. -/

namespace Sys2Proof.Machine

/-! ### The shared operations -/

/-- A record put out after an operation that reaches neither items, baskets, lanes nor payments. -/
theorem eases_emit_of_same {l : Line} {r : OutRec} {s u : State} (hitems : u.items = s.items) (hbaskets : u.baskets = s.baskets)
    (hlanes : u.lanes = s.lanes) (hpays : u.pays = s.pays) : Eases s (emit l r u) := by
  rw [emit_frame]; exact .of_same hitems hbaskets hlanes hpays

theorem eases_emit (l : Line) (r : OutRec) (s : State) : Eases s (emit l r s) := eases_emit_of_same rfl rfl rfl rfl

theorem eases_replySite (tag : Tag) (c : Code) (vs : List Val) (s : State) : Eases s (replySite tag c vs s) := eases_emit ..

theorem eases_replyStation (st : Station) (tag : Tag) (c : Code) (vs : List Val) (s : State) :
    Eases s (replyStation st tag c vs s) := eases_emit ..

theorem eases_modifyLane {st : Station} {f : Lane → Lane} {s : State} (h : LaneKept (s.lane st) (f (s.lane st))) :
    Eases s (modifyLane st f s) where
  items := items_of_same rfl
  baskets _ := .refl _
  lanes st' := by
    by_cases e : st' = st
    · subst e; rw [modifyLane, lane_setLane]; exact h
    · rw [modifyLane, lane_setLane_ne e]; exact .refl _
  payments _ := rfl

/-- A lane that keeps its reserved room and has no more orders. -/
theorem LaneKept.of_length {l m : Lane} (hroom : m.reservedRoom = l.reservedRoom) (hlen : m.queue.length ≤ l.queue.length) :
    LaneKept l m := ⟨hroom, fun h => by omega⟩

theorem eases_setBasket {st : Station} {b : Basket} {s : State} (h : BasketKept (s.basket st) b) : Eases s (setBasket st b s) where
  items := items_of_same rfl
  baskets st' := by
    by_cases e : st' = st
    · subst e; rw [basket_setBasket]; exact h
    · rw [basket_setBasket_ne e]; exact .refl _
  lanes _ := .refl _
  payments _ := rfl

theorem eases_setPayment {st : Station} {q : Option Payment} {s : State}
    (h : q.map Payment.laneHold = (s.payment st).map Payment.laneHold) : Eases s (setPayment st q s) where
  items := items_of_same rfl
  baskets _ := .refl _
  lanes _ := .refl _
  payments st' := by
    by_cases e : st' = st
    · subst e; rw [payment_setPayment]; exact h
    · unfold State.payment; rw [pay_setPayment_ne e]

theorem eases_mapSeats (slot : Nat) (ps : List SeatPos) (f : Seat → Seat) (s : State) : Eases s (mapSeats slot ps f s) := by
  rw [mapSeats_frame]; exact .of_same rfl rfl rfl rfl

theorem eases_putHold (n : Nat) (h : Hold) (s : State) : Eases s (putHold n h s) := .of_same rfl rfl rfl rfl

theorem eases_releaseHold (n : Nat) (s : State) : Eases s (releaseHold n s) := by
  rw [releaseHold_frame]; exact .of_same rfl rfl rfl rfl

theorem eases_modifySale (n : Nat) (f : Sale → Sale) (s : State) : Eases s (modifySale n f s) := by
  rw [modifySale_frame]; exact .of_same rfl rfl rfl rfl

theorem eases_judgeJournal (s : State) : Eases s (judgeJournal s) := by
  rw [judgeJournal_frame]; exact .of_same rfl rfl rfl rfl

theorem eases_writeFree (sale : Option Nat) (amount : Nat) (body : JournalBody) (s : State) :
    Eases s (writeFree sale amount body s) := by
  rw [writeFree_frame]; exact .of_same rfl rfl rfl rfl

theorem eases_answerPay (st : Station) (c : Code) (vs : List Val) (s : State) : Eases s (answerPay st c vs s) := by
  rw [answerPay_frame]; exact .of_same rfl rfl rfl rfl

/-- Items alone ease. -/
theorem Eases.of_items {s t : State}
    (hitems : ∀ code y, t.item code = some y → ∃ x, s.item code = some x ∧ x.reserved ≤ y.reserved ∧ (x.Fits → y.Fits))
    (hbaskets : t.baskets = s.baskets) (hlanes : t.lanes = s.lanes) (hpays : t.pays = s.pays) : Eases s t where
  items := hitems
  baskets := (Eases.of_same (s := s) (t := { t with items := s.items }) rfl hbaskets hlanes hpays).baskets
  lanes := (Eases.of_same (s := s) (t := { t with items := s.items }) rfl hbaskets hlanes hpays).lanes
  payments := (Eases.of_same (s := s) (t := { t with items := s.items }) rfl hbaskets hlanes hpays).payments

theorem eases_modifyItem {code : Nat} {f : Item → Item} (h : ∀ x, x.reserved ≤ (f x).reserved ∧ (x.Fits → (f x).Fits)) (s : State) :
    Eases s (modifyItem code f s) := by
  refine .of_items (fun k y hy => ?_) (by rw [modifyItem_frame]) (by rw [modifyItem_frame]) (by rw [modifyItem_frame])
  rw [item_modifyItem] at hy
  split at hy
  · obtain ⟨x, hx, rfl⟩ := Option.map_eq_some_iff.mp hy
    exact ⟨x, hx, h x⟩
  · exact ⟨y, hy, le_rfl, id⟩

theorem eases_judgeLow (code : Nat) (s : State) : Eases s (judgeLow code s) := by
  refine .of_items (fun k y hy => ?_) (by rw [judgeLow_frame]) (by rw [judgeLow_frame]) (by rw [judgeLow_frame])
  rw [item_judgeLow] at hy
  split at hy
  · obtain ⟨x, hx, rfl⟩ := Option.map_eq_some_iff.mp hy
    exact ⟨x, hx, le_rfl, id⟩
  · exact ⟨y, hy, le_rfl, id⟩

/-! ### Voucher table -/

theorem eases_querySnacks (tag : Tag) (first last : Nat) (s : State) : Eases s (querySnacks tag first last s) := by
  unfold querySnacks
  split <;> exact eases_replySite ..

/-- The allowance applied lies above what is issued and reserved (R165). -/
theorem eases_setAllowance (tag : Tag) (code allowance lowMark : Nat) (restart : Bool) (s : State) :
    Eases s (setAllowance tag code allowance lowMark restart s) := by
  have restarted : Eases s (if restart then
      { modifyItem code (fun x => { x with issued := 0 }) s with
        vouchers := s.vouchers.map (fun e => if e.2.item = code then (e.1, { e.2 with counted := false }) else e) }
      else s) := by
    split
    · have hzero : Eases s (modifyItem code (fun x => { x with issued := 0 }) s) :=
        eases_modifyItem (f := fun x => { x with issued := 0 })
          (fun x => ⟨le_rfl, fun h => (Nat.add_le_add_right (Nat.zero_le x.issued) x.reserved).trans h⟩) s
      exact hzero.trans (.of_same rfl rfl rfl rfl)
    · exact .refl s
  unfold setAllowance
  split
  · dsimp only
    generalize (if restart then _ else s) = u at restarted ⊢
    split
    · exact .refl s
    · next x hx =>
      refine (eases_replySite ..).after ((eases_judgeLow ..).after (restarted.trans ?_))
      refine .of_items (fun k y hy => ?_) (by rw [setItem_frame]) (by rw [setItem_frame]) (by rw [setItem_frame])
      by_cases e : k = code
      · subst e
        rw [item_setItem (item_code_range hx)] at hy
        cases hy
        exact ⟨x, hx, le_rfl, fun _ => le_max_right ..⟩
      · rw [item_setItem_ne e] at hy
        exact ⟨y, hy, le_rfl, id⟩
  · exact eases_replySite ..

theorem eases_loadSeed (tag : Tag) (seed : Nat) (s : State) : Eases s (loadSeed tag seed s) := by
  unfold loadSeed
  repeat' split
  all_goals exact eases_emit_of_same rfl rfl rfl rfl

theorem eases_unlockVoucher (tag : Tag) (serial : Nat) (s : State) : Eases s (unlockVoucher tag serial s) := by
  unfold unlockVoucher
  repeat' split
  all_goals exact eases_emit_of_same rfl rfl rfl rfl

theorem eases_queryVoucher (st : Station) (tag : Tag) (serial : Nat) (s : State) : Eases s (queryVoucher st tag serial s) := by
  unfold queryVoucher
  repeat' split
  all_goals exact eases_replyStation ..

/-! ### Loads, categories and prices -/

/-- A basket that loses its summary and keeps the rest of its contents. -/
theorem BasketKept.unpriced {b c : Basket} (hsnacks : c.snacks = b.snacks) (hlines : c.seatLines.length = b.seatLines.length)
    (hsummary : c.summary = none) : BasketKept b c := ⟨hsnacks, hlines, fun m hm => by rw [hsummary] at hm; cases hm⟩

theorem eases_treatBasket (k : LoadKind) (s : State) (st : Station) : Eases s (treatBasket k s st) := by
  unfold treatBasket
  split
  · exact eases_setBasket ⟨rfl, rfl, fun _ => .inl⟩
  · split
    · exact (eases_emit ..).after (eases_setBasket (.unpriced rfl rfl rfl))
    · exact .refl s
  · split
    · exact (eases_emit ..).after (eases_setBasket (.unpriced rfl rfl rfl))
    · exact .refl s
  · exact .refl s
  · exact .refl s

theorem eases_treatBaskets (k : LoadKind) (s : State) : Eases s (treatBaskets k s) :=
  Eases.foldl (treatBasket k) (fun s st => eases_treatBasket k s st) _ s

theorem eases_loadTariff (tag : Tag) (f : Tariff) (s : State) : Eases s (loadTariff tag f s) := by
  unfold loadTariff
  split
  · exact eases_replySite ..
  · exact eases_replySite ..
  · exact (eases_replySite ..).after ((eases_treatBaskets ..).after (.of_same rfl rfl rfl rfl))

theorem eases_loadSnacks (tag : Tag) (entries : List SnackEntry) (s : State) : Eases s (loadSnacks tag entries s) := by
  unfold loadSnacks
  split
  · split
    · exact eases_replySite ..
    · exact (eases_replySite ..).after ((eases_treatBaskets ..).after
        (Eases.foldl (fun s (e : SnackEntry) => modifyItem e.item (fun x => { x with name := e.name, price := e.price }) s)
          (fun s e => eases_modifyItem (f := fun x => { x with name := e.name, price := e.price }) (fun _ => ⟨le_rfl, id⟩) s)
          entries s))
  · exact eases_replySite ..

theorem eases_setCategory (st : Station) (tag : Tag) (ref : SeatRef) (cat : Nat) (s : State) :
    Eases s (setCategory st tag ref cat s) := by
  unfold setCategory
  split
  · split
    · exact eases_replyStation ..
    · split
      · exact eases_replyStation ..
      · split
        · exact eases_replyStation ..
        · split
          · rw [basketChange_modifyBasket]
            exact (eases_replyStation ..).after (eases_setBasket (.unpriced rfl (by simp [Basket.changedAt]) rfl))
          · exact eases_replyStation ..
  · exact eases_replyStation ..

/-- A pricing prices the basket whose lines it reads (R69). -/
theorem prices_pricing (t : Tariff) (s : State) (b : Basket) (stale : Bool) :
    (pricing t b.seatLines b.snacks s).Prices { b with summary := some (pricing t b.seatLines b.snacks s), stale := stale } := by
  refine ⟨?_, by simp⟩
  rw [snacks_pricing, List.map_map]
  exact List.map_id' _

theorem eases_price (st : Station) (tag : Tag) (s : State) : Eases s (price st tag s) := by
  unfold price
  dsimp only
  split
  · exact eases_replyStation ..
  · split
    · exact eases_replyStation ..
    · split
      · exact eases_replyStation ..
      · split
        · exact eases_replyStation ..
        · split
          · exact eases_replyStation ..
          · split
            · exact eases_replyStation ..
            · refine (eases_replyStation ..).after (eases_setBasket ⟨rfl, rfl, fun m hm => .inr ?_⟩)
              cases hm
              exact prices_pricing ..

/-! ### Holds -/

theorem eases_closeFails (st : Station) (n : Nat) (h : Hold) (r : CloseResult) (s : State) : Eases s (closeFails st n h r s) :=
  (eases_emit ..).after (eases_releaseHold ..)

theorem eases_holdSeat (st : Station) (tag : Tag) (r : SeatRef) (s : State) : Eases s (holdSeat st tag r s) := by
  have claimed (n : Nat) (h : Hold) : Eases s (claimSeat st tag r n h s) :=
    (eases_replyStation ..).after ((eases_putHold ..).after (eases_mapSeats ..))
  unfold holdSeat
  split
  · split
    · exact eases_replyStation ..
    · split
      · exact claimed ..
      · split
        · exact claimed ..
        · exact eases_replyStation ..
  · exact eases_replyStation ..

theorem eases_siteHold (tag : Tag) (slot : Nat) (ps : List SeatPos) (seconds : Nat) (ref : Chars 8) (s : State) :
    Eases s (siteHold tag slot ps seconds ref s) := by
  unfold siteHold
  split
  · exact eases_replySite ..
  · split
    · exact eases_replySite ..
    · split
      · exact (eases_replySite ..).after ((eases_putHold ..).after (eases_mapSeats ..))
      · exact eases_replySite ..

theorem eases_ownReached (n : Nat) (s : State) : Eases s (ownReached n s) := by
  unfold ownReached
  split
  · exact .refl s
  · split
    · exact (eases_emit ..).after (eases_releaseHold ..)
    · exact .refl s

theorem eases_siteRelease (tag : Tag) (n : Nat) (ref : Chars 8) (s : State) : Eases s (siteRelease tag n ref s) := by
  unfold siteRelease
  split
  · split
    · exact eases_replySite ..
    · split
      · exact (eases_replySite ..).after (eases_releaseHold ..)
      · exact eases_replySite ..
  · exact eases_replySite ..

/-! ### Screenings -/

theorem eases_beginScreening (tag : Tag) (f : BeginFields) (s : State) : Eases s (beginScreening tag f s) := by
  unfold beginScreening
  repeat' split
  all_goals exact eases_emit_of_same rfl rfl rfl rfl

theorem eases_seatRow (tag : Tag) (slot row : Nat) (runs : List RunSpec) (s : State) : Eases s (seatRow tag slot row runs s) := by
  unfold seatRow
  repeat' split
  all_goals exact eases_emit_of_same rfl rfl rfl rfl

theorem eases_endLoad (tag : Tag) (slot : Nat) (s : State) : Eases s (endLoad tag slot s) := by
  unfold endLoad
  repeat' split
  all_goals exact eases_emit_of_same rfl rfl rfl rfl

theorem eases_stopSales (tag : Tag) (slot : Nat) (s : State) : Eases s (stopSales tag slot s) := by
  unfold stopSales
  repeat' split
  all_goals exact eases_emit_of_same rfl rfl rfl rfl

theorem eases_retireScreening (tag : Tag) (slot : Nat) (s : State) : Eases s (retireScreening tag slot s) := by
  unfold retireScreening
  repeat' split
  all_goals exact eases_emit_of_same rfl rfl rfl rfl

theorem eases_treatSeats (act : Seat → Seat × SeatResult) (slot : Nat) : ∀ (ps : List SeatPos) (s : State),
    Eases s (treatSeats act slot ps s).1
  | [], s => .refl s
  | p :: rest, s => by
    unfold treatSeats
    split
    · exact eases_treatSeats act slot rest s
    · exact (eases_treatSeats act slot rest _).after (eases_mapSeats ..)

theorem eases_treatSlot (act : Seat → Seat × SeatResult) (tag : Tag) (slot : Nat) (ps : List SeatPos) (s : State) :
    Eases s (treatSlot act tag slot ps s) := by
  unfold treatSlot
  split
  · exact eases_replySite ..
  · split
    · exact eases_replySite ..
    · split
      · exact eases_replySite ..
      · exact (eases_replySite ..).after (eases_treatSeats act slot ps s)

theorem eases_querySeats (tag : Tag) (slot row first last : Nat) (s : State) : Eases s (querySeats tag slot row first last s) := by
  unfold querySeats
  repeat' split
  all_goals exact eases_replySite ..

theorem eases_queryMap (st : Station) (tag : Tag) (slot first last : Nat) (s : State) :
    Eases s (queryMap st tag slot first last s) := by
  unfold queryMap
  repeat' split
  all_goals exact eases_replyStation ..

end Sys2Proof.Machine
end

section
/-! What eases stock and lane room: the print channel, sales and refunds, the payments that go on, and the links. -/

namespace Sys2Proof.Machine

/-! ### Print channel -/

theorem length_removeFirst_le (p : Order → Bool) : ∀ l : List Order, (removeFirst p l).length ≤ l.length
  | [] => le_rfl
  | o :: t => by
    unfold removeFirst
    split
    · exact Nat.le_succ _
    · exact Nat.succ_le_succ (length_removeFirst_le p t)

theorem length_updateFirst (p : Order → Bool) (f : Order → Order) : ∀ l : List Order, (updateFirst p f l).length = l.length
  | [] => rfl
  | o :: t => by
    unfold updateFirst
    split
    · rfl
    · exact congrArg Nat.succ (length_updateFirst p f t)

theorem eases_ordersEnded (st : Station) (n k : Nat) (s : State) : Eases s (ordersEnded st n k s) := by
  rw [ordersEnded_frame]; exact .of_same rfl rfl rfl rfl

theorem eases_completeSource (o : Order) (s : State) : Eases s (completeSource o s) := by
  rw [completeSource_frame]; exact .of_same rfl rfl rfl rfl

theorem eases_unsureSource (o : Order) (s : State) : Eases s (unsureSource o s) := by
  rw [unsureSource_frame]; exact .of_same rfl rfl rfl rfl

theorem eases_raiseGeneration (o : Order) (s : State) : Eases s (raiseGeneration o s) := by
  rw [raiseGeneration_frame]; exact .of_same rfl rfl rfl rfl

theorem eases_dropAtStart (st : Station) (o : Order) (reason : Option LimitReason) (s : State) :
    Eases s (dropAtStart st o reason s) := by
  have dropped : Eases s (modifyLane st (fun l => { l with queue := removeFirst Order.isQueued l.queue }) s) :=
    eases_modifyLane (.of_length rfl (length_removeFirst_le ..))
  unfold dropAtStart
  refine (eases_ordersEnded ..).after ?_
  cases reason
  · exact dropped
  · exact (eases_emit ..).after dropped

theorem eases_startOrder (st : Station) (o : Order) (s : State) : Eases s (startOrder st o s) := by
  unfold startOrder
  exact Eases.after (eases_modifyLane (.of_length rfl (length_updateFirst ..).le)) (eases_raiseGeneration o s)

theorem eases_startNext (st : Station) : ∀ (fuel : Nat) (s : State), Eases s (startNext st fuel s).1
  | 0, s => .refl s
  | fuel + 1, s => by
    unfold startNext
    split
    · exact .refl s
    · split
      · exact (eases_startNext st fuel _).after (eases_dropAtStart ..)
      · exact eases_startOrder ..

theorem eases_sendBurst (st : Station) (s : State) : Eases s (sendBurst st s) :=
  (Eases.foldl (fun s r => emit (.printer st) r s) (fun s r => eases_emit _ r s)
    (burstFrames (s.lane st) (s.lane st).burstSize) s).trans (.of_same rfl rfl rfl rfl)

theorem eases_grant (st : Station) (s : State) : Eases s (grant st s).1 := by
  unfold grant
  split
  · exact eases_sendBurst ..
  · dsimp only
    split
    · exact (eases_sendBurst ..).after (eases_startNext ..)
    · exact eases_startNext ..

theorem eases_arbitrate (out : Option Station) : ∀ (fuel : Nat) (s : State), Eases s (arbitrate out fuel s)
  | 0, s => .refl s
  | fuel + 1, s => by
    unfold arbitrate
    split
    · exact .refl s
    · dsimp only
      split
      · exact eases_grant ..
      · exact (eases_arbitrate out fuel _).after (eases_grant ..)

theorem eases_setMover (m : Mover) (s : State) : Eases s (setMover m s) := .of_same rfl rfl rfl rfl

theorem eases_endBurst (out : Option Station) (s : State) : Eases s (endBurst out s) :=
  (eases_arbitrate ..).after (eases_setMover ..)

theorem eases_laneComes (st : Station) (s : State) : Eases s (laneComes st s) := by
  unfold laneComes
  split
  · dsimp only
    split
    · exact eases_grant ..
    · exact (eases_arbitrate ..).after (eases_grant ..)
  · exact .refl s

theorem eases_orderDone (st : Station) (s : State) : Eases s (orderDone st s) :=
  Eases.after (eases_emit ..) (eases_modifyLane (.of_length rfl (length_updateFirst ..).le))

theorem eases_acceptRecord (st : Station) (k lvl : Nat) (s : State) : Eases s (acceptRecord st k lvl s) := by
  have counted : Eases s (modifyLane st (fun l =>
      { l with residual := l.residual - k, linesSent := l.linesSent + k, lastLevel := lvl }) s) :=
    eases_modifyLane (.of_length rfl le_rfl)
  unfold acceptRecord
  split
  · split
    · unfold acceptBurst
      dsimp only
      split
      · exact (eases_endBurst ..).after ((eases_orderDone ..).after counted)
      · exact (eases_endBurst ..).after counted
    · exact .refl s
  · exact .refl s

theorem eases_levelRecord (st : Station) (lvl : Nat) (s : State) : Eases s (levelRecord st lvl s) := by
  unfold levelRecord
  split
  · exact (eases_laneComes ..).after (eases_modifyLane (.of_length rfl le_rfl))
  · exact .refl s

theorem eases_cutDoneRecord (st : Station) (s : State) : Eases s (cutDoneRecord st s) := by
  unfold cutDoneRecord
  split
  · split
    · exact (eases_laneComes ..).after ((eases_ordersEnded ..).after ((eases_completeSource ..).after
        (eases_modifyLane (.of_length rfl (length_removeFirst_le ..)))))
    · exact .refl s
  · exact .refl s

theorem eases_laneFault (st : Station) (k : FaultKind) (s : State) : Eases s (laneFault st k s) := by
  unfold laneFault
  split
  · unfold suspendLane
    dsimp only
    generalize (s.lane st).queue.filter _ = inFlight
    generalize hu : modifyLane st _ s = u
    have stopped : Eases s u := hu ▸ eases_modifyLane (.of_length rfl (List.length_map ..).le)
    have faulted : Eases s (printFault st k (inFlight.foldl (fun s o => unsureSource o s) u)) :=
      (eases_emit ..).after ((Eases.foldl _ (fun s o => eases_unsureSource o s) inFlight u).after stopped)
    split
    · exact (eases_endBurst ..).after faulted
    · exact faulted
  · exact Eases.after (eases_emit ..) (eases_modifyLane (.of_length rfl le_rfl))

theorem eases_faultRecord (st : Station) (kind : PrinterFault) (k : Nat) (s : State) : Eases s (faultRecord st kind k s) := by
  unfold faultRecord
  split
  · exact eases_laneFault ..
  · exact .refl s

theorem eases_clearRecord (st : Station) (s : State) : Eases s (clearRecord st s) := by
  unfold clearRecord
  split
  · exact eases_modifyLane (.of_length rfl le_rfl)
  · exact .refl s

theorem eases_burstDeadlineReached (s : State) : Eases s (burstDeadlineReached s) := by
  unfold burstDeadlineReached
  split
  · split
    · exact eases_laneFault ..
    · exact .refl s
  · exact .refl s

theorem eases_cutDeadlineReached (st : Station) (s : State) : Eases s (cutDeadlineReached st s) := by
  unfold cutDeadlineReached
  split
  · exact eases_laneFault ..
  · exact .refl s

theorem eases_settlingReached (st : Station) (s : State) : Eases s (settlingReached st s) := by
  unfold settlingReached
  split
  · exact (eases_laneComes ..).after (eases_modifyLane (.of_length rfl le_rfl))
  · exact .refl s

theorem eases_resumeLane (st : Station) (k : FaultKind) (s : State) : Eases s (resumeLane st k s) := by
  unfold resumeLane
  dsimp only
  split
  · exact Eases.after (.foldl _ (fun s n => (eases_ordersEnded ..).after (eases_emit ..)) _ _)
      (eases_modifyLane (.of_length rfl (List.length_filter_le ..)))
  · exact eases_modifyLane (.of_length rfl (List.length_map ..).le)

theorem eases_resumeWith {answer : Code → List Val → State → State} (h : ∀ c vs s, Eases s (answer c vs s)) (st : Station)
    (s : State) : Eases s (resumeWith answer st s) := by
  unfold resumeWith
  split
  · exact h ..
  · split
    · exact (h ..).after ((eases_laneComes ..).after (eases_resumeLane ..))
    · exact h ..

/-- A request of a station link is refused, or its block acts (R182). -/
theorem eases_stationRequest (st : Station) (tag : Tag) (k : ReqKind) {act : State → State} {s : State} (h : Eases s (act s)) :
    Eases s (stationRequest st tag k act s) := by
  unfold stationRequest
  split
  · split
    · split
      · exact h
      · exact eases_replyStation ..
    · exact eases_replyStation ..
  · split
    · exact h
    · exact eases_replyStation ..

theorem eases_resumePrint (sender : ResumeSender) (tag : Tag) (s : State) : Eases s (resumePrint sender tag s) := by
  unfold resumePrint
  split
  · next st => exact eases_stationRequest _ _ _ (eases_resumeWith (eases_replyStation st tag) st s)
  · split
    · exact eases_resumeWith (eases_replySite tag) _ s
    · exact eases_replySite ..

/-- Orders appended where the lane has room for them (R132). -/
theorem eases_appendOrders {st : Station} {os : List Order} {s : State} (h : os.length ≤ (s.lane st).room) :
    Eases s (appendOrders st os s) := by
  refine eases_modifyLane ⟨rfl, fun hl => ?_⟩
  unfold Lane.room Config.laneOrders at h
  dsimp only
  rw [List.length_append]
  omega

theorem lane_modifySale (n : Nat) (f : Sale → Sale) (s : State) (st : Station) : (modifySale n f s).lane st = s.lane st := by
  rw [modifySale_frame]; rfl

theorem eases_takeReprint (tag : Tag) (n : Nat) (item : OrderItem) {st : Station} {s : State} (h : (s.lane st).room ≠ 0) :
    Eases s (takeReprint tag n item st s) := by
  unfold takeReprint
  refine (eases_replySite ..).after ((eases_laneComes ..).after (Eases.after (eases_appendOrders ?_) (eases_modifySale ..)))
  rw [lane_modifySale]
  exact Nat.one_le_iff_ne_zero.mpr h

theorem eases_reprint (tag : Tag) (n : Nat) (item : ReprintItem) (station : Nat) (s : State) :
    Eases s (reprint tag n item station s) := by
  have checked (x : Sale) (st : Station) : Eases s (reprintOf tag n x item st s) := by
    unfold reprintOf
    dsimp only
    split
    · exact eases_replySite ..
    · split
      · exact eases_replySite ..
      · split
        · exact eases_replySite ..
        · split
          · exact eases_replySite ..
          · split
            · exact eases_replySite ..
            · split
              · exact eases_replySite ..
              · next hroom => exact eases_takeReprint tag n _ hroom
  unfold reprint
  split
  · exact eases_replySite ..
  · exact eases_replySite ..
  · split
    · exact eases_replySite ..
    · split
      · exact checked ..
      · exact eases_replySite ..

theorem eases_takeCollect (tag : Tag) (n : Nat) {x : Sale} {st : Station} {s : State}
    (h : (chainOf n x false).length ≤ (s.lane st).room) : Eases s (takeCollect st tag n x s) := by
  unfold takeCollect
  refine (eases_replyStation ..).after ((eases_laneComes ..).after (Eases.after (eases_appendOrders ?_) (eases_modifySale ..)))
  rw [lane_modifySale]
  exact h

theorem eases_collect (st : Station) (tag : Tag) (ref : Chars 8) (s : State) : Eases s (collect st tag ref s) := by
  unfold collect
  split
  · exact eases_replyStation ..
  · split
    · exact eases_replyStation ..
    · split
      · exact eases_replyStation ..
      · next hroom => exact eases_takeCollect tag _ (Nat.not_lt.mp hroom)

/-! ### Sales and the journal -/

theorem eases_journalRelease (tag : Tag) (seq : Nat) (s : State) : Eases s (journalRelease tag seq s) := by
  unfold journalRelease
  split
  · exact eases_replySite ..
  · next rest _ =>
    have shorter : Eases s { s with journal := rest } := .of_same rfl rfl rfl rfl
    exact (eases_replySite ..).after ((eases_judgeJournal ..).after shorter)

/-- The units sold of each item fit beside what is issued and reserved of it (Table 6-2, check 9). -/
def UnitsFit (s : State) (m : Summary) : Prop :=
  ∀ code x, s.item code = some x → x.issued + x.reserved + (chargedValues m).countP (fun e => e.1 = code) ≤ x.allowance ∨
    (chargedValues m).countP (fun e => e.1 = code) = 0

theorem item_enterSale_free (n : Nat) (x : Sale) (m : Summary) (holds : List Nat) (s : State) (k : Nat) :
    let units := (chargedValues m).countP (fun e => e.1 = k)
    (enterSale n x m holds false s).item k = (s.item k).map (fun i =>
      { i with
        issued := i.issued + units,
        armed := if units = 0 then i.armed else decide (i.lowMark < i.allowance - (i.issued + units) - i.reserved) }) := by
  unfold enterSale
  dsimp only
  rw [modifySale_frame]
  refine (item_createVouchers_free ..).trans ?_
  rw [sellHolds_frame]
  rfl

theorem eases_enterSale {n : Nat} {x : Sale} {m : Summary} {holds : List Nat} {s : State} (h : UnitsFit s m) :
    Eases s (enterSale n x m holds false s) := by
  obtain ⟨_, _, hframe⟩ := enterSale_frame n x m holds false s
  refine .of_items (fun k y hy => ?_) (by rw [hframe]) (by rw [hframe]) (by rw [hframe])
  rw [item_enterSale_free] at hy
  obtain ⟨i, hi, rfl⟩ := Option.map_eq_some_iff.mp hy
  refine ⟨i, hi, le_rfl, fun hfits => ?_⟩
  have := h k i hi
  unfold Item.Fits at hfits ⊢
  dsimp only
  omega

theorem eases_takeSiteSell (tag : Tag) (hold : Nat) (h : Hold) (ref : Chars 8) {m : Summary} {s : State} (hm : UnitsFit s m) :
    Eases s (takeSiteSell tag hold h ref m s) := by
  unfold takeSiteSell
  dsimp only
  split
  · exact eases_enterSale hm
  · exact (eases_replySite ..).after ((eases_writeFree ..).after (eases_enterSale hm))

theorem sellLineFault_eq_none_iff (before : List SnackLine) (l : SnackLine) : sellLineFault before l = none ↔
    (itemOk l.item = true ∧ quantityOk l.qty = true) ∧ ∀ d ∈ before, d.item ≠ l.item := by
  simp [sellLineFault, firstFault_eq_none, and_assoc]

/-- The snack lines of a SITE-SELL in order name each item once (R113). -/
theorem nodup_of_siteSellFault {hold : Nat} {cats : List Nat} {snacks : List SnackLine}
    (h : siteSellFault hold cats snacks = none) : (snacks.map (·.item)).Nodup := by
  unfold siteSellFault at h
  split at h
  · split at h
    · have hnone : firstEntryFault sellLineFault [] snacks = none := Option.map_eq_none_iff.mp h
      exact ((firstEntryFault_eq_none_iff (ok := fun l => itemOk l.item = true ∧ quantityOk l.qty = true)
        sellLineFault_eq_none_iff snacks []).mp hnone).2.1
    · cases h
  · cases h

/-- Among lines of distinct items the units of an item are those of its line, or none. -/
theorem unitsIn_of_nodup {code : Nat} : ∀ {l : List SnackLine}, (l.map (·.item)).Nodup →
    unitsIn code l = 0 ∨ ∃ x ∈ l, x.item = code ∧ unitsIn code l = x.qty
  | [], _ => .inl rfl
  | x :: l, h => by
    obtain ⟨hx, hl⟩ := List.nodup_cons.mp h
    rw [unitsIn_cons]
    by_cases e : x.item = code
    · refine .inr ⟨x, List.mem_cons_self, e, ?_⟩
      rw [if_pos e, unitsIn_eq_zero fun y hy hcode => hx (List.mem_map.mpr ⟨y, hy, hcode.trans e.symm⟩)]
      rfl
    · rw [if_neg e, Nat.zero_add]
      exact (unitsIn_of_nodup hl).imp_right fun ⟨y, hy, h⟩ => ⟨y, List.mem_cons_of_mem _ hy, h⟩

theorem unitsFit_pricing {t : Tariff} {lines : List SeatLine} {snacks : List SnackLine} {s : State}
    (hnodup : (snacks.map (·.item)).Nodup) (h : s.soldOutLine snacks = none) : UnitsFit s (pricing t lines snacks s) := by
  intro code x hx
  have hmap : (pricing t lines snacks s).snacks.map (fun l => (⟨l.item, l.qty⟩ : SnackLine)) = snacks := by
    rw [snacks_pricing, List.map_map]; exact List.map_id' _
  rw [countP_chargedValues, hmap]
  rcases unitsIn_of_nodup (code := code) hnodup with h0 | ⟨l, hl, rfl, hunits⟩
  · exact .inr h0
  · have := List.find?_eq_none.mp h l hl
    rw [hx] at this
    rw [hunits]
    exact .inl (by simpa using this)

theorem eases_siteSell (tag : Tag) (hold : Nat) (ref : Chars 8) (cats : List Nat) (snacks : List SnackLine) (s : State) :
    Eases s (siteSell tag hold ref cats snacks s) := by
  unfold siteSell
  split
  · exact eases_replySite ..
  · next hfault =>
    split
    · exact eases_replySite ..
    · split
      · exact eases_replySite ..
      · unfold siteSellHold
        split
        · exact eases_replySite ..
        · split
          · exact eases_replySite ..
          · split
            · exact eases_replySite ..
            · split
              · exact eases_replySite ..
              · split
                · exact eases_replySite ..
                · split
                  · exact eases_replySite ..
                  · next hstock =>
                    split
                    · exact eases_replySite ..
                    · exact eases_takeSiteSell tag _ _ ref (unitsFit_pricing (nodup_of_siteSellFault hfault) hstock)

theorem eases_voidVoucher (serial : Nat) (s : State) : Eases s (voidVoucher serial s) := by
  refine .of_items (fun k y hy => ?_) (by rw [voidVoucher_frame]) (by rw [voidVoucher_frame]) (by rw [voidVoucher_frame])
  rw [item_voidVoucher] at hy
  split at hy
  · obtain ⟨x, hx, rfl⟩ := Option.map_eq_some_iff.mp hy
    refine ⟨x, hx, le_rfl, fun hfits => ?_⟩
    unfold Item.Fits at hfits ⊢
    dsimp only
    omega
  · exact ⟨y, hy, le_rfl, id⟩

theorem eases_removeOrders (n : Nat) (s : State) : Eases s (removeOrders n s) :=
  (eases_modifySale ..).after (.foldl (removeUnstarted n)
    (fun _ _ => eases_modifyLane (.of_length rfl (List.length_filter_le ..))) _ s)

theorem eases_takeRefund (tag : Tag) (n : Nat) (x : Sale) (s : State) : Eases s (takeRefund tag n x s) :=
  (eases_replySite ..).after ((eases_modifySale ..).after ((eases_writeFree ..).after ((eases_removeOrders n _).after
    ((Eases.foldl (fun s v => voidVoucher v s) (fun s v => eases_voidVoucher v s) x.serials _).after
      (.foldl (fun s (l : SaleSeat) => mapSeats l.ref.slot [refPos l.ref] Seat.refund s)
        (fun _ _ => eases_mapSeats ..) x.seats s)))))

theorem eases_refund (tag : Tag) (n : Nat) (s : State) : Eases s (refund tag n s) := by
  unfold refund
  split
  · exact eases_replySite ..
  · split
    · exact eases_replySite ..
    · split
      · exact eases_replySite ..
      · split
        · exact eases_replySite ..
        · split
          · exact eases_replySite ..
          · exact eases_takeRefund ..

theorem eases_querySale (tag : Tag) (n : Nat) (s : State) : Eases s (querySale tag n s) := by
  unfold querySale
  repeat' split
  all_goals exact eases_replySite ..

theorem eases_putVoucher (n : Nat) (v : Voucher) (s : State) : Eases s (putVoucher n v s) := .of_same rfl rfl rfl rfl

theorem eases_redeem (st : Station) (tag : Tag) (serial code : Nat) (s : State) : Eases s (redeem st tag serial code s) := by
  have wrong (v : Voucher) : Eases s (wrongCode st tag serial v s) := by
    unfold wrongCode
    dsimp only
    split
    · exact (eases_replyStation ..).after (eases_putVoucher ..)
    · exact (eases_emit ..).after ((eases_replyStation ..).after (eases_putVoucher ..))
  unfold redeem
  split
  · split
    · exact eases_replyStation ..
    · split
      · exact eases_replyStation ..
      · exact eases_replyStation ..
      · exact eases_replyStation ..
      · exact eases_replyStation ..
      · split
        · exact wrong _
        · split
          · exact eases_replyStation ..
          · exact (eases_replyStation ..).after ((eases_writeFree ..).after (eases_putVoucher ..))
  · exact eases_replyStation ..

/-! ### Payments that go on -/

/-- A payment goes on and keeps what it holds of its lane. -/
theorem eases_modifyPayment {st : Station} {f : Payment → Payment} {s : State}
    (h : ∀ p, s.payment st = some p → (f p).laneHold = p.laneHold) : Eases s (modifyPayment st f s) := by
  refine eases_setPayment ?_
  cases hp : s.payment st with
  | none => rfl
  | some p => exact congrArg some (h p hp)

/-- A payment before its commit becomes ABORTING, which is before its commit too. -/
theorem eases_sendAbort {st : Station} {s : State} {p : Payment} (hp : s.payment st = some p) (hph : p.phase ≠ .capturing)
    (cause : AbortCause) : Eases s (sendAbort st cause s) := by
  refine Eases.after (eases_emit ..) (eases_modifyPayment fun q hq => ?_)
  rw [hp] at hq
  cases hq
  simp [Payment.laneHold, hph]

theorem eases_reported (st : Station) (s : State) : Eases s (modifyPayment st (fun p => { p with reported := true }) s) :=
  eases_modifyPayment fun _ _ => rfl

theorem eases_cancelPay (st : Station) (tag : Tag) (s : State) : Eases s (cancelPay st tag s) := by
  unfold cancelPay
  split
  · exact eases_replyStation ..
  · next p hp =>
    split
    · exact Eases.after (eases_replyStation ..) (eases_modifyPayment fun _ _ => rfl)
    · next hph => exact (eases_replyStation ..).after (eases_sendAbort hp (by simp [hph]) _)
    · exact eases_replyStation ..
    · exact eases_replyStation ..
    · exact eases_replyStation ..

theorem eases_progressRecord (st : Station) (stage : PayStage) (s : State) : Eases s (progressRecord st stage s) := by
  unfold progressRecord
  split
  · exact .refl s
  · split
    · exact eases_emit ..
    · exact .refl s

theorem eases_timeLimitReached (st : Station) (s : State) : Eases s (timeLimitReached st s) := by
  unfold timeLimitReached
  split
  · exact .refl s
  · next p hp =>
    split
    · next h => exact (eases_emit ..).after ((eases_reported ..).after (eases_sendAbort hp (by simp [h.1]) _))
    · exact .refl s

/-- A payment before its commit goes on to another state before it. -/
theorem eases_proceeds {st : Station} {p p' : Payment} {s : State} (hp : s.payment st = some p) (hph : p.phase ≠ .capturing)
    (hph' : p'.phase ≠ .capturing) (hlane : p'.resLane = p.resLane) : Eases s (setPayment st (some p') s) :=
  eases_setPayment (by rw [hp]; simp [Payment.laneHold, hph, hph', hlane])

/-! ### Links -/

theorem eases_modifyLine (l : Line) (f : LineRec → LineRec) (s : State) : Eases s (modifyLine l f s) := .of_same rfl rfl rfl rfl

theorem laneKept_configLane (lost : Bool) (role : Role) (l : Lane) : LaneKept l (configLane lost role l) := by
  unfold configLane
  split <;> exact .of_length rfl le_rfl

theorem eases_configStation (tag : Tag) (station : Nat) (role : Option Role) (addr : Chars 4) (printer : Bool) (s : State) :
    Eases s (configStation tag station role addr printer s) := by
  have configured (st : Station) (c : StationConfig) : Eases s (setStation st c s) := .of_same rfl rfl rfl rfl
  unfold configStation
  split
  · exact eases_replySite ..
  · split
    · exact eases_replySite ..
    · exact (eases_replySite ..).after (Eases.after (eases_modifyLane (laneKept_configLane ..)) (configured ..))
  · exact eases_replySite ..
  · exact eases_replySite ..

theorem eases_noticeLine (l : Line) (x : LineState) (s : State) : Eases s (noticeLine l x s) := by
  unfold noticeLine
  split
  · exact eases_emit ..
  · exact .refl s

theorem eases_printerLost (st : Station) (s : State) : Eases s (printerLost st s) := by
  unfold printerLost
  split
  · exact eases_laneFault ..
  · exact .refl s

theorem eases_lineRegained (l : Line) (s : State) : Eases s (lineRegained l s) := by
  have reported (t : State) : Eases t (reportRegain l t) := by
    unfold reportRegain
    split
    · unfold printerRegained
      split
      · exact eases_modifyLane (.of_length rfl le_rfl)
      · exact .refl t
    all_goals exact .refl t
  unfold lineRegained
  split
  · exact (eases_noticeLine ..).after ((reported _).after (eases_modifyLine ..))
  · exact .refl s

theorem eases_breakBegins (l : Line) (s : State) : Eases s (breakBegins l s) := by
  unfold breakBegins
  split
  · exact .refl s
  · exact eases_modifyLine ..

theorem eases_breakEnds (l : Line) (s : State) : Eases s (breakEnds l s) := by
  unfold breakEnds
  split
  · exact .refl s
  · exact eases_modifyLine ..

theorem eases_frameError (l : Line) (cause : FrameFault) (s : State) : Eases s (frameError l cause s) := by
  unfold frameError
  split
  · exact eases_modifyLine ..
  · exact .refl s

theorem eases_trainTimeout (l : Line) (s : State) : Eases s (trainTimeout l s) := by
  unfold trainTimeout
  split
  · exact eases_modifyLine ..
  · exact .refl s

theorem eases_trainInterrupted (l : Line) (kind : Byte) (tag : Tag) (body : List Byte) (s : State) :
    Eases s (trainInterrupted l kind tag body s) := by
  unfold trainInterrupted
  split
  · exact eases_modifyLine ..
  · exact .refl s

theorem eases_recordSent (l : Line) (s : State) : Eases s (recordSent l s) := by
  have left (rest : List OutRec) (t : State) : Eases t (burstLeft l rest t) := by
    unfold burstLeft
    split
    · split
      · exact eases_setMover ..
      · exact .refl t
    · exact .refl t
  unfold recordSent
  split
  · exact .refl s
  · next r rest _ =>
    have sent : Eases s (setSent l (framesOf l r) (modifyLine l (fun x => { x with out := rest }) s)) := .of_same rfl rfl rfl rfl
    dsimp only
    split
    · exact Eases.after (left rest _) sent
    · exact sent

end Sys2Proof.Machine
end

section
/-! Every step shifts stock and lane room: what enters and leaves a basket, the payments that end or commit, and every command. -/

namespace Sys2Proof.Machine

/-! ### Units added to and taken from snack lines (R52, R53) -/

theorem addUnits_of_mem {item : Nat} (qty : Nat) {l : List SnackLine} (h : ∃ x ∈ l, x.item = item) :
    addUnits item qty l = l.map (fun x => if x.item = item then { x with qty := x.qty + qty } else x) :=
  if_pos (by simpa using h)

theorem addUnits_of_not_mem {item : Nat} (qty : Nat) {l : List SnackLine} (h : ¬∃ x ∈ l, x.item = item) :
    addUnits item qty l = l ++ [⟨item, qty⟩] :=
  if_neg (by simpa using h)

theorem nodup_addUnits {item qty : Nat} {l : List SnackLine} (h : (l.map (·.item)).Nodup) :
    ((addUnits item qty l).map (·.item)).Nodup := by
  by_cases hmem : ∃ x ∈ l, x.item = item
  · have hsame : (fun x : SnackLine => x.item) ∘ (fun x => if x.item = item then { x with qty := x.qty + qty } else x) =
        fun x => x.item := by
      funext x; by_cases hx : x.item = item <;> simp [hx]
    rwa [addUnits_of_mem qty hmem, List.map_map, hsame]
  · rw [addUnits_of_not_mem qty hmem, List.map_append]
    refine List.nodup_append.mpr ⟨h, List.nodup_singleton _, fun a ha b hb hab => hmem ?_⟩
    obtain ⟨x, hx, rfl⟩ := List.mem_map.mp ha
    exact ⟨x, hx, hab.trans (List.mem_singleton.mp hb)⟩

/-- Lines mapped without a change of an item keep the units of that item. -/
theorem unitsIn_map_ne {item code : Nat} (h : item ≠ code) (f : SnackLine → SnackLine) (hf : ∀ x, (f x).item = x.item) :
    ∀ l : List SnackLine, unitsIn code (l.map (fun x => if x.item = item then f x else x)) = unitsIn code l
  | [] => rfl
  | x :: l => by
    rw [List.map_cons, unitsIn_cons, unitsIn_cons, unitsIn_map_ne h f hf l]
    by_cases hx : x.item = item
    · rw [if_pos hx, hf, if_neg (by rw [hx]; exact h), if_neg (by rw [hx]; exact h)]
    · rw [if_neg hx]

theorem unitsIn_addUnits_ne {item code : Nat} (h : item ≠ code) (qty : Nat) (l : List SnackLine) :
    unitsIn code (addUnits item qty l) = unitsIn code l := by
  by_cases hmem : ∃ x ∈ l, x.item = item
  · rw [addUnits_of_mem qty hmem, unitsIn_map_ne h (fun x => { x with qty := x.qty + qty }) (fun _ => rfl)]
  · rw [addUnits_of_not_mem qty hmem, unitsIn_append, unitsIn_cons, if_neg h]
    rfl

theorem map_raise_of_not_mem {item : Nat} (f : SnackLine → SnackLine) {l : List SnackLine} (h : ∀ x ∈ l, x.item ≠ item) :
    l.map (fun x => if x.item = item then f x else x) = l :=
  (List.map_congr_left fun x hx => if_neg (h x hx)).trans (List.map_id' l)

theorem unitsIn_map_raise {item : Nat} (qty : Nat) : ∀ {l : List SnackLine}, (l.map (·.item)).Nodup → (∃ x ∈ l, x.item = item) →
    unitsIn item (l.map (fun x => if x.item = item then { x with qty := x.qty + qty } else x)) = unitsIn item l + qty
  | [], _, ⟨_, hx, _⟩ => nomatch hx
  | x :: l, h, hmem => by
    obtain ⟨hx, hl⟩ := List.nodup_cons.mp h
    rw [List.map_cons, unitsIn_cons, unitsIn_cons]
    by_cases e : x.item = item
    · have hrest : ∀ y ∈ l, y.item ≠ item := fun y hy hcode => hx (List.mem_map.mpr ⟨y, hy, hcode.trans e.symm⟩)
      rw [map_raise_of_not_mem _ hrest]
      simp only [e, if_true]
      omega
    · have hmem' : ∃ y ∈ l, y.item = item := by simpa [e] using hmem
      rw [unitsIn_map_raise qty hl hmem']
      simp only [e, if_false]
      omega

theorem unitsIn_addUnits {item qty : Nat} {l : List SnackLine} (h : (l.map (·.item)).Nodup) :
    unitsIn item (addUnits item qty l) = unitsIn item l + qty := by
  by_cases hmem : ∃ x ∈ l, x.item = item
  · rw [addUnits_of_mem qty hmem, unitsIn_map_raise qty h hmem]
  · rw [addUnits_of_not_mem qty hmem, unitsIn_append, unitsIn_cons, if_pos rfl]
    rfl

theorem nodup_takeUnits {item qty : Nat} {l : List SnackLine} (h : (l.map (·.item)).Nodup) :
    ((takeUnits item qty l).map (·.item)).Nodup := by
  have hsame : (fun x : SnackLine => x.item) ∘ (fun x => if x.item = item then { x with qty := x.qty - qty } else x) =
      fun x => x.item := by
    funext x; by_cases hx : x.item = item <;> simp [hx]
  refine List.Sublist.nodup ((List.filter_sublist ..).map _) ?_
  rwa [List.map_map, hsame]

theorem unitsIn_takeUnits_cons (item qty : Nat) (x : SnackLine) (l : List SnackLine) : unitsIn item (takeUnits item qty (x :: l)) =
    (if x.item = item then x.qty - qty else 0) + unitsIn item (takeUnits item qty l) := by
  unfold takeUnits
  rw [List.map_cons, List.filter_cons]
  by_cases e : x.item = item
  · rw [if_pos e, if_pos e]
    split
    · rw [unitsIn_cons]; exact congrArg (· + _) (if_pos e)
    · next h =>
      have hzero : x.qty - qty = 0 := Nat.eq_zero_of_not_pos (by simpa only [decide_eq_true_eq] using h)
      rw [hzero, Nat.zero_add]
  · rw [if_neg e, if_neg e]
    split
    · rw [unitsIn_cons]; exact congrArg (· + _) (if_neg e)
    · rw [Nat.zero_add]

theorem unitsIn_takeUnits_le (item qty : Nat) : ∀ l : List SnackLine, unitsIn item (takeUnits item qty l) ≤ unitsIn item l
  | [] => le_rfl
  | x :: l => by
    have ih := unitsIn_takeUnits_le item qty l
    rw [unitsIn_takeUnits_cons, unitsIn_cons]
    split <;> omega

/-- Units taken from a line that has them leave the lines. -/
theorem unitsIn_takeUnits {item qty : Nat} : ∀ {l : List SnackLine}, (∃ x ∈ l, x.item = item ∧ qty ≤ x.qty) →
    unitsIn item (takeUnits item qty l) + qty ≤ unitsIn item l
  | [], ⟨_, hx, _⟩ => nomatch hx
  | x :: l, ⟨y, hy, hitem, hle⟩ => by
    rw [unitsIn_takeUnits_cons, unitsIn_cons]
    rcases List.mem_cons.mp hy with rfl | hy
    · have hrest := unitsIn_takeUnits_le item qty l
      rw [if_pos hitem, if_pos hitem]
      omega
    · have ih := unitsIn_takeUnits ⟨y, hy, hitem, hle⟩
      split <;> omega

theorem unitsIn_filter_pos (code : Nat) : ∀ l : List SnackLine, unitsIn code (l.filter (fun x => decide (0 < x.qty))) = unitsIn code l
  | [] => rfl
  | x :: l => by
    have ih := unitsIn_filter_pos code l
    rw [List.filter_cons, unitsIn_cons]
    split
    · rw [unitsIn_cons, ih]
    · next h =>
      have hzero : x.qty = 0 := by simpa using h
      rw [ih, hzero, ite_self, Nat.zero_add]

theorem unitsIn_takeUnits_ne {item code : Nat} (h : item ≠ code) (qty : Nat) (l : List SnackLine) :
    unitsIn code (takeUnits item qty l) = unitsIn code l := by
  rw [takeUnits, unitsIn_filter_pos, unitsIn_map_ne h (fun x => { x with qty := x.qty - qty }) (fun _ => rfl)]

/-! ### What enters and leaves a basket (R48, R52, R53, R58) -/

/-- A basket that gains something has its contents and no summary (R54, R55). -/
theorem basket_basketGains (st : Station) (f : Basket → Basket) (s : State) :
    ((basketGains st f s).basket st).snacks = (f (s.basket st)).snacks ∧ ((basketGains st f s).basket st).summary = none := by
  cases hb : (s.basket st).hollow with
  | true => rw [basketGains_of_empty f hb, basket_setBasket]; exact ⟨rfl, rfl⟩
  | false => rw [basketGains_of_open f hb, basket_setBasket]; exact ⟨rfl, rfl⟩

/-- A basket that may have lost its last content keeps its snack lines, and no summary (R55, R58). -/
theorem basket_basketLoses (st : Station) (s : State) :
    ((basketLoses st s).basket st).snacks = (s.basket st).snacks ∧ ((basketLoses st s).basket st).summary = none := by
  unfold basketLoses
  split
  · next hb =>
    obtain ⟨_, hsnacks⟩ := (hollow_iff _).mp hb
    rw [emptyBasket_eq, basket_emptyLetting, hsnacks]
    exact ⟨rfl, rfl⟩
  · rw [basketChange_eq, basket_setBasket]; exact ⟨rfl, rfl⟩

theorem items_basketLoses (st : Station) (s : State) : (basketLoses st s).items = s.items := by
  unfold basketLoses
  split
  · next hb => exact items_emptyBasket_of_hollow hb
  · rfl

theorem basketLoses_rest (st : Station) (s : State) : (basketLoses st s).pays = s.pays ∧ (basketLoses st s).lanes = s.lanes := by
  rw [basketLoses_frame]; exact ⟨rfl, rfl⟩

theorem stockFollows_basketLoses (st : Station) (s : State) : StockFollows st s (basketLoses st s) :=
  .of_same (items_basketLoses ..) (basket_of_set (by rw [basketLoses_frame])).2 (basket_basketLoses ..).1

/-- A basket whose snack lines stay. -/
theorem stockFollows_setBasket {st : Station} {b : Basket} {s : State} (h : b.snacks = (s.basket st).snacks) :
    StockFollows st s (setBasket st b s) :=
  .of_same rfl (fun _ hne => basket_setBasket_ne hne ..) (by rw [basket_setBasket, h])

theorem stockFollows_joinBasket (st : Station) (n : Nat) (h : Hold) (s : State) : StockFollows st s (joinBasket st n h s) :=
  .of_same (by rw [joinBasket_frame]) (basket_of_set (by rw [joinBasket_frame])).2 (basket_basketGains ..).1

/-- Units reserved that fit the allowance enter a basket (R52). -/
theorem stockFollows_unitsEnter {st : Station} {item qty : Nat} {x : Item} {s : State} (hx : s.item item = some x)
    (hfit : x.issued + x.reserved + qty ≤ x.allowance) :
    StockFollows st s (unitsEnter st item qty (addUnits item qty (s.basket st).snacks) s) := by
  have hsnacks : ((unitsEnter st item qty (addUnits item qty (s.basket st).snacks) s).basket st).snacks =
      addUnits item qty (s.basket st).snacks := (basket_basketGains ..).1
  refine ⟨(basket_of_set (by rw [unitsEnter_frame])).2, fun h => by rw [hsnacks]; exact nodup_addUnits h,
    fun hnodup code y hy => ?_⟩
  rw [item_unitsEnter] at hy
  rw [hsnacks]
  by_cases e : code = item
  · subst e
    obtain ⟨armed, hreserved⟩ := item_reserveUnits qty hx
    rw [hreserved] at hy
    cases hy
    refine ⟨x, hx, fun _ => ?_, fun _ => ?_⟩
    · unfold Item.Fits; dsimp only; omega
    · rw [unitsIn_addUnits hnodup]; dsimp only; omega
  · rw [item_reserveUnits_ne e] at hy
    exact ⟨y, hy, id, fun _ => by rw [unitsIn_addUnits_ne (Ne.symm e)]⟩

/-- Units taken from a basket that has them are no longer reserved (R53). -/
theorem stockFollows_unitsOut {st : Station} {item qty : Nat} {s : State}
    (hline : ∃ x ∈ (s.basket st).snacks, x.item = item ∧ qty ≤ x.qty) :
    StockFollows st s (unitsOut st item qty (takeUnits item qty (s.basket st).snacks) s) := by
  have hsnacks : ((unitsOut st item qty (takeUnits item qty (s.basket st).snacks) s).basket st).snacks =
      takeUnits item qty (s.basket st).snacks := by rw [basket_unitsOut]
  refine ⟨(basket_of_set (by rw [unitsOut_frame])).2, fun h => by rw [hsnacks]; exact nodup_takeUnits h, fun _ code y hy => ?_⟩
  rw [hsnacks]
  by_cases e : code = item
  · subst e
    cases hx : s.item code with
    | none =>
      rw [unitsOut, returnUnits, item_judgeLow, item_modifyItem] at hy
      rw [show (setBasket st _ s).item code = none from hx] at hy
      simp at hy
    | some x =>
      obtain ⟨armed, hout⟩ := item_unitsOut st code qty (takeUnits code qty (s.basket st).snacks) s hx
      rw [hout] at hy
      cases hy
      have hless := unitsIn_takeUnits hline
      refine ⟨x, rfl, fun hfits => ?_, fun _ => ?_⟩
      · unfold Item.Fits at hfits ⊢; dsimp only; omega
      · dsimp only; omega
  · rw [item_unitsOut_ne _ _ _ _ _ e] at hy
    exact ⟨y, hy, id, fun _ => by rw [unitsIn_takeUnits_ne (Ne.symm e)]⟩

/-! ### Commands on baskets and holds -/

section

variable {F : Prop}

theorem shifts_emptyBasket {st : Station} {s : State} (hidle : F → s.payment st = none) : Shifts F s (emptyBasket st s) := by
  refine .single (.turns hidle (stockFollows_emptyBasket st s) ?_ (by rw [emptyBasket_frame]) (by rw [emptyBasket_frame]))
  rw [emptyBasket_eq, basket_emptyLetting]
  rfl

theorem shifts_joinBasket {st : Station} {s : State} (hidle : F → s.payment st = none) (n : Nat) (h : Hold) :
    Shifts F s (joinBasket st n h s) :=
  .single (.turns hidle (stockFollows_joinBasket ..) (basket_basketGains ..).2 (by rw [joinBasket_frame])
    (by rw [joinBasket_frame]))

theorem shifts_addSnack (st : Station) (tag : Tag) (item qty : Nat) (s : State) : Shifts F s (addSnack st tag item qty s) := by
  have refused (c : Code) (vs : List Val) : Shifts F s (replyStation st tag c vs s) := (eases_replyStation ..).shifts
  unfold addSnack
  split
  · exact refused ..
  · next x hx =>
    dsimp only
    split
    · exact refused ..
    · split
      · exact refused ..
      · next hidle =>
        have hidle : s.payment st = none := payment_eq_none_of_payIdle (by simpa using hidle)
        split
        · exact refused ..
        · split
          · exact refused ..
          · next hfit =>
            split
            · exact refused ..
            · have enters := unitsEnter_frame st item qty (addUnits item qty (s.basket st).snacks) s
              rw [reserveUnits_frame] at enters
              refine Shifts.after (eases_replyStation ..).shifts (.single (.turns (fun _ => hidle)
                (stockFollows_unitsEnter hx (Nat.not_lt.mp hfit)) (basket_basketGains ..).2 ?_ ?_))
              · exact (congrArg State.pays enters).trans rfl
              · exact (congrArg State.lanes enters).trans rfl

theorem shifts_removeSnack (st : Station) (tag : Tag) (item qty : Nat) (s : State) :
    Shifts F s (removeSnack st tag item qty s) := by
  have refused (c : Code) (vs : List Val) : Shifts F s (replyStation st tag c vs s) := (eases_replyStation ..).shifts
  unfold removeSnack
  dsimp only
  split
  · exact refused ..
  · split
    · exact refused ..
    · next hidle =>
      have hidle : s.payment st = none := payment_eq_none_of_payIdle (by simpa using hidle)
      split
      · exact refused ..
      · next hany =>
        have hany : ∃ x ∈ (s.basket st).snacks, x.item = item := by simpa using hany
        split
        · exact refused ..
        · next hqty =>
          have hline : ∃ x ∈ (s.basket st).snacks, x.item = item ∧ qty ≤ x.qty := by
            cases hfind : (s.basket st).snacks.find? (fun x => x.item = item) with
            | none =>
              obtain ⟨y, hy, he⟩ := hany
              exact absurd he (by simpa using List.find?_eq_none.mp hfind y hy)
            | some x =>
              rw [lineQty_of_find hfind] at hqty
              exact ⟨x, List.mem_of_find?_eq_some hfind, by simpa using List.find?_some hfind, Nat.not_lt.mp hqty⟩
          refine Shifts.after (eases_replyStation ..).shifts (.single (.turns (fun _ => hidle)
            ((stockFollows_basketLoses ..).after (stockFollows_unitsOut hline)) (basket_basketLoses ..).2 ?_ ?_))
          · exact (basketLoses_rest ..).1.trans (by rw [returnUnits_frame]; rfl)
          · exact (basketLoses_rest ..).2.trans (by rw [returnUnits_frame]; rfl)

theorem shifts_abandon (st : Station) (tag : Tag) (s : State) : Shifts F s (abandon st tag s) := by
  unfold abandon
  split
  · next hidle =>
    exact Shifts.after (eases_replyStation ..).shifts (shifts_emptyBasket fun _ => payment_eq_none_of_payIdle hidle)
  · exact (eases_replyStation ..).shifts

theorem shifts_lapseReached (st : Station) (s : State) : Shifts F s (lapseReached st s) := by
  have overdue : Eases s (modifyBasket st (fun b => { b with overdue := true, lapse := none }) s) :=
    eases_setBasket ⟨rfl, rfl, fun _ => .inl⟩
  unfold lapseReached
  dsimp only
  split
  · split
    · next hidle =>
      exact Shifts.after (eases_emit ..).shifts (shifts_emptyBasket fun _ => payment_eq_none_of_payIdle hidle)
    · exact overdue.shifts
  · exact .refl

/-- A hold closes at a station with no payment in flight (R28, R38). -/
theorem shifts_closeHold {st : Station} {s : State} (hidle : F → s.payment st = none) (n : Nat) (h : Hold) :
    Shifts F s (closeHold st n h s) := by
  have passes : Shifts F s (closePasses st n h s) := by
    have held : Shifts F s (mapSeats h.slot h.seats (fun x => { x with state := .held n }) s) := (eases_mapSeats ..).shifts
    refine Shifts.after (eases_emit ..).shifts (Shifts.after (shifts_joinBasket (fun hF => ?_) n h)
      (Shifts.after (eases_putHold ..).shifts held))
    rw [mapSeats_frame]
    exact hidle hF
  have fails (r : CloseResult) : Shifts F s (closeFails st n h r s) := (eases_closeFails ..).shifts
  unfold closeHold
  split
  · exact passes
  · split
    · exact passes
    · exact fails _
    · exact fails _

theorem shifts_dropHold (st : Station) (tag : Tag) (n : Nat) (s : State) : Shifts F s (dropHold st tag n s) := by
  have refused (c : Code) (vs : List Val) : Shifts F s (replyStation st tag c vs s) := (eases_replyStation ..).shifts
  have leaves (h : Hold) (u : State) (hidle : u.payment st = none) : Shifts F u (leaveBasket st n h u) := by
    rw [leaveBasket_eq]
    refine .single (.turns (fun _ => hidle) ((stockFollows_basketLoses ..).after (stockFollows_setBasket rfl))
      (basket_basketLoses ..).2 ?_ ?_)
    · exact (basketLoses_rest ..).1
    · exact (basketLoses_rest ..).2
  unfold dropHold
  split
  · exact refused ..
  · split
    · exact refused ..
    · next hidle =>
      have hidle : s.payment st = none := payment_eq_none_of_payIdle (by simpa using hidle)
      split
      · exact refused ..
      · next h hh =>
        split
        · have released : Shifts F s (releaseHold n s) := (eases_releaseHold ..).shifts
          refine Shifts.after (eases_replyStation ..).shifts ?_
          split
          · exact released
          · exact Shifts.after (leaves h _ (by rw [releaseHold_frame]; exact hidle)) released
        · exact refused ..

/-- A request of a station link is refused, or its block acts (R182). -/
theorem shifts_stationRequest {st : Station} {tag : Tag} {k : ReqKind} {act : State → State} {s : State} (h : Shifts F s (act s)) :
    Shifts F s (stationRequest st tag k act s) := by
  have refused (c : Code) (vs : List Val) : Shifts F s (replyStation st tag c vs s) := (eases_replyStation ..).shifts
  unfold stationRequest
  split
  · split
    · split
      · exact h
      · exact refused ..
    · exact refused ..
  · split
    · exact h
    · exact refused ..

/-! ### Payments -/

theorem shifts_pay (st : Station) (tag : Tag) (s : State) : Shifts F s (pay st tag s) := by
  unfold pay
  split
  · exact (eases_replyStation ..).shifts
  · next h => exact .single (.starts tag h)

theorem shifts_selectionFails {st : Station} {p : Payment} {s : State} (hp : s.payment st = some p) (c : Code) (vs : List Val) :
    Shifts F s (selectionFails st p c vs s) :=
  Shifts.after (.single (.ends (by rw [payment_answerPay]; exact hp) rfl none)) (eases_answerPay ..).shifts

theorem shifts_selectedRecord (st : Station) (echo : Chars 4) (status : SelectStatus) (s : State) :
    Shifts F s (selectedRecord st echo status s) := by
  unfold selectedRecord
  split
  · exact .refl
  · next p hp =>
    split
    · next hph =>
      have hne : p.phase ≠ .capturing := by simp [hph]
      split
      · exact shifts_selectionFails hp _ _
      · split
        · exact shifts_selectionFails hp _ _
        · split
          · refine ((eases_answerPay ..).after ((eases_emit ..).after ?_)).shifts
            exact eases_proceeds hp hne (by simp) rfl
          · exact (Eases.after (eases_answerPay ..) (Eases.after (eases_reported ..) (eases_sendAbort hp hne _))).shifts
    · exact .refl

theorem shifts_selectStepReached (st : Station) (s : State) : Shifts F s (selectStepReached st s) := by
  unfold selectStepReached
  split
  · exact .refl
  · next p hp =>
    split
    · exact shifts_selectionFails hp _ _
    · exact .refl

/-- A REVERSAL record, then the end without a sale (R103). -/
theorem shifts_reverseAndEnd {st : Station} {p : Payment} {s : State} (hp : s.payment st = some p) (confirmed : Bool)
    (reason : ReversalReason) (o : Option PayOutcome) : Shifts F s (reverseAndEnd st p confirmed reason o s) := by
  have written (body : JournalBody) : Eases s (writeReserved none p.amount body s) := .of_same rfl rfl rfl rfl
  have ended (body : JournalBody) : Shift F (writeReserved none p.amount body s)
      (endWithoutSale st { p with resJournal := false } o (writeReserved none p.amount body s)) :=
    .ends (s := writeReserved none p.amount body s) (q := { p with resJournal := false }) hp rfl o
  unfold reverseAndEnd
  dsimp only
  exact Shifts.after (.single (ended _)) (written _).shifts

theorem shifts_approve {st : Station} {p : Payment} {s : State} (hp : s.payment st = some p) (hph : p.phase = .authorising)
    (auth : Auth) : Shifts F s (approve st p auth s) :=
  Shifts.after ((eases_laneComes ..).after ((eases_emit ..).after (eases_emit ..))).shifts
    (.single (.commits hp hph rfl rfl auth))

theorem shifts_outcomeRecord (st : Station) (o : TermOutcome) (s : State) : Shifts F s (outcomeRecord st o s) := by
  unfold outcomeRecord
  split
  · exact .refl
  · next p hp =>
    split
    · next hph =>
      split
      · exact shifts_approve hp hph _
      all_goals exact .single (.ends hp rfl _)
    · next hph =>
      split
      · refine ((eases_emit ..).after ?_).shifts
        exact eases_proceeds hp (by simp [hph]) (by simp) rfl
      all_goals exact .single (.ends hp rfl _)
    all_goals exact .refl

theorem shifts_abortStepReached (st : Station) (s : State) : Shifts F s (abortStepReached st s) := by
  unfold abortStepReached
  split
  · exact .refl
  · next p hp =>
    split
    · split
      · exact shifts_reverseAndEnd hp _ _ _
      · exact .single (.ends hp rfl _)
    · exact .refl

theorem shifts_reversedRecord (st : Station) (s : State) : Shifts F s (reversedRecord st s) := by
  unfold reversedRecord
  split
  · exact .refl
  · next p hp =>
    split
    · exact shifts_reverseAndEnd hp _ _ _
    · exact .refl

theorem shifts_reverseStepReached (st : Station) (s : State) : Shifts F s (reverseStepReached st s) := by
  unfold reverseStepReached
  split
  · exact .refl
  · next p hp =>
    split
    · exact shifts_reverseAndEnd hp _ _ _
    · exact .refl

theorem shifts_capturedRecord (st : Station) (s : State) : Shifts F s (capturedRecord st s) := by
  unfold capturedRecord
  split
  · exact .refl
  · next p hp =>
    split
    · next hph => exact .single (.captures hp hph _)
    · exact .refl

theorem shifts_captureStepReached (st : Station) (s : State) : Shifts F s (captureStepReached st s) := by
  unfold captureStepReached
  split
  · exact .refl
  · next p hp =>
    split
    · next h => exact .single (.captures hp h.1 _)
    · exact .refl

theorem shifts_terminalLost (st : Station) (s : State) : Shifts F s (terminalLost st s) := by
  unfold terminalLost
  split
  · exact .refl
  · next p hp =>
    split
    · exact shifts_selectionFails hp _ _
    · exact shifts_reverseAndEnd hp _ _ _
    · split
      · exact shifts_reverseAndEnd hp _ _ _
      · exact .single (.ends hp rfl _)
    · exact shifts_reverseAndEnd hp _ _ _
    · next hph => exact .single (.captures hp hph _)

/-! ### Links -/

theorem resetLane_vacant (s : State) (st : Station) : (resetLane s st).queue = [] ∧ (resetLane s st).reservedRoom = 0 := by
  unfold resetLane
  repeat' split
  all_goals exact ⟨rfl, rfl⟩

theorem shifts_powerOn (s : State) : Shifts F s (powerOn s) :=
  .single (.restarts rfl rfl rfl fun st => by simp [powerOn, State.reset, State.lane, Lane.fresh])

theorem shifts_siteReset (tag : Tag) (s : State) : Shifts F s (siteReset tag s) := by
  have answered (before t : State) (st : Station) : Eases t (answerReset before t st) := by
    unfold answerReset
    split
    · exact eases_replyStation ..
    · exact .refl t
  have aborted (before t : State) (st : Station) : Eases t (abortReset before t st) := by
    unfold abortReset
    split
    · exact .refl t
    · exact eases_emit ..
  have restarted : Shifts F s (resetBlocks s) :=
    .single (.restarts rfl rfl rfl fun st => by simpa [resetBlocks, State.lane] using resetLane_vacant s st)
  exact Shifts.after ((Eases.foldl _ (aborted s) _ _).after ((Eases.foldl _ (answered s) _ _).after
    (eases_replySite ..))).shifts restarted

theorem shifts_stationLost (st : Station) (s : State) : Shifts F s (stationLost st s) := by
  have dropped : Shifts F s (match s.gathering st with
      | some (n, _) => releaseHold n s
      | none => s) := by
    split
    · exact (eases_releaseHold ..).shifts
    · exact .refl
  have emptied (u : State) : Shifts F u (if u.payIdle st then emptyBasket st u else u) := by
    split
    · next hidle => exact shifts_emptyBasket fun _ => payment_eq_none_of_payIdle hidle
    · exact .refl
  exact (emptied _).after dropped

theorem shifts_lineLost (l : Line) (s : State) : Shifts F s (lineLost l s) := by
  have reported (t : State) : Shifts F t (reportLoss l t) := by
    unfold reportLoss
    split
    · exact .refl
    · exact shifts_stationLost ..
    · exact shifts_terminalLost ..
    · exact (eases_printerLost ..).shifts
  unfold lineLost
  split
  · exact .refl
  · exact Shifts.after (eases_noticeLine ..).shifts ((reported _).after (eases_modifyLine ..).shifts)

end

/-! ### Holds that close while payments freeze holds (R38) -/

theorem shifts_holdClose (st : Station) (tag : Tag) (s : State) :
    Shifts (PaymentsFreezeHolds s) s (holdClose st tag s) := by
  unfold holdClose
  split
  · next n h hg =>
    obtain ⟨hn, howner, hphase⟩ := gathering_mem hg
    refine Shifts.after (shifts_closeHold (fun hF => ?_) n h) (eases_replyStation ..).shifts
    unfold replyStation
    rw [emit_frame]
    exact payment_eq_none_of_gathering hF hn howner hphase
  · exact (eases_replyStation ..).shifts

theorem shifts_windowReached (n : Nat) (s : State) : Shifts (PaymentsFreezeHolds s) s (windowReached n s) := by
  unfold windowReached
  split
  · exact .refl
  · next h hh =>
    split
    · next st howner =>
      split
      · next hp =>
        exact shifts_closeHold (fun hF => payment_eq_none_of_gathering hF (Tbl.find_mem hh) howner hp.1) n h
      · exact .refl
    · exact .refl

end Sys2Proof.Machine
end

section
/-! Every step keeps the records within their numbers, the stock within the allowances, and the lanes within their room (O5). -/

namespace Sys2Proof.Machine

/-! ### Every step -/

theorem shifts_of_next {F : Prop} {s t u : State} (h : (Host.Outcome.next u : Host.Outcome State Fault Refusal) = .next t)
    (m : Shifts F s u) : Shifts F s t := by cases h; exact m

theorem eases_limits (v : Limits) (s : State) : Eases s { s with limits := v } := .of_same rfl rfl rfl rfl

/-- What a command can do to stock and lane room, said once. -/
theorem shifts_exec {c : Instr} {s t : State} (h : exec c s = .next t) : Shifts (PaymentsFreezeHolds s) s t :=
  match c, h with
  | .powerOn, h => shifts_of_next h (shifts_powerOn ..)
  | .reset .., h => shifts_of_next h (shifts_siteReset ..)
  | .beginScreening .., h => shifts_of_next h (eases_beginScreening ..).shifts
  | .seatRow .., h => shifts_of_next h (eases_seatRow ..).shifts
  | .endLoad .., h => shifts_of_next h (eases_endLoad ..).shifts
  | .stopSales .., h => shifts_of_next h (eases_stopSales ..).shifts
  | .retireScreening .., h => shifts_of_next h (eases_retireScreening ..).shifts
  | .blockSeats .., h => shifts_of_next h (eases_treatSlot ..).shifts
  | .unblockSeats .., h => shifts_of_next h (eases_treatSlot ..).shifts
  | .querySeats .., h => shifts_of_next h (eases_querySeats ..).shifts
  | .queryMap .., h => shifts_of_next h (eases_stationRequest _ _ _ (eases_queryMap ..)).shifts
  | .holdSeat .., h => shifts_of_next h (eases_stationRequest _ _ _ (eases_holdSeat ..)).shifts
  | .holdClose .., h => shifts_of_next h (shifts_stationRequest (shifts_holdClose ..))
  | .gatheringWindowExpiry _, h => shifts_of_next h (shifts_windowReached ..)
  | .dropHold .., h => shifts_of_next h (shifts_stationRequest (shifts_dropHold ..))
  | .siteHold .., h => shifts_of_next h (eases_siteHold ..).shifts
  | .ownDeadlineExpiry _, h => shifts_of_next h (eases_ownReached ..).shifts
  | .siteRelease .., h => shifts_of_next h (eases_siteRelease ..).shifts
  | .siteSell .., h => shifts_of_next h (eases_siteSell ..).shifts
  | .setCategory .., h => shifts_of_next h (eases_stationRequest _ _ _ (eases_setCategory ..)).shifts
  | .addSnack .., h => shifts_of_next h (shifts_stationRequest (shifts_addSnack ..))
  | .removeSnack .., h => shifts_of_next h (shifts_stationRequest (shifts_removeSnack ..))
  | .price .., h => shifts_of_next h (eases_stationRequest _ _ _ (eases_price ..)).shifts
  | .abandon .., h => shifts_of_next h (shifts_stationRequest (shifts_abandon ..))
  | .lapseDeadlineReached _, h => shifts_of_next h (shifts_lapseReached ..)
  | .pay .., h => shifts_of_next h (shifts_stationRequest (shifts_pay ..))
  | .cancelPay .., h => shifts_of_next h (eases_stationRequest _ _ _ (eases_cancelPay ..)).shifts
  | .selected .., h => shifts_of_next h (shifts_selectedRecord ..)
  | .selectStepDeadline _, h => shifts_of_next h (shifts_selectStepReached ..)
  | .progress .., h => shifts_of_next h (eases_progressRecord ..).shifts
  | .outcome .., h => shifts_of_next h (shifts_outcomeRecord ..)
  | .timeLimit _, h => shifts_of_next h (eases_timeLimitReached ..).shifts
  | .abortOutcome .., h => shifts_of_next h (shifts_outcomeRecord ..)
  | .abortStepDeadline _, h => shifts_of_next h (shifts_abortStepReached ..)
  | .reversed _, h => shifts_of_next h (shifts_reversedRecord ..)
  | .reverseStepDeadline _, h => shifts_of_next h (shifts_reverseStepReached ..)
  | .captured _, h => shifts_of_next h (shifts_capturedRecord ..)
  | .captureStepDeadline _, h => shifts_of_next h (shifts_captureStepReached ..)
  | .refund .., h => shifts_of_next h (eases_refund ..).shifts
  | .querySale .., h => shifts_of_next h (eases_querySale ..).shifts
  | .journalRead _, h => shifts_of_next h (eases_replySite ..).shifts
  | .journalRelease .., h => shifts_of_next h (eases_journalRelease ..).shifts
  | .loadTariff .., h => shifts_of_next h (eases_loadTariff ..).shifts
  | .loadSnacks .., h => shifts_of_next h (eases_loadSnacks ..).shifts
  | .setAllowance .., h => shifts_of_next h (eases_setAllowance ..).shifts
  | .querySnacks .., h => shifts_of_next h (eases_querySnacks ..).shifts
  | .loadSeed .., h => shifts_of_next h (eases_loadSeed ..).shifts
  | .redeem .., h => shifts_of_next h (eases_stationRequest _ _ _ (eases_redeem ..)).shifts
  | .unlockVoucher .., h => shifts_of_next h (eases_unlockVoucher ..).shifts
  | .queryVoucher .., h => shifts_of_next h (eases_stationRequest _ _ _ (eases_queryVoucher ..)).shifts
  | .reprint .., h => shifts_of_next h (eases_reprint ..).shifts
  | .collect .., h => shifts_of_next h (eases_stationRequest _ _ _ (eases_collect ..)).shifts
  | .resumePrint .., h => shifts_of_next h (eases_resumePrint ..).shifts
  | .accept .., h => shifts_of_next h (eases_acceptRecord ..).shifts
  | .level .., h => shifts_of_next h (eases_levelRecord ..).shifts
  | .cutDone _, h => shifts_of_next h (eases_cutDoneRecord ..).shifts
  | .fault .., h => shifts_of_next h (eases_faultRecord ..).shifts
  | .clear _, h => shifts_of_next h (eases_clearRecord ..).shifts
  | .burstDeadline, h => shifts_of_next h (eases_burstDeadlineReached ..).shifts
  | .cutDeadline _, h => shifts_of_next h (eases_cutDeadlineReached ..).shifts
  | .settlingDeadline _, h => shifts_of_next h (eases_settlingReached ..).shifts
  | .configStation .., h => shifts_of_next h (eases_configStation ..).shifts
  | .setLimits .., h => shifts_of_next h ((eases_replySite ..).after (eases_limits ..)).shifts
  | .siteStatus _, h => shifts_of_next h (eases_replySite ..).shifts
  | .status .., h => shifts_of_next h (eases_stationRequest _ _ _ (eases_replyStation ..)).shifts
  | .reject .., h => shifts_of_next h (eases_emit ..).shifts
  | .lineLost _, h => shifts_of_next h (shifts_lineLost ..)
  | .lineRegained _, h => shifts_of_next h (eases_lineRegained ..).shifts
  | .frameError .., h => shifts_of_next h (eases_frameError ..).shifts
  | .frameTimeout _, h => shifts_of_next h (eases_modifyLine ..).shifts
  | .trainTimeout _, h => shifts_of_next h (eases_trainTimeout ..).shifts
  | .trainInterrupted .., h => shifts_of_next h (eases_trainInterrupted ..).shifts
  | .recordSent _, h => shifts_of_next h (eases_recordSent ..).shifts
  | .breakBegins _, h => shifts_of_next h (eases_breakBegins ..).shifts
  | .breakEnds _, h => shifts_of_next h (eases_breakEnds ..).shifts

theorem shifts_idle {F : Prop} (s : State) : Shifts F s (idle s) := by
  have quiet : Eases s (idle s) := by rw [idle_frame]; exact .of_same rfl rfl rfl rfl
  exact quiet.shifts

/-- Every step is a sequence of shifts. -/
theorem shifts_step {s t : State} (h : step s = .next t) : Shifts (PaymentsFreezeHolds s) s t := by
  unfold step at h
  split at h
  · next c rest _ =>
    have popped : Eases s { s with pending := rest } := .of_same rfl rfl rfl rfl
    have taken : Shifts (PaymentsFreezeHolds s) { s with pending := rest } t := shifts_exec h
    exact Shifts.after taken popped.shifts
  · exact shifts_of_next h (shifts_idle s)

/-- What every shift keeps, under what the step may suppose of its first state, the step keeps. -/
theorem step_preserves_of_shift {P : State → Prop} {s t : State}
    (hP : ∀ {u v : State}, Shift (PaymentsFreezeHolds s) u v → P u → P v) (h : step s = .next t) (hs : P s) : P t := by
  have hm := shifts_step h
  clear h
  induction hm with
  | refl => exact hs
  | tail _ hlast ih => exact hP hlast ih

/-- Settles O5: a step is a sequence of moves, each of which keeps the records within their numbers, and a sequence of shifts,
each of which keeps the stock, and the lane room where no payment in flight meets a hold that gathers. -/
theorem reservationsStayFitting : Obligations.ReservationsStayFitting := by
  refine ⟨fun s t hs h => step_preserves_of_move reservationsFit_of_move h hs,
    fun s t hs h => step_preserves_of_shift stockFits_of_shift h hs, fun s t hs h => ?_⟩
  obtain ⟨hfrozen, hfits⟩ := (lanesFit_iff s).mp hs
  exact (lanesFit_iff t).mpr ⟨paymentsKeepHoldsFrozen s t hfrozen h,
    step_preserves_of_shift (P := fun u => ∀ st, StationFits (u.lane st) (u.payment st) (u.basket st))
      (fun hm hu => stationFits_of_shift hfrozen hm hu) h hfits⟩

end Sys2Proof.Machine
end

section
/-! PAY past the checks of Table 5-5 (R87, R88): O40. -/

namespace Sys2Proof.Machine

/-- A judgement of the journal reaches no line but the site's (R125). -/
theorem line_judgeJournal_ne {l : Line} (h : l ≠ .site) (s : State) : (judgeJournal s).line l = s.line l := by
  unfold judgeJournal
  split
  · split
    · rw [line_emit_ne h]; rfl
    · rfl
  · rfl

/-- A PAY past the checks of Table 5-5 is not refused. -/
theorem payRefusal_of_checks {st : Station} {m : Summary} {s : State} (hidle : s.payIdle st = true) (hg : s.gathering st = none)
    (hsome : (s.basket st).hollow = false) (hm : (s.basket st).summary = some m) (htotal : m.total ≠ 0)
    (hattempts : (s.basket st).attempts ≠ 3) (hup : s.isLost (.terminal st) = false)
    (hsales : s.sales.length + s.salesReserved < 2048) (hjournal : s.journal.length + s.journalReserved < 512)
    (hlane : (s.lane st).queue.length + (s.lane st).reservedRoom + (s.basket st).chainLength ≤ 32) : payRefusal st s = none := by
  have hopen : s.basketState st ≠ .empty := by
    simp [State.basketState, State.payState, payment_eq_none_of_payIdle hidle, hsome]
  have hsales' : s.salesFree ≠ 0 := by unfold State.salesFree Config.saleRecords; omega
  have hjournal' : s.journalFree ≠ 0 := by unfold State.journalFree Config.journalRecords; omega
  have hroom : ¬(s.lane st).room < (s.basket st).chainLength := by unfold Lane.room Config.laneOrders; omega
  have hattempts' : (s.basket st).attempts ≠ Config.maxAttempts := hattempts
  simp [payRefusal, hidle, hg, hopen, hm, htotal, hattempts', hup, hsales', hjournal', hroom]

/-- What a PAY accepted puts out: SELECT to the terminal, behind what the journal's judgement may tell the site (R88). -/
theorem acceptPay_eq (st : Station) (tag : Tag) (s : State) : ∃ u, (∀ l, l ≠ .site → u.line l = s.line l) ∧
    acceptPay st tag s = setRequest st (some ⟨.pay, tag⟩) (emit (.terminal st) (.select (s.station st).addr) u) :=
  ⟨_, fun l hl => by rw [setHoldPhases_frame]; exact line_judgeJournal_ne hl _, rfl⟩

theorem line_acceptPay_terminal (st : Station) (tag : Tag) (s : State) :
    (acceptPay st tag s).line (.terminal st) = s.lineWith (.terminal st) [.select (s.station st).addr] := by
  obtain ⟨u, hline, he⟩ := acceptPay_eq st tag s
  rw [he]
  exact (line_emit ..).trans (lineWith_congr (hline _ (by simp)) _)

theorem line_acceptPay_station (st : Station) (tag : Tag) (s : State) :
    (acceptPay st tag s).line (.station st) = s.line (.station st) := by
  obtain ⟨u, hline, he⟩ := acceptPay_eq st tag s
  rw [he]
  exact (line_emit_ne (by simp) _ _).trans (hline _ station_ne_site)

/-- Settles O40: a PAY that no check refuses reserves, makes the holds PAYING and starts the selection. -/
theorem payAccepted : Obligations.PayAccepted := by
  intro st tag m s b chain htakes hidle hg hsome hm htotal hattempts hup hsales hjournal hlane
  have haccept : payRefusal st s = none :=
    payRefusal_of_checks hidle hg hsome hm htotal hattempts hup hsales hjournal hlane
  have hwhole := acceptPay_whole st tag s
  have hamount : ((s.basket st).summary.map (·.total)).getD 0 = m.total := by rw [hm]; rfl
  rw [hamount] at hwhole
  refine ⟨acceptPay st tag s, ?_, ?_, fun n => ?_, ?_, congrArg LineRec.out (line_acceptPay_station ..)⟩
  · have taken : stationRequest st tag .pay (pay st tag) s = acceptPay st tag s := by
      rw [stationRequest_of_takes htakes, pay, haccept]
    exact congrArg Host.Outcome.next taken
  · have hholds : (acceptPay st tag s).holds = (setHoldPhases st .paying s).holds := by rw [hwhole]
    rw [hholds]
    exact hwhole
  · have hhold : (acceptPay st tag s).hold n = (setHoldPhases st .paying s).hold n := by rw [hwhole]; rfl
    rw [hhold]
    exact hold_setHoldPhases ..
  · rw [line_acceptPay_terminal, State.lineWith, hup]
    rfl

end Sys2Proof.Machine
end

section
/-! The end of a payment without a sale (R62, R94, R105): what becomes of the basket, and what the station is told. -/

namespace Sys2Proof.Machine

/-! ### Records on a line (R184) -/

theorem lineWith_of_lost {s : State} {l : Line} (h : s.isLost l = true) (rs : List OutRec) : s.lineWith l rs = s.line l := if_pos h

theorem lineWith_of_up {s : State} {l : Line} (h : s.isLost l = false) (rs : List OutRec) :
    s.lineWith l rs = { s.line l with out := (s.line l).out ++ rs } := by rw [State.lineWith, h]; rfl

/-- Records put out behind others. -/
theorem lineWith_lineWith {s u : State} {l : Line} {a : List OutRec} (h : u.line l = s.lineWith l a) (b : List OutRec) :
    u.lineWith l b = s.lineWith l (a ++ b) := by
  cases hl : s.isLost l with
  | true =>
    rw [lineWith_of_lost hl] at h ⊢
    exact (lineWith_congr h b).trans (lineWith_of_lost hl b)
  | false =>
    rw [lineWith_of_up hl] at h ⊢
    have hu : u.isLost l = false := by unfold State.isLost; rw [h]; exact hl
    rw [lineWith_of_up hu, h, ← List.append_assoc]

/-! ### The basket before it is settled -/

/-- What the end of a payment reads of a state: the contents of the stores, and whether the link of the station is lost. -/
structure SameStores (st : Station) (s u : State) : Prop where
  baskets : u.baskets = s.baskets
  holds : u.holds = s.holds
  screenings : u.screenings = s.screenings
  items : u.items = s.items
  lost : u.isLost (.station st) = s.isLost (.station st)

section

variable {st : Station} {s u : State} (h : SameStores st s u)

include h

theorem SameStores.basket (st' : Station) : u.basket st' = s.basket st' := by unfold State.basket; rw [h.baskets]

theorem SameStores.hold (n : Nat) : u.hold n = s.hold n := by unfold State.hold; rw [h.holds]

theorem SameStores.seat (slot : Nat) (p : SeatPos) : u.seat slot p = s.seat slot p := by
  unfold State.seat State.screening; rw [h.screenings]

theorem SameStores.item (code : Nat) : u.item code = s.item code := by unfold State.item; rw [h.items]

theorem SameStores.gathering : u.gathering st = s.gathering st := by
  unfold State.gathering State.holdsOf; rw [h.holds]

theorem SameStores.settleNotices : u.settleNotices st = s.settleNotices st := by
  unfold State.settleNotices; simp only [h.basket, h.hold]

end

/-- The basket of a station whose payment has ended, before it is settled: an attempt may be counted, and its holds are
STANDING (R38, R105). -/
structure HoldsStand (st : Station) (asked : Bool) (s w : State) : Prop where
  basket : w.basket st =
    { s.basket st with attempts := if asked then (s.basket st).attempts + 1 else (s.basket st).attempts }
  hold : ∀ n, w.hold n =
    if n ∈ (s.basket st).holds then (s.hold n).map (fun h => { h with phase := .standing }) else s.hold n
  screenings : w.screenings = s.screenings
  items : w.items = s.items
  line : w.line (.station st) = s.line (.station st)
  gathering : s.gathering st = none → w.gathering st = none

section

variable {st : Station} {asked : Bool} {s w : State} (h : HoldsStand st asked s w)

include h

theorem HoldsStand.isLost : w.isLost (.station st) = s.isLost (.station st) := by unfold State.isLost; rw [h.line]

theorem HoldsStand.seat (slot : Nat) (p : SeatPos) : w.seat slot p = s.seat slot p := by
  unfold State.seat State.screening; rw [h.screenings]

theorem HoldsStand.item (code : Nat) : w.item code = s.item code := by unfold State.item; rw [h.items]

/-- A hold of the basket keeps its slot and seats. -/
theorem HoldsStand.hold_of_mem {n : Nat} {r : Hold} (hn : n ∈ (s.basket st).holds) (hr : s.hold n = some r) :
    w.hold n = some { r with phase := .standing } := by rw [h.hold, if_pos hn, hr]; rfl

theorem HoldsStand.seats (n : Nat) : (w.hold n).map (·.seats) = (s.hold n).map (·.seats) := by
  rw [h.hold]
  split
  · rw [Option.map_map]; rfl
  · rfl

theorem HoldsStand.emptied {t : State} (ht : BasketEmptied st w t) : BasketEmptied st s t := by
  obtain ⟨hvacant, hgone, hseats, hitems⟩ := ht
  rw [h.basket] at hgone hseats hitems
  refine ⟨hvacant, hgone, fun n hn r hr p hp y hy => ?_, fun hnodup l hl x hx => hitems hnodup l hl x (by rwa [h.item])⟩
  exact hseats n hn _ (h.hold_of_mem hn hr) p hp y (by rwa [h.seat])

/-- The notice of a basket that lapsed in payment counts the seats of its holds while no hold gathers (R38, R62). -/
theorem HoldsStand.lapsed (hg : s.gathering st = none) (hover : (s.basket st).overdue = true) : s.settleNotices st =
    [.basketLapsed .lapsedInPayment (w.seatsToRelease st) (unitsOf (w.basket st).snacks)] := by
  have hrelease : w.holdsToRelease st = (s.basket st).holds := by
    unfold State.holdsToRelease
    rw [h.gathering hg, h.basket]
    exact List.append_nil _
  have hseats : w.seatsToRelease st =
      ((s.basket st).holds.map (fun n => (((s.hold n).map (·.seats)).map List.length).getD 0)).sum := by
    unfold State.seatsToRelease
    rw [hrelease]
    refine congrArg List.sum (List.map_congr_left fun n _ => ?_)
    rw [← h.seats, Option.map_map]
    rfl
  have hunits : unitsOf (w.basket st).snacks = ((s.basket st).snacks.map (·.qty)).sum := by rw [h.basket]; rfl
  unfold State.settleNotices
  simp only [hover, if_true]
  rw [hseats, hunits]
  congr 3
  refine List.map_congr_left fun n _ => ?_
  cases s.hold n <;> rfl

end

theorem line_releaseReservations_ne {l : Line} (h : l ≠ .site) (st : Station) (p : Payment) (s : State) :
    (releaseReservations st p s).line l = s.line l := by
  unfold releaseReservations
  dsimp only
  generalize hu : modifyLane st _ _ = u
  have hline : u.line l = s.line l := by rw [← hu]; split <;> rfl
  split
  · exact (line_judgeJournal_ne h _).trans hline
  · exact hline

theorem holdsStand_setHoldPhases {st : Station} {asked : Bool} {s u : State} (hbasket : u.basket st =
      { s.basket st with attempts := if asked then (s.basket st).attempts + 1 else (s.basket st).attempts })
    (hholds : u.holds = s.holds) (hscreenings : u.screenings = s.screenings) (hitems : u.items = s.items)
    (hline : u.line (.station st) = s.line (.station st)) : HoldsStand st asked s (setHoldPhases st .standing u) where
  basket := by rw [setHoldPhases_frame]; exact hbasket
  hold n := by
    rw [hold_setHoldPhases, hbasket]
    simp only [State.hold, hholds]
  screenings := by rw [setHoldPhases_frame]; exact hscreenings
  items := by rw [setHoldPhases_frame]; exact hitems
  line := by rw [setHoldPhases_frame]; exact hline
  gathering hg := by
    have hgu : u.gathering st = none := by unfold State.gathering State.holdsOf at hg ⊢; rwa [hholds]
    exact (tended_setHoldPhases st (by decide) u).gathering_eq_none hgu

/-- The end of a payment without a sale settles the basket and tells the outcome, once the reservations are released, the attempt
counted and the holds STANDING (R94). -/
theorem endWithoutSale_eq (st : Station) (p : Payment) (o : Option PayOutcome) (s : State) :
    ∃ w, HoldsStand st p.asked s w ∧ w.pays = s.pays ∧
      endWithoutSale st p o s = setPayment st none (tellOutcome st p o (settleBasket st w)) := by
  have released : (releaseReservations st p s).basket st = s.basket st ∧ (releaseReservations st p s).holds = s.holds ∧
      (releaseReservations st p s).screenings = s.screenings ∧ (releaseReservations st p s).items = s.items ∧
      (releaseReservations st p s).pays = s.pays := by rw [releaseReservations_frame]; exact ⟨rfl, rfl, rfl, rfl, rfl⟩
  have hline := line_releaseReservations_ne (l := .station st) station_ne_site st p s
  obtain ⟨hbasket, hholds, hscreenings, hitems, hpays⟩ := released
  refine ⟨_, ?_, ?_, rfl⟩
  · cases p.asked with
    | true =>
      refine holdsStand_setHoldPhases ?_ hholds hscreenings hitems hline
      rw [if_pos rfl, modifyBasket, basket_setBasket, hbasket]
      rfl
    | false => exact holdsStand_setHoldPhases hbasket hholds hscreenings hitems hline
  · rw [setHoldPhases_frame]
    split
    · exact hpays
    · exact hpays

/-! ### The basket settled (R62) -/

theorem settleBasket_of_overdue {st : Station} {s : State} (h : (s.basket st).overdue = true) : settleBasket st s =
    emit (.station st) (.basketLapsed .lapsedInPayment (s.seatsToRelease st) (unitsOf (s.basket st).snacks))
      (emptyBasket st s) := if_pos h

theorem settleBasket_of_lost {st : Station} {s : State} (h : (s.basket st).overdue = false)
    (hlost : s.isLost (.station st) = true) : settleBasket st s = emptyBasket st s := by simp [settleBasket, h, hlost]

theorem settleBasket_of_load {st : Station} {s : State} {k : LoadKind} (h : (s.basket st).overdue = false)
    (hup : s.isLost (.station st) = false) (hload : (s.basket st).payLoad = some k) : settleBasket st s =
    emit (.station st) (.priceStale k) (setBasket st { s.basket st with summary := none, stale := true, payLoad := none } s) := by
  simp [settleBasket, h, hup, hload, modifyBasket]

theorem settleBasket_of_kept {st : Station} {s : State} (h : (s.basket st).overdue = false)
    (hup : s.isLost (.station st) = false) (hload : (s.basket st).payLoad = none) : settleBasket st s = s := by
  simp [settleBasket, h, hup, hload]

/-- What is settled depends on the stores after it alone. -/
theorem BasketEmptied.of_same {st : Station} {s t u : State} (h : BasketEmptied st s t) (hu : SameStores st t u) :
    BasketEmptied st s u := by
  unfold BasketEmptied
  simp only [hu.basket, hu.hold, hu.seat, hu.item]
  exact h

theorem emptied_settleBasket {st : Station} {s : State}
    (h : (s.basket st).overdue = true ∨ s.isLost (.station st) = true) : BasketEmptied st s (settleBasket st s) := by
  have emptied := emptyingTaken_emptyBasket st s |>.emptied
  cases hover : (s.basket st).overdue with
  | true =>
    rw [settleBasket_of_overdue hover]
    refine emptied.of_same ?_
    exact ⟨emit_baskets .., emit_holds .., emit_screenings .., emit_items .., isLost_emit ..⟩
  | false =>
    rw [settleBasket_of_lost hover (h.resolve_left (by simp [hover]))]
    exact emptied

theorem basketSettled_settleBasket {st : Station} {asked : Bool} {s w : State} (h : HoldsStand st asked s w) :
    BasketSettled st asked s (settleBasket st w) := by
  have hover : (w.basket st).overdue = (s.basket st).overdue := by rw [h.basket]
  refine ⟨fun hends => h.emptied (emptied_settleBasket ?_), fun hdue hup => ?_⟩
  · rwa [hover, h.isLost]
  · have hdue : (w.basket st).overdue = false := hover.trans hdue
    have hup : w.isLost (.station st) = false := h.isLost.trans hup
    have hload : (w.basket st).payLoad = (s.basket st).payLoad := by rw [h.basket]
    cases hk : (s.basket st).payLoad with
    | none =>
      rw [settleBasket_of_kept hdue hup (hload.trans hk)]
      exact ⟨h.basket, h.screenings, h.items, h.hold⟩
    | some k =>
      rw [settleBasket_of_load hdue hup (hload.trans hk)]
      refine ⟨?_, (emit_screenings ..).trans h.screenings, (emit_items ..).trans h.items, fun n => ?_⟩
      · rw [basket_emit, basket_setBasket, h.basket]; rfl
      · exact (hold_emit ..).trans (h.hold n)

theorem settleNotices_of_not_overdue {st : Station} {s : State} (h : (s.basket st).overdue = false) :
    s.settleNotices st = ((s.basket st).payLoad.map OutRec.priceStale).toList := by
  unfold State.settleNotices
  simp only [h]
  cases (s.basket st).payLoad <;> rfl

/-- The settling puts its notice out on the station's link (R62). -/
theorem line_settleBasket {st : Station} {asked : Bool} {s w : State} (h : HoldsStand st asked s w)
    (hg : s.gathering st = none) :
    (settleBasket st w).line (.station st) = s.lineWith (.station st) (s.settleNotices st) := by
  have hover : (w.basket st).overdue = (s.basket st).overdue := by rw [h.basket]
  have hload : (w.basket st).payLoad = (s.basket st).payLoad := by rw [h.basket]
  cases hdue : (s.basket st).overdue with
  | true =>
    rw [settleBasket_of_overdue (hover.trans hdue), line_emit, h.lapsed hg hdue]
    exact lineWith_congr ((line_emptyBasket_station ..).trans h.line) _
  | false =>
    cases hlost : s.isLost (.station st) with
    | true =>
      rw [settleBasket_of_lost (hover.trans hdue) (h.isLost.trans hlost), line_emptyBasket_station, h.line]
      exact (lineWith_of_lost hlost _).symm
    | false =>
      rw [settleNotices_of_not_overdue hdue]
      cases hk : (s.basket st).payLoad with
      | none =>
        rw [settleBasket_of_kept (hover.trans hdue) (h.isLost.trans hlost) (hload.trans hk), h.line]
        exact (lineWith_nil ..).symm
      | some k =>
        rw [settleBasket_of_load (hover.trans hdue) (h.isLost.trans hlost) (hload.trans hk), line_emit]
        exact lineWith_congr h.line _

/-- On a lost link the settling puts nothing out. -/
theorem line_settleBasket_of_lost {st : Station} {asked : Bool} {s w : State} (h : HoldsStand st asked s w)
    (hlost : s.isLost (.station st) = true) : (settleBasket st w).line (.station st) = s.line (.station st) := by
  have hlost' : (emptyBasket st w).isLost (.station st) = true := by
    unfold State.isLost; rw [line_emptyBasket_station, h.line]; exact hlost
  cases hover : (w.basket st).overdue with
  | true => rw [settleBasket_of_overdue hover, emit_of_lost hlost', line_emptyBasket_station, h.line]
  | false => rw [settleBasket_of_lost hover (h.isLost.trans hlost), line_emptyBasket_station, h.line]

/-! ### The end of a payment without a sale (R94) -/

/-- What a station is told of an outcome, unless it has been told (R94). -/
def toldOutcome (st : Station) (p : Payment) (o : Option PayOutcome) (s : State) : List OutRec :=
  if p.reported then [] else (o.map (.payOutcome ⟨st, (s.pay st).count⟩)).toList

theorem line_tellOutcome (st : Station) (p : Payment) (o : Option PayOutcome) (s : State) :
    (tellOutcome st p o s).line (.station st) = s.lineWith (.station st) (toldOutcome st p o s) := by
  unfold tellOutcome toldOutcome
  cases o with
  | none => simp [lineWith_nil]
  | some x =>
    dsimp only
    split
    · exact (lineWith_nil ..).symm
    · exact line_emit ..

theorem EndTold.of_lineWith {st : Station} {before told : List OutRec} {s t : State}
    (hlost : s.isLost (.station st) = true → t.line (.station st) = s.line (.station st))
    (hup : s.gathering st = none →
      t.line (.station st) = s.lineWith (.station st) (before ++ s.settleNotices st ++ told)) : EndTold st before told s t := by
  refine ⟨fun h => congrArg LineRec.out (hlost h), fun h hg => ?_⟩
  rw [hup hg, lineWith_of_up h, ← List.append_assoc, ← List.append_assoc]

section

variable (st : Station) (p : Payment) (o : Option PayOutcome) (s : State)

theorem basketSettled_endWithoutSale : BasketSettled st p.asked s (endWithoutSale st p o s) := by
  obtain ⟨w, hw, _, he⟩ := endWithoutSale_eq st p o s
  rw [he, tellOutcome_frame]
  exact basketSettled_settleBasket hw

theorem endTold_endWithoutSale : EndTold st [] (toldOutcome st p o s) s (endWithoutSale st p o s) := by
  obtain ⟨w, hw, hpays, he⟩ := endWithoutSale_eq st p o s
  have hpay : (settleBasket st w).pay st = s.pay st := by rw [settleBasket_frame]; unfold State.pay; rw [← hpays]
  have htold : toldOutcome st p o (settleBasket st w) = toldOutcome st p o s := by unfold toldOutcome; rw [hpay]
  have hline : (endWithoutSale st p o s).line (.station st) =
      (settleBasket st w).lineWith (.station st) (toldOutcome st p o s) := by
    rw [he, ← htold]; exact line_tellOutcome ..
  refine .of_lineWith (fun hlost => ?_) fun hg => ?_
  · have hsettled := line_settleBasket_of_lost hw hlost
    rw [hline, lineWith_congr hsettled, lineWith_of_lost hlost]
  · exact hline.trans (lineWith_lineWith (line_settleBasket hw hg) _)

end

/-- What is settled and told of a state that differs from `s` beside the stores. -/
theorem BasketSettled.of_before {st : Station} {asked : Bool} {s u t : State} (h : SameStores st s u)
    (ht : BasketSettled st asked u t) : BasketSettled st asked s t := by
  unfold BasketSettled BasketEmptied at ht ⊢
  simp only [h.basket, h.hold, h.seat, h.item, h.lost, h.screenings, h.items] at ht
  exact ht

theorem EndTold.of_before {st : Station} {before told : List OutRec} {s u t : State} (h : SameStores st s u)
    (hline : u.line (.station st) = s.lineWith (.station st) before) (ht : EndTold st [] told u t) : EndTold st before told s t := by
  obtain ⟨hlost, hup⟩ := ht
  refine ⟨fun hs => ?_, fun hs hg => ?_⟩
  · rw [hlost (h.lost.trans hs), hline, lineWith_of_lost hs]
  · rw [hup (h.lost.trans hs) (h.gathering.trans hg), h.settleNotices, hline, lineWith_of_up hs, List.append_nil]

end Sys2Proof.Machine
end

section
/-! Selection, authorisation, abort, reversal and capture (R90 to R105): O41, O42, O44 and O45. -/

namespace Sys2Proof.Machine

/-! ### A payment stored beside records put out -/

theorem setPayment_emit (st : Station) (q : Option Payment) (l : Line) (r : OutRec) (s : State) :
    setPayment st q (emit l r s) = emit l r (setPayment st q s) := by
  cases h : s.isLost l with
  | true => rw [emit_of_lost h, emit_of_lost (s := setPayment st q s) h]
  | false => rw [emit_of_up h, emit_of_up (s := setPayment st q s) h]; rfl

theorem setPayment_setPayment (st : Station) (q q' : Option Payment) (s : State) :
    setPayment st q (setPayment st q' s) = setPayment st q s := by
  simp [setPayment, setPay, State.pay]

theorem setPayment_self {st : Station} {p : Payment} {s : State} (h : s.payment st = some p) : setPayment st (some p) s = s := by
  have hpay : ({ s.pay st with current := some p } : PayContext) = s.pay st := by rw [← h]; rfl
  have hself : s.pays.set st (s.pay st) = s.pays := set_self s.pays st
  rw [setPayment, hpay, setPay, hself]

theorem modifyPayment_of_some {st : Station} {p : Payment} {s : State} (h : s.payment st = some p) (f : Payment → Payment) :
    modifyPayment st f s = setPayment st (some (f p)) s := by rw [modifyPayment, h]; rfl

/-- A payment whose ABORT is sent (R90, R96, R98). -/
def Payment.aborted (p : Payment) (cause : AbortCause) (now : Time) : Payment :=
  { p with phase := .aborting, limit := none, cause := some cause, step := some ⟨now, 10000⟩ }

theorem sendAbort_of_some {st : Station} {p : Payment} {s : State} (h : s.payment st = some p) (c : AbortCause) :
    sendAbort st c s = emit (.terminal st) .abort (setPayment st (some (p.aborted c s.timeBase)) s) := by
  rw [sendAbort, modifyPayment_of_some h]; rfl

theorem reported_sendAbort {st : Station} {p : Payment} {s : State} (h : s.payment st = some p) (c : AbortCause) :
    modifyPayment st (fun p => { p with reported := true }) (sendAbort st c s) =
      emit (.terminal st) .abort (setPayment st (some { p.aborted c s.timeBase with reported := true }) s) := by
  have hnow : (sendAbort st c s).payment st = some (p.aborted c s.timeBase) := by
    rw [sendAbort_of_some h, emit_frame]; exact payment_setPayment ..
  rw [modifyPayment_of_some hnow, sendAbort_of_some h, setPayment_emit, setPayment_setPayment]

/-! ### The end of a payment, by what it starts from -/

/-- A payment with its reservations in the journal, and its basket settled (R94). -/
theorem endWithoutSale_of_journal {st : Station} {p : Payment} (o : Option PayOutcome) (s : State) (hjournal : p.resJournal = true) :
    endWithoutSale st p o s = { s with
      screenings := (endWithoutSale st p o s).screenings, holds := (endWithoutSale st p o s).holds,
      items := (endWithoutSale st p o s).items, baskets := s.baskets.set st ((endWithoutSale st p o s).basket st),
      salesReserved := if p.resSale then s.salesReserved - 1 else s.salesReserved,
      journalReserved := s.journalReserved - 1, journalArmed := (endWithoutSale st p o s).journalArmed,
      lanes := s.lanes.set st { s.lane st with reservedRoom := (s.lane st).reservedRoom - p.resLane },
      pays := s.pays.set st { s.pay st with current := none }, lines := (endWithoutSale st p o s).lines } := by
  refine (endWithoutSale_frame st p o s).trans ?_
  rw [hjournal]
  rfl

theorem toldOutcome_none (st : Station) (p : Payment) (s : State) : toldOutcome st p none s = [] := ite_self _

theorem toldOutcome_some {st : Station} {p : Payment} {s : State} (h : p.reported = false) (x : PayOutcome) :
    toldOutcome st p (some x) s = [.payOutcome ⟨st, (s.pay st).count⟩ x] := by rw [toldOutcome, h]; rfl

/-- The station is told CANCELLED for the cause CANCEL, and once (R99, R101, R102). -/
theorem toldOutcome_abort (st : Station) (p : Payment) (s : State) : toldOutcome st p (abortOutcomeOf p.cause) s =
    if p.cause = some .cancel ∧ p.reported = false then [.payOutcome ⟨st, (s.pay st).count⟩ .cancelled] else [] := by
  cases hreported : p.reported with
  | true => simp [toldOutcome, hreported]
  | false =>
    cases hcause : p.cause with
    | none => simp [abortOutcomeOf, toldOutcome_none]
    | some c =>
      cases c with
      | cancel => simp [abortOutcomeOf, toldOutcome_some hreported]
      | timeLimit => simp [abortOutcomeOf, toldOutcome_none]

theorem reversalReason_eq (c : Option AbortCause) :
    reversalReason c = if c = some .timeLimit then .timedOut else .cancelled := by
  cases c with
  | none => rfl
  | some c => cases c <;> rfl

/-! ### Selection (R90, R91) -/

theorem answerPay_of_request {st : Station} {r : Request} {s : State} (h : s.request st = some r) (c : Code) (vs : List Val) :
    answerPay st c vs s = setRequest st none (emit (.station st) (.reply r.tag c vs) s) := by rw [answerPay, h]; rfl

theorem request_emit (l : Line) (x : OutRec) (s : State) (st : Station) : (emit l x s).request st = s.request st := by
  rw [emit_frame]; rfl

theorem sendAuthorise_of_request {st : Station} {p : Payment} {r : Request} {s : State} (hr : s.request st = some r) :
    sendAuthorise st p s = setRequest st none
      (emit (.station st) (.reply r.tag .started
          [.saleRef ⟨st, (s.pay st).count⟩, .amount p.amount, .timeLimit s.limits.payTime])
        (emit (.terminal st) (.authorise p.amount ⟨st, (s.pay st).count⟩)
          (setPayment st (some { p with
            phase := .authorising, step := none, asked := true, limit := some ⟨s.timeBase, s.limits.payTime * 1000⟩ }) s))) :=
  answerPay_of_request (by rw [request_emit]; exact hr) ..

theorem abortSelection_of_request {st : Station} {p : Payment} {r : Request} {c : AbortCause} {s : State}
    (hp : s.payment st = some p) (hr : s.request st = some r) : abortSelection st c s = setRequest st none
      (emit (.station st) (.reply r.tag .cancelled [.saleRef ⟨st, (s.pay st).count⟩])
        (emit (.terminal st) .abort (setPayment st (some { p.aborted c s.timeBase with reported := true }) s))) := by
  rw [abortSelection, reported_sendAbort hp]
  exact answerPay_of_request (by rw [request_emit]; exact hr) ..

/-- What ends a selection without success (R91, R94). -/
structure SelectionEnded (st : Station) (p : Payment) (r : Request) (c : Code) (vs : List Val) (s t : State) : Prop where
  frame : t = { s with
    screenings := t.screenings, holds := t.holds, items := t.items, baskets := s.baskets.set st (t.basket st),
    salesReserved := s.salesReserved - 1, journalReserved := s.journalReserved - 1, journalArmed := t.journalArmed,
    lanes := s.lanes.set st { s.lane st with reservedRoom := (s.lane st).reservedRoom - p.resLane },
    pays := s.pays.set st { s.pay st with current := none }, requests := s.requests.set st none, lines := t.lines }
  settled : BasketSettled st false s t
  told : EndTold st [.reply r.tag c (.saleRef ⟨st, (s.pay st).count⟩ :: vs)] [] s t

theorem selectionEnded_selectionFails {st : Station} {p : Payment} {r : Request} {s : State} (hasked : p.asked = false)
    (hsale : p.resSale = true) (hjournal : p.resJournal = true) (hr : s.request st = some r) (c : Code) (vs : List Val) :
    SelectionEnded st p r c vs s (selectionFails st p c vs s) := by
  have hanswer := answerPay_of_request hr c (.saleRef (s.saleRef st) :: vs)
  have hframe := answerPay_frame st c (.saleRef (s.saleRef st) :: vs) s
  unfold selectionFails
  generalize answerPay st c _ s = a at hanswer hframe
  have hline : a.line (.station st) = s.lineWith (.station st) [.reply r.tag c (.saleRef (s.saleRef st) :: vs)] := by
    rw [hanswer]; exact line_emit ..
  have same : SameStores st s a := by
    refine ⟨by rw [hframe], by rw [hframe], by rw [hframe], by rw [hframe], ?_⟩
    rw [hanswer]; exact isLost_emit ..
  refine ⟨?_, .of_before same (hasked ▸ basketSettled_endWithoutSale st p none a), ?_⟩
  · have hend := endWithoutSale_of_journal (st := st) none a hjournal
    rw [hsale] at hend
    generalize endWithoutSale st p none a = t at hend ⊢
    generalize a.lines = ls at hframe
    subst hframe
    exact hend
  · exact .of_before same hline (toldOutcome_none st p a ▸ endTold_endWithoutSale st p none a)

section

variable {st : Station} {p : Payment} {s : State} (hp : s.payment st = some p) (hph : p.phase = .selecting)

include hp hph

theorem selectedRecord_of_ready (h : p.cause = none) :
    selectedRecord st (s.station st).addr .ready s = sendAuthorise st p s := by
  simp [selectedRecord, hp, hph, h]

theorem selectedRecord_of_cancelled {c : AbortCause} (h : p.cause = some c) :
    selectedRecord st (s.station st).addr .ready s = abortSelection st c s := by
  simp [selectedRecord, hp, hph, h]

theorem selectedRecord_of_wrong {echo : Chars 4} (status : SelectStatus) (h : echo ≠ (s.station st).addr) :
    selectedRecord st echo status s = selectionFails st p .wrongTerminal [.echo echo] s := by
  simp [selectedRecord, hp, hph, h]

theorem selectedRecord_of_busy {status : SelectStatus} (h : status ≠ .ready) :
    selectedRecord st (s.station st).addr status s = selectionFails st p .terminalBusy [.selectStatus status] s := by
  simp [selectedRecord, hp, hph, h]

theorem selectStepReached_of_step (h : p.step.isSome = true) : selectStepReached st s = selectionFails st p .lineDown [] s := by
  have hexpires : expires p.step = true := h
  simp [selectStepReached, hp, hph, hexpires]

end

/-- Settles O41: a selection that succeeds goes on or is aborted by its cause; one that does not ends the payment behind its reply. -/
theorem selectionJudged : Obligations.SelectionJudged := by
  refine ⟨fun st p r s hp hph hr => ⟨fun hcause => ?_, fun hcause => ?_⟩,
    fun st p r s hp hph hasked hsale hjournal hr => ?_⟩
  · exact congrArg Host.Outcome.next ((selectedRecord_of_ready hp hph hcause).trans (sendAuthorise_of_request hr))
  · obtain ⟨c, hc⟩ := Option.isSome_iff_exists.mp hcause
    refine congrArg Host.Outcome.next ((selectedRecord_of_cancelled hp hph hc).trans
      ((abortSelection_of_request hp hr).trans ?_))
    rw [Payment.aborted, ← hc]
  · have ended (c : Code) (vs : List Val) := selectionEnded_selectionFails hasked hsale hjournal hr c vs
    refine ⟨fun echo status hecho => ?_, fun status hstatus => ?_, fun hstep => ?_⟩
    · obtain ⟨hframe, hsettled, htold⟩ := ended .wrongTerminal [.echo echo]
      exact ⟨_, congrArg Host.Outcome.next (selectedRecord_of_wrong hp hph status hecho), hframe, hsettled, htold⟩
    · obtain ⟨hframe, hsettled, htold⟩ := ended .terminalBusy [.selectStatus status]
      exact ⟨_, congrArg Host.Outcome.next (selectedRecord_of_busy hp hph hstatus), hframe, hsettled, htold⟩
    · obtain ⟨hframe, hsettled, htold⟩ := ended .lineDown []
      exact ⟨_, congrArg Host.Outcome.next (selectStepReached_of_step hp hph hstep), hframe, hsettled, htold⟩

/-! ### Authorisation (R92, R95) -/

theorem progressRecord_of_authorising {st : Station} {p : Payment} {s : State} (hp : s.payment st = some p)
    (hph : p.phase = .authorising) (stage : PayStage) :
    progressRecord st stage s = emit (.station st) (.payProgress ⟨st, (s.pay st).count⟩ stage) s := by
  simp [progressRecord, hp, hph, State.saleRef]

theorem progressRecord_of_other {st : Station} {s : State} (h : ∀ p, s.payment st = some p → p.phase ≠ .authorising)
    (stage : PayStage) : progressRecord st stage s = s := by
  unfold progressRecord
  split
  · rfl
  · next p hp => exact if_neg (h p hp)

/-- An outcome that is no approval ends the payment (R95, R99). -/
theorem outcomeRecord_of_authorising {st : Station} {p : Payment} {s : State} (hp : s.payment st = some p)
    (hph : p.phase = .authorising) {o : TermOutcome} {told : PayOutcome} (ho : outcomeOf o = some told) :
    outcomeRecord st o s = endWithoutSale st p (some told) s := by
  cases o with
  | approved code tail => cases ho
  | declined r => rw [← ho]; simp [outcomeRecord, hp, hph]
  | cancelled => rw [← ho]; simp [outcomeRecord, hp, hph]
  | error => rw [← ho]; simp [outcomeRecord, hp, hph]

/-- Settles O42: PROGRESS is relayed in AUTHORISING alone; an outcome that is no approval ends the payment without a sale. -/
theorem authorisationReports : Obligations.AuthorisationReports := by
  refine ⟨fun st stage s => ⟨fun p hp hph => congrArg Host.Outcome.next (progressRecord_of_authorising hp hph stage),
    fun h => congrArg Host.Outcome.next (progressRecord_of_other h stage)⟩,
    fun st o told p s hp hph hasked hreported hsale hjournal ho => ?_⟩
  have htold : outcomeOf o = some told := by
    rcases ho with ⟨r, rfl, rfl⟩ | ⟨rfl, rfl⟩ | ⟨rfl, rfl⟩ <;> rfl
  have hframe := endWithoutSale_of_journal (st := st) (some told) s hjournal
  rw [hsale] at hframe
  exact ⟨_, congrArg Host.Outcome.next (outcomeRecord_of_authorising hp hph htold), hframe,
    hasked ▸ basketSettled_endWithoutSale st p (some told) s,
    toldOutcome_some hreported told ▸ endTold_endWithoutSale st p (some told) s⟩

/-! ### Cancel, time limit and abort (R96, R98 to R100) -/

theorem cancelPay_of_none {st : Station} {s : State} (hp : s.payment st = none) (tag : Tag) :
    cancelPay st tag s = emit (.station st) (.reply tag .noPayment []) s := by simp [cancelPay, hp, replyStation]

section

variable {st : Station} {p : Payment} {s : State} (hp : s.payment st = some p)

include hp

theorem cancelPay_of_selecting (tag : Tag) (hph : p.phase = .selecting) : cancelPay st tag s =
    emit (.station st) (.reply tag .aborting []) (setPayment st (some { p with cause := some (p.cause.getD .cancel) }) s) := by
  simp [cancelPay, hp, hph, replyStation, modifyPayment_of_some hp]

theorem cancelPay_of_authorising (tag : Tag) (hph : p.phase = .authorising) : cancelPay st tag s =
    emit (.station st) (.reply tag .aborting [])
      (emit (.terminal st) .abort (setPayment st (some (p.aborted .cancel s.timeBase)) s)) := by
  simp [cancelPay, hp, hph, replyStation, sendAbort_of_some hp]

theorem cancelPay_of_ending (tag : Tag) (hph : p.phase = .aborting ∨ p.phase = .reversing) :
    cancelPay st tag s = emit (.station st) (.reply tag .aborting []) s := by
  rcases hph with hph | hph <;> simp [cancelPay, hp, hph, replyStation]

theorem cancelPay_of_capturing (tag : Tag) (hph : p.phase = .capturing) {n : Nat} (hn : p.sale = some n) :
    cancelPay st tag s = emit (.station st) (.reply tag .tooLate [.saleNumber n]) s := by
  simp [cancelPay, hp, hph, hn, replyStation]

theorem timeLimitReached_of_limit (hph : p.phase = .authorising) (h : p.limit.isSome = true) : timeLimitReached st s =
    emit (.station st) (.payOutcome ⟨st, (s.pay st).count⟩ .timedOut)
      (emit (.terminal st) .abort (setPayment st (some { p.aborted .timeLimit s.timeBase with reported := true }) s)) := by
  have hexpires : expires p.limit = true := h
  simp [timeLimitReached, hp, hph, hexpires, reported_sendAbort hp, State.saleRef]

theorem outcomeRecord_of_approval (hph : p.phase = .aborting) (code : Chars 6) (tail : Fin 10000) :
    outcomeRecord st (.approved code tail) s = emit (.terminal st) (.reverse (some code)) (setPayment st (some { p with
      phase := .reversing, auth := some ⟨code, tail⟩, step := some ⟨s.timeBase, 10000⟩ }) s) := by
  simp only [outcomeRecord, hp, hph]
  rfl

theorem outcomeRecord_of_aborting (hph : p.phase = .aborting) {o : TermOutcome} (ho : ∀ code tail, o ≠ .approved code tail) :
    outcomeRecord st o s = endWithoutSale st p (abortOutcomeOf p.cause) s := by
  cases o with
  | approved code tail => exact absurd rfl (ho code tail)
  | declined r => simp [outcomeRecord, hp, hph]
  | cancelled => simp [outcomeRecord, hp, hph]
  | error => simp [outcomeRecord, hp, hph]

end

/-- Settles O44: CANCEL-PAY by the state of the payment, the time limit, and what ABORTING takes. -/
theorem abortAskedAndSettled : Obligations.AbortAskedAndSettled := by
  refine ⟨fun st tag s htakes => ⟨fun hp => ?_, fun p hp => ⟨fun hph hcause => ?_, fun hph hcause => ?_, fun hph => ?_,
    fun n hph hn => ?_⟩⟩, fun st tag p s hp hph => ⟨fun htakes => ?_, fun hlimit => ?_⟩,
    fun st p s hp hph => ⟨fun code tail => congrArg Host.Outcome.next (outcomeRecord_of_approval hp hph code tail),
      fun o ho hjournal => ?_⟩⟩
  · exact congrArg Host.Outcome.next ((stationRequest_of_takes htakes tag _).trans (cancelPay_of_none hp tag))
  · refine congrArg Host.Outcome.next ((stationRequest_of_takes htakes tag _).trans
      ((cancelPay_of_selecting hp tag hph).trans ?_))
    rw [hcause]
    rfl
  · obtain ⟨c, hc⟩ := Option.isSome_iff_exists.mp hcause
    have hkept : ({ p with cause := some (p.cause.getD .cancel) } : Payment) = p := by rw [hc, Option.getD_some, ← hc]
    refine congrArg Host.Outcome.next ((stationRequest_of_takes htakes tag _).trans
      ((cancelPay_of_selecting hp tag hph).trans ?_))
    rw [hkept, setPayment_self hp]
  · exact congrArg Host.Outcome.next ((stationRequest_of_takes htakes tag _).trans (cancelPay_of_ending hp tag hph))
  · exact congrArg Host.Outcome.next ((stationRequest_of_takes htakes tag _).trans (cancelPay_of_capturing hp tag hph hn))
  · exact congrArg Host.Outcome.next ((stationRequest_of_takes htakes tag _).trans (cancelPay_of_authorising hp tag hph))
  · refine ⟨_, congrArg Host.Outcome.next (timeLimitReached_of_limit hp hph hlimit), ?_, ?_, fun hup => ?_, fun hup => ?_⟩
    · rw [emit_frame]; rfl
    · rw [emit_frame, emit_frame]; rfl
    · rw [line_emit_ne (by simp)]
      exact out_emit (by exact hup) _
    · rw [out_emit (by rw [isLost_emit]; exact hup), line_emit_ne (by simp)]; rfl
  · exact ⟨_, congrArg Host.Outcome.next (outcomeRecord_of_aborting hp hph ho), endWithoutSale_of_journal _ s hjournal,
      basketSettled_endWithoutSale .., toldOutcome_abort st p s ▸ endTold_endWithoutSale ..⟩

/-! ### Reversal and capture (R101 to R104) -/

/-- The end of a payment by a REVERSAL record (R103, R94). -/
theorem settled_reverseAndEnd {st : Station} {p : Payment} (hasked : p.asked = true) (confirmed : Bool) (reason : ReversalReason)
    (s : State) : BasketSettled st true s (reverseAndEnd st p confirmed reason (abortOutcomeOf p.cause) s) ∧
      EndTold st []
        (if p.cause = some .cancel ∧ p.reported = false then [.payOutcome ⟨st, (s.pay st).count⟩ .cancelled] else []) s
        (reverseAndEnd st p confirmed reason (abortOutcomeOf p.cause) s) := by
  unfold reverseAndEnd
  dsimp only
  generalize hu : writeReserved none p.amount _ s = u
  have same : SameStores st s u := hu ▸ ⟨rfl, rfl, rfl, rfl, rfl⟩
  have hpay : u.pay st = s.pay st := hu ▸ rfl
  have hline : u.line (.station st) = s.lineWith (.station st) [] := by rw [lineWith_nil, ← hu]; rfl
  have settled := basketSettled_endWithoutSale st { p with resJournal := false } (abortOutcomeOf p.cause) u
  have told := endTold_endWithoutSale st { p with resJournal := false } (abortOutcomeOf p.cause) u
  rw [show toldOutcome st { p with resJournal := false } (abortOutcomeOf p.cause) u = _ from
    toldOutcome_abort st { p with resJournal := false } u, hpay] at told
  exact ⟨.of_before same (hasked ▸ settled), .of_before same hline told⟩

section

variable {st : Station} {p : Payment} {s : State} (hp : s.payment st = some p)

include hp

theorem abortStepReached_of_step (hph : p.phase = .aborting) (h : p.step.isSome = true) : abortStepReached st s =
    if p.asked then reverseAndEnd st p false .noAnswer (abortOutcomeOf p.cause) s else endWithoutSale st p none s := by
  have hexpires : expires p.step = true := h
  simp [abortStepReached, hp, hph, hexpires]

theorem reversedRecord_of_reversing (hph : p.phase = .reversing) :
    reversedRecord st s = reverseAndEnd st p true (reversalReason p.cause) (abortOutcomeOf p.cause) s := by
  simp [reversedRecord, hp, hph]

theorem reverseStepReached_of_step (hph : p.phase = .reversing) (h : p.step.isSome = true) :
    reverseStepReached st s = reverseAndEnd st p false (reversalReason p.cause) (abortOutcomeOf p.cause) s := by
  have hexpires : expires p.step = true := h
  simp [reverseStepReached, hp, hph, hexpires]

theorem capturedRecord_of_capturing (hph : p.phase = .capturing) : capturedRecord st s = endCapture st p .confirmed s := by
  simp [capturedRecord, hp, hph]

theorem captureStepReached_of_step (hph : p.phase = .capturing) (h : p.step.isSome = true) :
    captureStepReached st s = endCapture st p .unconfirmed s := by
  have hexpires : expires p.step = true := h
  simp [captureStepReached, hp, hph, hexpires]

end

/-- Settles O45: a REVERSAL record before the end without a sale, none where nothing was asked, and the SALE record of a capture. -/
theorem reversalAndCaptureRecorded : Obligations.ReversalAndCaptureRecorded := by
  refine ⟨fun st p s hp hasked => ⟨fun hph hstep => ?_, fun hph => ?_, fun hph hstep => ?_⟩,
    fun st p s hp hph hasked hjournal hstep => ?_, fun st p n x s hp hph hn hx => ⟨?_, fun hstep => ?_⟩⟩
  · have hexec := abortStepReached_of_step hp hph hstep
    rw [if_pos hasked] at hexec
    exact ⟨_, congrArg Host.Outcome.next hexec, reverseAndEnd_frame .., settled_reverseAndEnd hasked ..⟩
  · rw [← reversalReason_eq]
    exact ⟨_, congrArg Host.Outcome.next (reversedRecord_of_reversing hp hph), reverseAndEnd_frame ..,
      settled_reverseAndEnd hasked ..⟩
  · rw [← reversalReason_eq]
    exact ⟨_, congrArg Host.Outcome.next (reverseStepReached_of_step hp hph hstep), reverseAndEnd_frame ..,
      settled_reverseAndEnd hasked ..⟩
  · have hexec := abortStepReached_of_step hp hph hstep
    rw [if_neg (by simp [hasked])] at hexec
    exact ⟨_, congrArg Host.Outcome.next hexec, endWithoutSale_of_journal none s hjournal,
      hasked ▸ basketSettled_endWithoutSale st p none s, toldOutcome_none st p s ▸ endTold_endWithoutSale st p none s⟩
  · exact congrArg Host.Outcome.next ((capturedRecord_of_capturing hp hph).trans (endCapture_of_sale hn hx _))
  · exact congrArg Host.Outcome.next ((captureStepReached_of_step hp hph hstep).trans (endCapture_of_sale hn hx _))

end Sys2Proof.Machine
end

section
/-! What a grant of the render mover leaves of a sale, its seats and its vouchers (R134, R153, R154). -/

namespace Sys2Proof.Machine

/-- From `s` to `t` orders are started or dropped at render start: sales change in their outstanding counts alone, seats and
vouchers in their generations, and nothing is put out to a terminal. -/
structure PrintedOn (s t : State) : Prop where
  sales : ∀ n x, s.sale n = some x → ∃ k, t.sale n = some { x with outstanding := k }
  seats : ∀ slot p y, s.seat slot p = some y → ∃ gen, t.seat slot p = some { y with gen := gen }
  vouchers : ∀ v y, s.voucher v = some y → ∃ gen code, t.voucher v = some { y with gen := gen, code := code }
  terminal : ∀ st, t.line (.terminal st) = s.line (.terminal st)
  station : ∀ st, ∃ behind, (t.line (.station st)).out = (s.line (.station st)).out ++ behind

theorem PrintedOn.of_stores {s t : State} (hsales : t.sales = s.sales) (hscreenings : t.screenings = s.screenings)
    (hvouchers : t.vouchers = s.vouchers) (hterminal : ∀ st, t.line (.terminal st) = s.line (.terminal st))
    (hstation : ∀ st, ∃ behind, (t.line (.station st)).out = (s.line (.station st)).out ++ behind) : PrintedOn s t where
  sales n x hx := ⟨x.outstanding, by unfold State.sale at *; rw [hsales]; exact hx⟩
  seats slot p y hy := ⟨y.gen, by unfold State.seat State.screening at *; rw [hscreenings]; exact hy⟩
  vouchers v y hy := ⟨y.gen, y.code, by unfold State.voucher at *; rw [hvouchers]; exact hy⟩
  terminal := hterminal
  station := hstation

theorem PrintedOn.of_same {s t : State} (hsales : t.sales = s.sales) (hscreenings : t.screenings = s.screenings)
    (hvouchers : t.vouchers = s.vouchers) (hlines : t.lines = s.lines) : PrintedOn s t :=
  have hline (l : Line) : t.line l = s.line l := by unfold State.line; rw [hlines]
  .of_stores hsales hscreenings hvouchers (fun _ => hline _) (fun _ => ⟨[], by rw [hline, List.append_nil]⟩)

theorem PrintedOn.refl (s : State) : PrintedOn s s := .of_same rfl rfl rfl rfl

theorem PrintedOn.trans {s t u : State} (h : PrintedOn s t) (k : PrintedOn t u) : PrintedOn s u where
  sales n x hx := by
    obtain ⟨_, hx'⟩ := h.sales n x hx
    obtain ⟨j, hx''⟩ := k.sales n _ hx'
    exact ⟨j, hx''⟩
  seats slot p y hy := by
    obtain ⟨_, hy'⟩ := h.seats slot p y hy
    obtain ⟨gen, hy''⟩ := k.seats slot p _ hy'
    exact ⟨gen, hy''⟩
  vouchers v y hy := by
    obtain ⟨_, _, hy'⟩ := h.vouchers v y hy
    obtain ⟨gen, code, hy''⟩ := k.vouchers v _ hy'
    exact ⟨gen, code, hy''⟩
  terminal st := (k.terminal st).trans (h.terminal st)
  station st := by
    obtain ⟨a, ha⟩ := h.station st
    obtain ⟨b, hb⟩ := k.station st
    exact ⟨a ++ b, by rw [hb, ha, List.append_assoc]⟩

/-- `PrintedOn.trans` read from the last operation inward, as a composed operation is written. -/
theorem PrintedOn.after {s t u : State} (k : PrintedOn t u) (h : PrintedOn s t) : PrintedOn s u := h.trans k

/-- A record put out on a line that is no terminal's. -/
theorem printedOn_emit {l : Line} (h : ∀ st, .terminal st ≠ l) (r : OutRec) (s : State) : PrintedOn s (emit l r s) := by
  refine .of_stores (emit_sales ..) (emit_screenings ..) (emit_vouchers ..) (fun st => line_emit_ne (h st) r s) fun st => ?_
  by_cases e : .station st = l
  · subst e
    rw [line_emit]
    cases hlost : s.isLost (.station st) with
    | true => exact ⟨[], by rw [lineWith_of_lost hlost, List.append_nil]⟩
    | false => exact ⟨[r], by rw [lineWith_of_up hlost]⟩
  · exact ⟨[], by rw [line_emit_ne e, List.append_nil]⟩

theorem printedOn_modifyLane (st : Station) (f : Lane → Lane) (s : State) : PrintedOn s (modifyLane st f s) :=
  .of_same rfl rfl rfl rfl

/-- Orders that end lower the outstanding count of their sale (R157). -/
theorem printedOn_ordersEnded (st : Station) (n k : Nat) (s : State) : PrintedOn s (ordersEnded st n k s) := by
  unfold ordersEnded
  split
  · exact .refl s
  · next x hx =>
    have lowered : PrintedOn s (putSale n { x with outstanding := x.outstanding - k } s) := by
      refine { PrintedOn.refl s with sales := fun m y hy => ?_ }
      by_cases e : m = n
      · subst e
        rw [hx] at hy
        cases hy
        exact ⟨_, sale_putSale ..⟩
      · exact ⟨y.outstanding, (sale_putSale_ne e ..).trans hy⟩
    dsimp only
    split
    · exact (printedOn_emit (by simp) _ _).after lowered
    · exact lowered

theorem printedOn_dropAtStart (st : Station) (o : Order) (reason : Option LimitReason) (s : State) :
    PrintedOn s (dropAtStart st o reason s) := by
  unfold dropAtStart
  refine (printedOn_ordersEnded ..).after ?_
  cases reason
  · exact printedOn_modifyLane ..
  · exact (printedOn_emit (by simp) _ _).after (printedOn_modifyLane ..)

/-- A render start raises the generation of its source (R154). -/
theorem printedOn_raiseGeneration (o : Order) (s : State) : PrintedOn s (raiseGeneration o s) := by
  unfold raiseGeneration
  split
  · next r _ =>
    have stores : PrintedOn s { mapSeats r.slot [refPos r] (fun x => { x with gen := x.gen + 1 }) s with
        screenings := s.screenings } := by rw [mapSeats_frame]; exact .refl s
    refine { stores with seats := fun slot p y hy => ?_ }
    rw [seat_mapSeats (f := fun x => { x with gen := x.gen + 1 }) (fun _ => rfl), hy]
    split
    · exact ⟨_, rfl⟩
    · exact ⟨y.gen, rfl⟩
  · next n _ =>
    unfold modifyVoucher
    split
    · next z hz =>
      refine { PrintedOn.refl s with vouchers := fun v y hy => ?_ }
      by_cases e : v = n
      · subst e
        rw [hz] at hy
        cases hy
        exact ⟨_, _, voucher_putVoucher ..⟩
      · exact ⟨y.gen, y.code, (voucher_putVoucher_ne e ..).trans hy⟩
    · exact .refl s
  · exact .refl s

theorem printedOn_startOrder (st : Station) (o : Order) (s : State) : PrintedOn s (startOrder st o s) := by
  unfold startOrder
  exact PrintedOn.after (printedOn_modifyLane ..) (printedOn_raiseGeneration o s)

theorem printedOn_startNext (st : Station) : ∀ (fuel : Nat) (s : State), PrintedOn s (startNext st fuel s).1
  | 0, s => .refl s
  | fuel + 1, s => by
    unfold startNext
    split
    · exact .refl s
    · split
      · exact (printedOn_startNext st fuel _).after (printedOn_dropAtStart ..)
      · exact printedOn_startOrder ..

theorem printedOn_sendBurst (st : Station) (s : State) : PrintedOn s (sendBurst st s) :=
  (foldl_preserves (PrintedOn s) (fun s r => emit (.printer st) r s)
    (fun t r ht => ht.trans (printedOn_emit (by simp) r t)) (burstFrames (s.lane st) (s.lane st).burstSize) s (.refl s)).trans
    (.of_same rfl rfl rfl rfl)

theorem printedOn_grant (st : Station) (s : State) : PrintedOn s (grant st s).1 := by
  unfold grant
  split
  · exact printedOn_sendBurst ..
  · dsimp only
    split
    · exact (printedOn_sendBurst ..).after (printedOn_startNext ..)
    · exact printedOn_startNext ..

theorem printedOn_arbitrate (out : Option Station) : ∀ (fuel : Nat) (s : State), PrintedOn s (arbitrate out fuel s)
  | 0, s => .refl s
  | fuel + 1, s => by
    unfold arbitrate
    split
    · exact .refl s
    · dsimp only
      split
      · exact printedOn_grant ..
      · exact (printedOn_arbitrate out fuel _).after (printedOn_grant ..)

theorem printedOn_laneComes (st : Station) (s : State) : PrintedOn s (laneComes st s) := by
  unfold laneComes
  split
  · dsimp only
    split
    · exact printedOn_grant ..
    · exact (printedOn_arbitrate ..).after (printedOn_grant ..)
  · exact .refl s

end Sys2Proof.Machine
end

section
/-! The commit of a basket on an approval (R93, R112, R166, R170): O43. -/

namespace Sys2Proof.Machine

/-! ### Records, seats and vouchers of a sale entered -/

/-- Of two records put under one number the last stands. -/
theorem put_put {α : Type} (n : Nat) (v w : α) : ∀ t : Tbl α, (t.put n v).put n w = t.put n w
  | [] => by simp [Tbl.put]
  | (k, x) :: t => by
    rcases lt_trichotomy n k with h | h | h
    · simp [Tbl.put, h]
    · subst h
      simp [Tbl.put]
    · simp [Tbl.put, h.not_gt, h.ne', put_put n v w t]

/-- A seat is listed by a hold of the list. -/
def ListedBy (s : State) (l : List Nat) (slot : Nat) (q : SeatPos) : Prop :=
  ∃ h ∈ l, ∃ r, s.hold h = some r ∧ r.slot = slot ∧ q ∈ r.seats

theorem seat_sellHold_of_listed {s : State} {k n : Nat} {slot : Nat} {q : SeatPos}
    (h : ∃ r, s.hold n = some r ∧ r.slot = slot ∧ q ∈ r.seats) :
    (sellHold k n s).seat slot q = (s.seat slot q).map (Seat.sell k) := by
  obtain ⟨r, hr, hslot, hq⟩ := h
  rw [sellHold, hr]
  exact (seat_mapSeats (pos_sell k) ..).trans (if_pos ⟨hslot.symm, hq⟩)

theorem seat_sellHold_of_other {s : State} {k n : Nat} {slot : Nat} {q : SeatPos}
    (h : ¬∃ r, s.hold n = some r ∧ r.slot = slot ∧ q ∈ r.seats) : (sellHold k n s).seat slot q = s.seat slot q := by
  unfold sellHold
  split
  · next r hr =>
    exact (seat_mapSeats (pos_sell k) ..).trans (if_neg fun ⟨hslot, hq⟩ => h ⟨r, hr, hslot.symm, hq⟩)
  · rfl

/-- A hold of the rest of a list, once the first has been sold. -/
theorem listedBy_sellHold {s : State} {k a : Nat} {l : List Nat} {slot : Nat} {q : SeatPos} :
    ListedBy (sellHold k a s) l slot q ↔ ∃ h ∈ l, h ≠ a ∧ ∃ r, s.hold h = some r ∧ r.slot = slot ∧ q ∈ r.seats := by
  unfold ListedBy
  simp only [hold_sellHold_eq]
  refine exists_congr fun h => and_congr_right fun _ => ?_
  by_cases e : h = a <;> simp [e]

theorem sell_sell (k : Nat) (o : Option Seat) : (o.map (Seat.sell k)).map (Seat.sell k) = o.map (Seat.sell k) := by
  cases o <;> rfl

/-- The seats that the holds of a list name are SOLD, and no other seat changes (R14, R39). -/
theorem seat_sellHolds (k slot : Nat) (q : SeatPos) : ∀ (l : List Nat) (s : State),
    (ListedBy s l slot q → (l.foldl (fun s h => sellHold k h s) s).seat slot q = (s.seat slot q).map (Seat.sell k)) ∧
    (¬ListedBy s l slot q → (l.foldl (fun s h => sellHold k h s) s).seat slot q = s.seat slot q)
  | [], _ => ⟨fun ⟨_, hm, _⟩ => absurd hm List.not_mem_nil, fun _ => rfl⟩
  | a :: l, s => by
    obtain ⟨sold, kept⟩ := seat_sellHolds k slot q l (sellHold k a s)
    rw [List.foldl_cons]
    by_cases ha : ∃ r, s.hold a = some r ∧ r.slot = slot ∧ q ∈ r.seats
    · have hfirst := seat_sellHold_of_listed (k := k) ha
      refine ⟨fun _ => ?_, fun hno => absurd ⟨a, List.mem_cons_self, ha⟩ hno⟩
      by_cases hrest : ListedBy (sellHold k a s) l slot q
      · rw [sold hrest, hfirst, sell_sell]
      · rw [kept hrest, hfirst]
    · have hfirst := seat_sellHold_of_other (k := k) ha
      have hsame : ListedBy (sellHold k a s) l slot q ↔ ListedBy s (a :: l) slot q := by
        rw [listedBy_sellHold]
        constructor
        · exact fun ⟨h, hm, _, hr⟩ => ⟨h, List.mem_cons_of_mem _ hm, hr⟩
        · rintro ⟨h, hm, hr⟩
          have hne : h ≠ a := fun e => ha (e ▸ hr)
          exact ⟨h, (List.mem_cons.mp hm).resolve_left hne, hne, hr⟩
      exact ⟨fun hl => by rw [sold (hsame.mpr hl), hfirst], fun hl => by rw [kept (mt hsame.mp hl), hfirst]⟩

/-- Units taken from the reserved counts tell the site nothing (R166, R167). -/
theorem lines_createVouchers_reserved (n : Nat) (slot : Option Nat) : ∀ (l : List (Nat × Nat)) (s : State),
    (createVouchers n slot true l s).1.lines = s.lines
  | [], _ => rfl
  | (c, v) :: l, s => by
    unfold createVouchers
    refine (lines_createVouchers_reserved n slot l _).trans ?_
    unfold createVoucher issueUnit
    rw [if_pos rfl, modifyItem_lines]
    rfl

/-- A voucher of sale `n` that waits for its print. -/
def PendingOf (n serial : Nat) (s : State) : Prop := ∃ y, s.voucher serial = some y ∧ y.sale = n ∧ y.state = .printPending

theorem pendingOf_createVoucher {n serial : Nat} {s : State} (h : serial = s.freshSerial ∨ PendingOf n serial s) (slot : Option Nat)
    (c v : Nat) (fromReserved : Bool) : PendingOf n serial (createVoucher n slot c v fromReserved s) := by
  by_cases e : serial = s.freshSerial
  · subst e; exact ⟨_, voucher_createVoucher_self .., rfl, rfl⟩
  · obtain ⟨y, hy, hsale, hstate⟩ := h.resolve_left e
    exact ⟨y, (voucher_createVoucher_ne e ..).trans hy, hsale, hstate⟩

/-- The vouchers of a sale wait for their print, whatever serials they are given (R170). -/
theorem pendingOf_createVouchers (n : Nat) (slot : Option Nat) (fromReserved : Bool) {serial : Nat} :
    ∀ (l : List (Nat × Nat)) (s : State), (serial ∈ (createVouchers n slot fromReserved l s).2 ∨ PendingOf n serial s) →
      PendingOf n serial (createVouchers n slot fromReserved l s).1
  | [], _, h => h.resolve_left List.not_mem_nil
  | (c, v) :: l, s, h => by
    refine pendingOf_createVouchers n slot fromReserved l _ ?_
    rcases h with h | h
    · rcases List.mem_cons.mp h with h | h
      · exact .inr (pendingOf_createVoucher (.inl h) ..)
      · exact .inl h
    · exact .inr (pendingOf_createVoucher (.inr h) ..)

/-! ### The record of a station sale (R112 step 1) -/

theorem priced_saleSeats (s : State) (m : Summary) :
    (s.saleSeats m).map (fun l => (⟨l.ref, l.cat, l.fare, l.fee, l.total, l.clamped⟩ : PricedSeat)) = m.seats := by
  rw [State.saleSeats, List.map_map]
  exact List.zipIdx_map_fst 0 m.seats

/-- A seat line has its category's label while the tariff of the summary is in force. -/
theorem label_saleSeats {s : State} {m : Summary} {f : Tariff} {c : Category} {l : SaleSeat} (hid : m.tariffId = s.tariffId)
    (hf : s.tariff = some f) (hl : l ∈ s.saleSeats m) (hc : tariffCategory f l.cat = some c) : l.label = c.label := by
  obtain ⟨e, _, rfl⟩ := List.mem_map.mp hl
  have hfound : (if m.tariffId = s.tariffId then s.tariff else none).bind (fun t => tariffCategory t e.1.cat) = some c := by
    rw [if_pos hid, hf]; exact hc
  simp only [State.labelOf, hfound]

/-! ### The commit (R112) -/

/-- A sale record put under its number, and the seats of the holds sold, before its vouchers are made (R112 steps 1 and 2). -/
def saleEntered (n : Nat) (x : Sale) (holds : List Nat) (s : State) : State :=
  holds.foldl (fun s h => sellHold n h s)
    { putSale n x s with nextSale := succWrap Config.maxSaleNumber n, draws := s.draws + x.seats.length }

theorem saleEntered_frame (n : Nat) (x : Sale) (holds : List Nat) (s : State) : saleEntered n x holds s = { s with
    screenings := (saleEntered n x holds s).screenings, holds := (saleEntered n x holds s).holds, sales := s.sales.put n x,
    nextSale := succWrap Config.maxSaleNumber n, draws := s.draws + x.seats.length } := by
  unfold saleEntered
  rw [sellHolds_frame]
  rfl

theorem seat_saleEntered (n : Nat) (x : Sale) (holds : List Nat) (s : State) (slot : Nat) (q : SeatPos) :
    (ListedBy s holds slot q → (saleEntered n x holds s).seat slot q = (s.seat slot q).map (Seat.sell n)) ∧
    (¬ListedBy s holds slot q → (saleEntered n x holds s).seat slot q = s.seat slot q) :=
  seat_sellHolds n slot q holds
    { putSale n x s with nextSale := succWrap Config.maxSaleNumber n, draws := s.draws + x.seats.length }

theorem enterSale_eq (n : Nat) (x : Sale) (m : Summary) (holds : List Nat) (fromReserved : Bool) (s : State) :
    enterSale n x m holds fromReserved s =
      modifySale n (fun y => { y with
        serials := (createVouchers n x.slot fromReserved (chargedValues m) (saleEntered n x holds s)).2 })
        (createVouchers n x.slot fromReserved (chargedValues m) (saleEntered n x holds s)).1 := rfl

section

variable (st : Station) (m : Summary) (auth : Auth) (s : State)

/-- The seats of a station's basket sold, its reserved sale record taken. -/
def basketSold : State :=
  saleEntered s.freshSale (s.stationSale st m auth) (s.basket st).holds { s with salesReserved := s.salesReserved - 1 }

/-- The vouchers of a station's basket made, and their serials (R112 step 3). -/
def basketIssued : State × List Nat :=
  createVouchers s.freshSale (s.stationSale st m auth).slot true (chargedValues m) (basketSold st m auth s)

/-- The record that a commit leaves, before its chain is counted. -/
def committedSale : Sale := { s.stationSale st m auth with serials := (basketIssued st m auth s).2 }

/-- The record that a commit leaves. -/
def chainedSale : Sale := { committedSale st m auth s with
  outstanding := (chainOf s.freshSale (committedSale st m auth s) true).length }

theorem basketSold_frame : basketSold st m auth s = { s with
    screenings := (basketSold st m auth s).screenings, holds := (basketSold st m auth s).holds,
    sales := s.sales.put s.freshSale (s.stationSale st m auth), salesReserved := s.salesReserved - 1,
    nextSale := succWrap Config.maxSaleNumber s.freshSale, draws := (basketSold st m auth s).draws } := by
  unfold basketSold
  rw [saleEntered_frame]

theorem basketIssued_frame : (basketIssued st m auth s).1 = { s with
    screenings := (basketSold st m auth s).screenings, holds := (basketSold st m auth s).holds,
    sales := s.sales.put s.freshSale (s.stationSale st m auth), salesReserved := s.salesReserved - 1,
    nextSale := succWrap Config.maxSaleNumber s.freshSale, draws := (basketSold st m auth s).draws,
    items := (basketIssued st m auth s).1.items, vouchers := (basketIssued st m auth s).1.vouchers,
    nextSerial := (basketIssued st m auth s).1.nextSerial } := by
  have hsold := basketSold_frame st m auth s
  have hissued : (basketIssued st m auth s).1 = { basketSold st m auth s with
      items := (basketIssued st m auth s).1.items, vouchers := (basketIssued st m auth s).1.vouchers,
      nextSerial := (basketIssued st m auth s).1.nextSerial, lines := (basketIssued st m auth s).1.lines } :=
    createVouchers_frame ..
  have hlines : (basketIssued st m auth s).1.lines = (basketSold st m auth s).lines := lines_createVouchers_reserved ..
  generalize (basketIssued st m auth s).1 = v at hissued hlines ⊢
  rw [hlines] at hissued
  generalize basketSold st m auth s = e at hsold hissued ⊢
  rw [hissued, hsold]

variable {st m}

/-- The commit of a basket whose summary stands. -/
theorem commit_eq (hm : (s.basket st).summary = some m) (room : Nat) : commit st auth room s =
    { (basketIssued st m auth s).1 with
      baskets := s.baskets.set st Basket.vacant,
      sales := s.sales.put s.freshSale (chainedSale st m auth s),
      lanes := s.lanes.set st { s.lane st with
        reservedRoom := (s.lane st).reservedRoom - room,
        queue := (s.lane st).queue ++ chainOf s.freshSale (committedSale st m auth s) true } } := by
  have hsale : (basketIssued st m auth s).1.sale s.freshSale = some (s.stationSale st m auth) := by
    rw [basketIssued_frame]; exact Tbl.find_put_self ..
  have hentered : enterSale s.freshSale (s.stationSale st m auth) m (s.basket st).holds true
      { s with salesReserved := s.salesReserved - 1 } = putSale s.freshSale (committedSale st m auth s) (basketIssued st m auth s).1 := by
    refine (enterSale_eq ..).trans ?_
    exact (show modifySale s.freshSale _ (basketIssued st m auth s).1 = _ by rw [modifySale, hsale]; rfl)
  have hcommit : commit st auth room s = queueSale st s.freshSale room (enterSale s.freshSale (s.stationSale st m auth) m
      (s.basket st).holds true { s with salesReserved := s.salesReserved - 1 }) := by
    unfold commit
    rw [hm]
    rfl
  rw [hcommit, hentered]
  unfold queueSale
  rw [sale_putSale]
  dsimp only [setBasket, modifyLane, setLane, putSale]
  have hframe := basketIssued_frame st m auth s
  unfold chainedSale
  generalize committedSale st m auth s = x
  generalize (basketIssued st m auth s).1 = v at hframe ⊢
  rw [hframe]
  simp only [put_put]
  rfl

theorem hold_basketSold (h : Nat) : (basketSold st m auth s).hold h = if h ∈ (s.basket st).holds then none else s.hold h :=
  hold_sellHolds_eq ..

theorem seat_basketSold (slot : Nat) (q : SeatPos) :
    (ListedBy s (s.basket st).holds slot q →
      (basketSold st m auth s).seat slot q = (s.seat slot q).map (Seat.sell s.freshSale)) ∧
    (¬ListedBy s (s.basket st).holds slot q → (basketSold st m auth s).seat slot q = s.seat slot q) :=
  seat_saleEntered s.freshSale (s.stationSale st m auth) (s.basket st).holds { s with salesReserved := s.salesReserved - 1 } slot q

theorem vouchersMade_basketIssued (h : s.vouchers.length + (chargedValues m).length ≤ 999999) :
    VouchersMade s.freshSale (s.stationSale st m auth).slot (chargedValues m) (basketIssued st m auth s).2 s
      (basketIssued st m auth s).1 := by
  have hsold := basketSold_frame st m auth s
  have made := vouchersMade_createVouchers s.freshSale (s.stationSale st m auth).slot true (chargedValues m)
    (basketSold st m auth s) (by rw [hsold]; exact h)
  unfold basketIssued
  generalize createVouchers _ _ _ _ _ = r at made ⊢
  rw [hsold] at made
  exact made

theorem item_basketIssued (code : Nat) : (basketIssued st m auth s).1.item code = (s.item code).map (fun i =>
    { i with
      reserved := i.reserved - (chargedValues m).countP (fun e => e.1 = code),
      issued := i.issued + (chargedValues m).countP (fun e => e.1 = code) }) := by
  refine (item_createVouchers_reserved ..).trans ?_
  rw [basketSold_frame]
  rfl

end

/-! ### The approval (R93) -/

/-- The state in which an approval is taken, before the lane may come to request the mover. -/
def approvalTaken (st : Station) (p : Payment) (auth : Auth) (s : State) : State :=
  emit (.station st) (.payOutcome ⟨st, (s.pay st).count⟩ (.approved s.freshSale auth.tail))
    (emit (.terminal st) (.capture (some auth.code))
      (setPayment st (some { p with
        phase := .capturing, limit := none, step := some ⟨s.timeBase, 10000⟩, auth := some auth, sale := some s.freshSale,
        resSale := false, resLane := 0, reported := true }) (commit st auth p.resLane s)))

theorem outcomeRecord_of_approved {st : Station} {p : Payment} {s : State} (hp : s.payment st = some p)
    (hph : p.phase = .authorising) (code : Chars 6) (tail : Fin 10000) :
    outcomeRecord st (.approved code tail) s = laneComes st (approvalTaken st p ⟨code, tail⟩ s) := by
  simp only [outcomeRecord, hp, hph]
  rfl

section

variable {st : Station} {p : Payment} {m : Summary} {auth : Auth} {s : State} (hm : (s.basket st).summary = some m)

include hm

/-- Every field that an approval taken can change. -/
theorem approvalTaken_frame : approvalTaken st p auth s = { s with
    screenings := (basketSold st m auth s).screenings, holds := (basketSold st m auth s).holds,
    baskets := s.baskets.set st Basket.vacant,
    sales := s.sales.put s.freshSale (chainedSale st m auth s),
    salesReserved := s.salesReserved - 1, nextSale := succWrap Config.maxSaleNumber s.freshSale,
    draws := (basketSold st m auth s).draws,
    lanes := s.lanes.set st { s.lane st with
      reservedRoom := (s.lane st).reservedRoom - p.resLane,
      queue := (s.lane st).queue ++ chainOf s.freshSale (committedSale st m auth s) true },
    items := (basketIssued st m auth s).1.items, vouchers := (basketIssued st m auth s).1.vouchers,
    nextSerial := (basketIssued st m auth s).1.nextSerial,
    pays := s.pays.set st { s.pay st with current := some { p with
      phase := .capturing, limit := none, step := some ⟨s.timeBase, 10000⟩, auth := some auth, sale := some s.freshSale,
      resSale := false, resLane := 0, reported := true } },
    lines := (approvalTaken st p auth s).lines } := by
  unfold approvalTaken
  rw [emit_frame, emit_frame, commit_eq auth s hm]
  have hframe := basketIssued_frame st m auth s
  generalize (emit _ _ _).lines = ls
  generalize (basketIssued st m auth s).1 = v at hframe ⊢
  generalize committedSale st m auth s = x
  generalize chainedSale st m auth s = y
  rw [hframe]
  rfl

theorem lines_commit (room : Nat) : (commit st auth room s).lines = s.lines := by
  rw [commit_eq auth s hm, basketIssued_frame]

theorem line_approvalTaken_terminal :
    (approvalTaken st p auth s).line (.terminal st) = s.lineWith (.terminal st) [.capture (some auth.code)] := by
  have hline : (commit st auth p.resLane s).line (.terminal st) = s.line (.terminal st) := by
    unfold State.line; rw [lines_commit hm]
  unfold approvalTaken
  rw [line_emit_ne (by simp), line_emit]
  exact lineWith_congr (s := s) hline _

theorem line_approvalTaken_station : (approvalTaken st p auth s).line (.station st) =
    s.lineWith (.station st) [.payOutcome ⟨st, (s.pay st).count⟩ (.approved s.freshSale auth.tail)] := by
  have hline : (commit st auth p.resLane s).line (.station st) = s.line (.station st) := by
    unfold State.line; rw [lines_commit hm]
  unfold approvalTaken
  rw [line_emit]
  refine lineWith_congr ?_ _
  rw [line_emit_ne (by simp)]
  exact hline

theorem line_approvalTaken_other {l : Line} (hterminal : l ≠ .terminal st) (hstation : l ≠ .station st) :
    (approvalTaken st p auth s).line l = s.line l := by
  have hline : (commit st auth p.resLane s).line l = s.line l := by unfold State.line; rw [lines_commit hm]
  unfold approvalTaken
  rw [line_emit_ne hstation, line_emit_ne hterminal]
  exact hline

end

/-- What an approval taken leaves of the stores, beside its frame. -/
structure ApprovalStores (st : Station) (m : Summary) (serials : List Nat) (slot : Option Nat) (s u : State) : Prop where
  holds : ∀ h, u.hold h = if h ∈ (s.basket st).holds then none else s.hold h
  sold : ∀ k q, ListedBy s (s.basket st).holds k q → u.seat k q = (s.seat k q).map (Seat.sell s.freshSale)
  kept : ∀ k q, ¬ListedBy s (s.basket st).holds k q → u.seat k q = s.seat k q
  items : ∀ code, u.item code = (s.item code).map (fun i =>
    { i with
      reserved := i.reserved - (chargedValues m).countP (fun e => e.1 = code),
      issued := i.issued + (chargedValues m).countP (fun e => e.1 = code) })
  pending : ∀ v ∈ serials, PendingOf s.freshSale v u
  made : s.vouchers.length + (chargedValues m).length ≤ 999999 → VouchersMade s.freshSale slot (chargedValues m) serials s u

theorem approvalStores {st : Station} {p : Payment} {m : Summary} {auth : Auth} {s : State}
    (hm : (s.basket st).summary = some m) : ApprovalStores st m (committedSale st m auth s).serials
      (committedSale st m auth s).slot s (approvalTaken st p auth s) := by
  rw [approvalTaken_frame hm]
  exact ⟨hold_basketSold (st := st) (m := m) auth s, fun k q => (seat_basketSold (st := st) (m := m) auth s k q).1,
    fun k q => (seat_basketSold (st := st) (m := m) auth s k q).2, item_basketIssued (st := st) (m := m) auth s,
    fun v hv => pendingOf_createVouchers _ _ _ _ _ (.inl hv), vouchersMade_basketIssued (st := st) (m := m) auth s⟩

/-- A seat that a sold hold lists. -/
theorem ApprovalStores.sold_of_hold {st : Station} {m : Summary} {serials : List Nat} {slot : Option Nat} {s u : State}
    (hu : ApprovalStores st m serials slot s u) {h : Nat} {r : Hold} {q : SeatPos} {y : Seat} (hh : h ∈ (s.basket st).holds)
    (hr : s.hold h = some r) (hq : q ∈ r.seats) (hy : s.seat r.slot q = some y) :
    u.seat r.slot q = some { y with state := .sold s.freshSale, mark := false } := by
  rw [hu.sold r.slot q ⟨h, hh, r, hr, rfl, hq⟩, hy]
  rfl

/-- Settles O43: the commit of the basket, the CAPTURE and the outcome told, and then the grant that the lane may come to. -/
theorem approvalCommits : Obligations.ApprovalCommits := by
  intro st code tail p m s hp hph hm _ hlen hlo hhi
  obtain ⟨hfree, hfirst, hlast⟩ := sale_freshSale hlen hlo hhi
  have hprint := printedOn_laneComes st (approvalTaken st p ⟨code, tail⟩ s)
  have hbeside := sameBesidePrinting_laneComes st (approvalTaken st p ⟨code, tail⟩ s)
  have hcomes := comesToRequest_laneComes st (approvalTaken st p ⟨code, tail⟩ s)
  have hstores := approvalStores (p := p) (auth := ⟨code, tail⟩) hm
  have hframe := approvalTaken_frame (p := p) (auth := ⟨code, tail⟩) hm
  have hterminal := line_approvalTaken_terminal (p := p) (auth := ⟨code, tail⟩) hm
  have hstation := line_approvalTaken_station (p := p) (auth := ⟨code, tail⟩) hm
  have hother := fun {l : Line} => line_approvalTaken_other (p := p) (auth := ⟨code, tail⟩) (l := l) hm
  have hexec := outcomeRecord_of_approved hp hph code tail
  generalize approvalTaken st p ⟨code, tail⟩ s = u at *
  generalize laneComes st u = t at *
  have hsale : u.sale s.freshSale = some (chainedSale st m ⟨code, tail⟩ s) := by rw [hframe]; exact Tbl.find_put_self ..
  obtain ⟨k, hx⟩ := hprint.sales _ _ hsale
  have hholds : t.holds = u.holds := by rw [hbeside]
  refine ⟨t, s.freshSale, { chainedSale st m ⟨code, tail⟩ s with outstanding := k }, congrArg Host.Outcome.next hexec, hfree,
    hfirst, hlast, ?_, hx, rfl, rfl, rfl, rfl, rfl, rfl, rfl, rfl,
    rfl, rfl, rfl, rfl, rfl, rfl, rfl, rfl, priced_saleSeats s m, fun f c hid hf l hl hc => label_saleSeats hid hf hl hc,
    fun hnone => ?_, fun h r hhead hr => ?_, length_createVouchers .., ?_, fun h hh => ?_, fun h hh r hr q hq y hy => ?_,
    fun v hv => ?_, fun hup => ?_, u, hcomes, ?_, ?_, ?_, fun h hh => ?_,
    fun h hh r hr q hq y hy => hstores.sold_of_hold hh hr hq hy,
    fun slot q hout => hstores.kept slot q fun ⟨h, hh, r, hr, hslot, hq⟩ => hout h hh r hr hslot hq, fun item i hi => ?_,
    hstores.made, fun l h1 h2 => hother h1 h2, fun hup => ⟨?_, hprint.station st⟩⟩
  · rw [hbeside, hframe]; rfl
  · show Option.map _ ((s.basket st).holds.head?.bind s.hold) = none
    rw [hnone]; rfl
  · show Option.map _ ((s.basket st).holds.head?.bind s.hold) = some r.slot
    rw [hhead, Option.bind_some, hr]; rfl
  · generalize basketSold st m ⟨code, tail⟩ s = e at hframe
    rw [hbeside, hframe]
  · rw [State.hold, hholds]
    exact (hstores.holds h).trans (if_pos hh)
  · exact hprint.seats r.slot q _ (hstores.sold_of_hold hh hr hq hy)
  · obtain ⟨y, hy, hsold, hstate⟩ := hstores.pending v hv
    obtain ⟨gen, vcode, hy'⟩ := hprint.vouchers v y hy
    exact ⟨_, hy', hsold, hstate⟩
  · rw [hprint.terminal, hterminal, lineWith_of_up hup]
  · rw [hframe]
  · rw [hframe]; rfl
  · have hsales : u.sales = s.sales.put s.freshSale (chainedSale st m ⟨code, tail⟩ s) := by rw [hframe]
    have hmover : u.mover = s.mover := by rw [hframe]
    rw [hbeside, ← hmover]
    exact congrArg (fun l => { u with sales := l }) hsales
  · exact (hstores.holds h).trans (if_neg hh)
  · rw [hstores.items, hi]; rfl
  · rw [hstation, lineWith_of_up hup]

end Sys2Proof.Machine
end

section
/-! What low notices and JOURNAL-HIGH put out on the site link (R125, R167, R184), and the collection of the journal: O48. -/

namespace Sys2Proof.Machine

/-! ### Records put out to the site alone -/

/-- From `s` to `t` records are put out on the site link, and on no other line. -/
structure TellsSite (s t : State) : Prop where
  other : ∀ l, l ≠ .site → t.line l = s.line l
  site : ∃ told, t.line .site = s.lineWith .site told

theorem TellsSite.of_lines {s t : State} (h : t.lines = s.lines) : TellsSite s t :=
  have hline (l : Line) : t.line l = s.line l := by unfold State.line; rw [h]
  ⟨fun l _ => hline l, [], by rw [hline, lineWith_nil]⟩

theorem TellsSite.refl (s : State) : TellsSite s s := .of_lines rfl

theorem TellsSite.trans {s t u : State} (h : TellsSite s t) (k : TellsSite t u) : TellsSite s u := by
  obtain ⟨a, ha⟩ := h.site
  obtain ⟨b, hb⟩ := k.site
  exact ⟨fun l hl => (k.other l hl).trans (h.other l hl), a ++ b, hb.trans (lineWith_lineWith ha b)⟩

/-- `TellsSite.trans` read from the last operation inward, as a composed operation is written. -/
theorem TellsSite.after {s t u : State} (k : TellsSite t u) (h : TellsSite s t) : TellsSite s u := h.trans k

theorem tellsSite_emit (r : OutRec) (s : State) : TellsSite s (emit .site r s) :=
  ⟨fun _ hl => line_emit_ne hl r s, [r], line_emit ..⟩

/-- A record put out on a link that is UP stands behind what was told before it. -/
theorem TellsSite.out_emit {s t : State} (h : TellsSite s t) (hup : s.isLost .site = false) (r : OutRec) :
    ∃ mid, ((emit .site r t).line .site).out = (s.line .site).out ++ mid ++ [r] := by
  obtain ⟨told, htold⟩ := h.site
  exact ⟨told, by rw [line_emit, lineWith_lineWith htold, lineWith_of_up hup, List.append_assoc]⟩

theorem tellsSite_judgeLow (code : Nat) (s : State) : TellsSite s (judgeLow code s) := by
  have set (x : Item) : TellsSite s (setItem code x s) := .of_lines (by rw [setItem_frame])
  unfold judgeLow
  split
  · exact .refl s
  · split
    · split
      · exact (tellsSite_emit ..).after (set _)
      · exact .refl s
    · exact set _

theorem tellsSite_judgeJournal (s : State) : TellsSite s (judgeJournal s) := by
  unfold judgeJournal
  split
  · split
    · exact (tellsSite_emit ..).after (.of_lines rfl)
    · exact .refl s
  · exact .of_lines rfl

theorem tellsSite_writeFree (sale : Option Nat) (amount : Nat) (body : JournalBody) (s : State) :
    TellsSite s (writeFree sale amount body s) := (tellsSite_judgeJournal _).after (.of_lines rfl)

/-! ### The journal after a release (R124) -/

/-- The first record of the number goes, with every older one. -/
theorem releaseUpTo_append {seq : Nat} {r : JournalRec} (newer : List JournalRec) (hr : r.seq = seq) :
    ∀ {older : List JournalRec}, (∀ q ∈ older, q.seq ≠ seq) → releaseUpTo seq (older ++ r :: newer) = some newer
  | [], _ => if_pos hr
  | q :: _, h =>
    (if_neg (h q List.mem_cons_self)).trans (releaseUpTo_append newer hr fun p hp => h p (List.mem_cons_of_mem _ hp))

theorem releaseUpTo_eq_none {seq : Nat} : ∀ {l : List JournalRec}, (∀ q ∈ l, q.seq ≠ seq) → releaseUpTo seq l = none
  | [], _ => rfl
  | q :: _, h => (if_neg (h q List.mem_cons_self)).trans (releaseUpTo_eq_none fun p hp => h p (List.mem_cons_of_mem _ hp))

/-- Below 448 JOURNAL-HIGH is armed, and nothing is told (R125). -/
theorem judgeJournal_of_low {s : State} (h : s.journal.length + s.journalReserved < 448) :
    judgeJournal s = { s with journalArmed := true } := if_neg (Nat.not_le.mpr h)

theorem journalRelease_of_record {older newer : List JournalRec} {r : JournalRec} {seq : Nat} {s : State}
    (hs : s.journal = older ++ r :: newer) (holder : ∀ q ∈ older, q.seq ≠ seq) (hr : r.seq = seq) (tag : Tag) :
    journalRelease tag seq s = emit .site (.reply tag .ok [.removed (older.length + 1), .recordsHeld newer.length])
      (judgeJournal { s with journal := newer }) := by
  have hcount : s.journal.length - newer.length = older.length + 1 := by
    rw [hs, List.length_append, List.length_cons]; omega
  have hrest : releaseUpTo seq s.journal = some newer := by rw [hs]; exact releaseUpTo_append newer hr holder
  simp only [journalRelease, hrest, hcount]
  rfl

theorem journalRelease_of_unknown {seq : Nat} {s : State} (h : ∀ q ∈ s.journal, q.seq ≠ seq) (tag : Tag) :
    journalRelease tag seq s = emit .site (.reply tag .notFound []) s := by
  simp only [journalRelease, releaseUpTo_eq_none h]
  rfl

/-- Settles O48: what is read is the journal as it stands; what is released is all up to the first record of the number. -/
theorem journalCollected : Obligations.JournalCollected := by
  refine ⟨fun _ _ => rfl, fun tag seq s => ⟨fun older r newer hs holder hr => ?_,
    fun h => congrArg Host.Outcome.next (journalRelease_of_unknown h tag)⟩⟩
  refine ⟨_, congrArg Host.Outcome.next (journalRelease_of_record hs holder hr tag), ?_, fun hup => ?_, fun hlow => ?_⟩
  · rw [emit_frame, judgeJournal_frame]
  · have told : TellsSite s (judgeJournal { s with journal := newer }) := (tellsSite_judgeJournal _).after (.of_lines rfl)
    exact told.out_emit hup _
  · rw [judgeJournal_of_low (s := { s with journal := newer }) hlow]
    exact ⟨by rw [emit_frame], rfl⟩

end Sys2Proof.Machine
end

section
/-! A sale entered from a list of holds, its units taken from stock that is not reserved (R114, R166, R167, R170). -/

namespace Sys2Proof.Machine

section

variable (n : Nat) (x : Sale) (m : Summary) (holds : List Nat) (fromReserved : Bool) (s : State)

/-- The vouchers of a sale made, once its record stands and its seats are sold, and their serials. -/
def saleIssued : State × List Nat :=
  createVouchers n x.slot fromReserved (chargedValues m) (saleEntered n x holds s)

theorem saleIssued_frame : (saleIssued n x m holds fromReserved s).1 = { s with
    screenings := (saleEntered n x holds s).screenings, holds := (saleEntered n x holds s).holds, sales := s.sales.put n x,
    nextSale := succWrap Config.maxSaleNumber n, draws := s.draws + x.seats.length,
    items := (saleIssued n x m holds fromReserved s).1.items, vouchers := (saleIssued n x m holds fromReserved s).1.vouchers,
    nextSerial := (saleIssued n x m holds fromReserved s).1.nextSerial,
    lines := (saleIssued n x m holds fromReserved s).1.lines } := by
  have hissued : (saleIssued n x m holds fromReserved s).1 = { saleEntered n x holds s with
      items := (saleIssued n x m holds fromReserved s).1.items,
      vouchers := (saleIssued n x m holds fromReserved s).1.vouchers,
      nextSerial := (saleIssued n x m holds fromReserved s).1.nextSerial,
      lines := (saleIssued n x m holds fromReserved s).1.lines } := createVouchers_frame ..
  have hentered := saleEntered_frame n x holds s
  generalize (saleIssued n x m holds fromReserved s).1 = v at hissued ⊢
  generalize saleEntered n x holds s = e at hentered hissued ⊢
  rw [hissued, hentered]

theorem enterSale_eq_putSale : enterSale n x m holds fromReserved s =
    putSale n { x with serials := (saleIssued n x m holds fromReserved s).2 } (saleIssued n x m holds fromReserved s).1 := by
  have hsale : (saleIssued n x m holds fromReserved s).1.sale n = some x := by
    rw [saleIssued_frame]; exact Tbl.find_put_self ..
  refine (enterSale_eq ..).trans ?_
  exact (show modifySale n _ (saleIssued n x m holds fromReserved s).1 = _ by rw [modifySale, hsale]; rfl)

theorem sale_enterSale : (enterSale n x m holds fromReserved s).sale n =
    some { x with serials := (saleIssued n x m holds fromReserved s).2 } := by
  rw [enterSale_eq_putSale]; exact sale_putSale ..

theorem sale_enterSale_ne {j : Nat} (h : j ≠ n) : (enterSale n x m holds fromReserved s).sale j = s.sale j := by
  rw [enterSale_eq_putSale, sale_putSale_ne h, saleIssued_frame]; exact Tbl.find_put_of_ne _ h _

theorem seat_enterSale (slot : Nat) (q : SeatPos) :
    (enterSale n x m holds fromReserved s).seat slot q = (saleEntered n x holds s).seat slot q := by
  rw [enterSale_eq_putSale, saleIssued_frame]; rfl

theorem vouchersMade_enterSale (h : s.vouchers.length + (chargedValues m).length ≤ 999999) :
    VouchersMade n x.slot (chargedValues m) (saleIssued n x m holds fromReserved s).2 s
      (enterSale n x m holds fromReserved s) := by
  have hentered := saleEntered_frame n x holds s
  have made := vouchersMade_createVouchers n x.slot fromReserved (chargedValues m) (saleEntered n x holds s)
    (by rw [hentered]; exact h)
  rw [enterSale_eq_putSale]
  unfold saleIssued
  generalize createVouchers _ _ _ _ _ = r at made ⊢
  rw [hentered] at made
  exact made

end

/-- A voucher made waits for its print, in generation 0. -/
theorem VouchersMade.pending {n : Nat} {slot : Option Nat} {units : List (Nat × Nat)} {serials : List Nat} {s t : State}
    (h : VouchersMade n slot units serials s t) {v : Nat} (hv : v ∈ serials) :
    ∃ y, t.voucher v = some y ∧ y.sale = n ∧ y.state = .printPending ∧ y.gen = 0 := by
  obtain ⟨_, _, _, hmap, _⟩ := h
  have hmem := List.mem_map_of_mem (f := t.voucher) hv
  rw [hmap, ← List.map_uncurry_zip_eq_zipWith] at hmem
  obtain ⟨e, _, he⟩ := List.mem_map.mp hmem
  exact ⟨_, he.symm, rfl, rfl, rfl⟩

/-- Each voucher made adds one record at most. -/
theorem length_vouchers_createVouchers (sale : Nat) (slot : Option Nat) (fromReserved : Bool) :
    ∀ (l : List (Nat × Nat)) (s : State),
      (createVouchers sale slot fromReserved l s).1.vouchers.length ≤ s.vouchers.length + l.length
  | [], _ => Nat.le_refl _
  | (c, v) :: l, s => by
    have hrest := length_vouchers_createVouchers sale slot fromReserved l (createVoucher sale slot c v fromReserved s)
    have hfirst : (createVoucher sale slot c v fromReserved s).vouchers.length ≤ s.vouchers.length + 1 := by
      rw [createVoucher_frame]; exact Tbl.length_put_le ..
    rw [List.length_cons]
    unfold createVouchers
    dsimp only
    omega

theorem length_vouchers_enterSale (n : Nat) (x : Sale) (m : Summary) (holds : List Nat) (fromReserved : Bool) (s : State) :
    (enterSale n x m holds fromReserved s).vouchers.length ≤ s.vouchers.length + (chargedValues m).length := by
  have hmade := length_vouchers_createVouchers n x.slot fromReserved (chargedValues m) (saleEntered n x holds s)
  rw [saleEntered_frame] at hmade
  rw [enterSale_eq_putSale]
  unfold saleIssued
  rw [saleEntered_frame]
  exact hmade

/-- A unit of a SITE-SELL tells the site of a low item, and nobody else of anything (R167). -/
theorem tellsSite_createVouchers (sale : Nat) (slot : Option Nat) : ∀ (l : List (Nat × Nat)) (s : State),
    TellsSite s (createVouchers sale slot false l s).1
  | [], s => .refl s
  | (c, v) :: l, s => by
    have hfirst : TellsSite s (createVoucher sale slot c v false s) := by
      unfold createVoucher issueUnit
      exact (tellsSite_judgeLow ..).after (.of_lines (modifyItem_lines ..))
    exact (tellsSite_createVouchers sale slot l _).after hfirst

theorem tellsSite_enterSale (n : Nat) (x : Sale) (m : Summary) (holds : List Nat) (s : State) :
    TellsSite s (enterSale n x m holds false s) := by
  have hentered : TellsSite s (saleEntered n x holds s) := .of_lines (by rw [saleEntered_frame])
  have hissued : TellsSite s (saleIssued n x m holds false s).1 := (tellsSite_createVouchers ..).after hentered
  rw [enterSale_eq_putSale]
  exact hissued.trans (.of_lines rfl)

end Sys2Proof.Machine
end

section
/-! SITE-SELL past the checks of Table 6-2 (R113, R114): O46. -/

namespace Sys2Proof.Machine

/-! ### The checks (R113) -/

theorem siteSellFault_eq_none {n : Nat} {cats : List Nat} {snacks : List SnackLine} (hn : n < 64) (hcats : ∀ c ∈ cats, c < 8)
    (hsnacks : ∀ l ∈ snacks, 1 ≤ l.item ∧ l.item ≤ 24 ∧ 1 ≤ l.qty ∧ l.qty ≤ 9) (hnodup : (snacks.map (·.item)).Nodup) :
    siteSellFault n cats snacks = none := by
  have hlines : firstEntryFault sellLineFault [] snacks = none :=
    (firstEntryFault_eq_none_iff sellLineFault_eq_none_iff snacks []).mpr
      ⟨fun l hl => by simpa [itemOk, quantityOk, within, and_assoc] using hsnacks l hl, hnodup, fun _ _ _ h => nomatch h⟩
  have hall : cats.all categoryOk = true := List.all_eq_true.mpr fun c hc => decide_eq_true (hcats c hc)
  rw [siteSellFault, if_pos (show holdOk n = true from decide_eq_true hn), if_pos hall, hlines]
  rfl

theorem siteHold_of_hold {s : State} {n : Nat} {h : Hold} {ref : Chars 8} (hn : s.hold n = some h) (howner : h.owner = .site)
    (href : h.ref = some ref) : s.siteHold n ref = some h := by
  rw [State.siteHold, hn]; exact if_pos ⟨howner, href⟩

/-- Categories that the tariff holds and that suit their seats are not refused (R70). -/
theorem sellCategoryFault_eq_none {t : Tariff} {s : State} : ∀ {lines : List SeatLine},
    (∀ l ∈ lines, ∃ c, tariffCategory t l.cat = some c ∧ (c.companionOnly = true ↔ s.kindOf l.ref = .companion)) →
    sellCategoryFault t s lines = none
  | [], _ => rfl
  | l :: rest, h => by
    obtain ⟨c, hc, hkind⟩ := h l List.mem_cons_self
    have hsuits : suits c (s.kindOf l.ref) = true := by
      rw [suits, beq_iff_eq, Bool.eq_iff_iff, decide_eq_true_iff]
      exact hkind
    rw [sellCategoryFault, hc]
    exact (if_pos hsuits).trans (sellCategoryFault_eq_none fun k hk => h k (List.mem_cons_of_mem _ hk))

/-- Lines of known items within their allowances are not sold out (Table 6-2, check 9). -/
theorem soldOutLine_eq_none {s : State} {snacks : List SnackLine} (hcode : ∀ l ∈ snacks, 1 ≤ l.item ∧ l.item ≤ 24)
    (hstock : ∀ l ∈ snacks, ∀ x, s.item l.item = some x → x.issued + x.reserved + l.qty ≤ x.allowance) :
    s.soldOutLine snacks = none := by
  refine List.find?_eq_none.mpr fun l hl => ?_
  obtain ⟨x, hx⟩ : ∃ x, s.item l.item = some x := ⟨_, dif_pos (hcode l hl)⟩
  simpa [hx] using hstock l hl x hx

section

variable {t : Tariff} {lines : List SeatLine} {snacks : List SnackLine} {s : State}

/-- Checks 4 to 10 of Table 6-2 passed. -/
theorem siteSellHold_of_checks (hlines : snacks.length ≤ 6) (hunits : (snacks.map (·.qty)).sum ≤ 12) (ht : s.tariff = some t)
    (hcats : sellCategoryFault t s lines = none) (hsales : s.salesFree ≠ 0) (hjournal : s.journalFree ≠ 0)
    (hstock : s.soldOutLine snacks = none) (hroom : s.vouchers.length + s.reservedUnits + (snacks.map (·.qty)).sum ≤ 2048)
    (tag : Tag) (n : Nat) (h : Hold) (ref : Chars 8) : siteSellHold tag n h ref lines snacks s =
      takeSiteSell tag n h ref (pricing t lines snacks s) s := by
  have hlimit : ¬(Config.basketLines < snacks.length ∨ Config.basketUnits < unitsOf snacks) :=
    not_or.mpr ⟨Nat.not_lt.mpr hlines, Nat.not_lt.mpr hunits⟩
  have htable : ¬Config.voucherRecords < s.vouchers.length + s.reservedUnits + unitsOf snacks := Nat.not_lt.mpr hroom
  simp only [siteSellHold, if_neg hlimit, ht, hcats, if_neg hsales, if_neg hjournal, hstock, if_neg htable]

/-- Checks 1 to 3 of Table 6-2 passed. -/
theorem siteSell_of_hold {n : Nat} {cats : List Nat} {h : Hold} {ref : Chars 8} (hfault : siteSellFault n cats snacks = none)
    (hhold : s.siteHold n ref = some h) (hlen : cats.length = h.seats.length) (tag : Tag) :
    siteSell tag n ref cats snacks s = siteSellHold tag n h ref
      (List.zipWith (fun (p : SeatPos) (c : Nat) => (⟨⟨h.slot, p.row, p.num⟩, c⟩ : SeatLine)) h.seats cats) snacks s := by
  simp only [siteSell, hfault, hhold]
  exact if_neg (not_not.mpr hlen)

end

/-! ### The sale made (R114) -/

/-- The record of a remote sale before its vouchers are made (R114 step 1). -/
def State.remoteSale (s : State) (h : Hold) (ref : Chars 8) (m : Summary) : Sale :=
  saleOf s m .remote (some h.slot) none none .notApplicable (some ref)

section

variable (n : Nat) (h : Hold) (ref : Chars 8) (m : Summary) (s : State)

/-- The sale of a site hold entered with its vouchers (R114 steps 1 to 3). -/
def remoteEntered : State := enterSale s.freshSale (s.remoteSale h ref m) m [n] false s

/-- The record of a remote sale with its serials. -/
def remoteSold : Sale :=
  { s.remoteSale h ref m with serials := (saleIssued s.freshSale (s.remoteSale h ref m) m [n] false s).2 }

/-- The SALE record written behind the sale (R114 step 4). -/
def remoteWritten : State :=
  writeFree (some s.freshSale) m.total (saleEntry (remoteSold n h ref m s)) (remoteEntered n h ref m s)

theorem takeSiteSell_eq (tag : Tag) : takeSiteSell tag n h ref m s =
    emit .site (.reply tag .ok [.saleNumber s.freshSale, .serials (remoteSold n h ref m s).serials, .summary m])
      (remoteWritten n h ref m s) := by
  have hsale : (enterSale s.freshSale (saleOf s m .remote (some h.slot) none none .notApplicable (some ref)) m [n] false s).sale
      s.freshSale = some (remoteSold n h ref m s) := sale_enterSale ..
  unfold takeSiteSell
  dsimp only
  rw [hsale]
  rfl

theorem remoteEntered_frame : remoteEntered n h ref m s = { s with
    screenings := (remoteEntered n h ref m s).screenings, holds := (remoteEntered n h ref m s).holds,
    sales := (remoteEntered n h ref m s).sales, nextSale := succWrap Config.maxSaleNumber s.freshSale,
    draws := (remoteEntered n h ref m s).draws, items := (remoteEntered n h ref m s).items,
    vouchers := (remoteEntered n h ref m s).vouchers, nextSerial := (remoteEntered n h ref m s).nextSerial,
    lines := (remoteEntered n h ref m s).lines } := by
  obtain ⟨_, _, hentered⟩ := enterSale_frame s.freshSale (s.remoteSale h ref m) m [n] false s
  unfold remoteEntered
  generalize enterSale _ _ _ _ _ _ = e at hentered ⊢
  rw [hentered]

/-- What a SITE-SELL leaves of the state of its sale entered: the journal and the lines alone differ. -/
theorem takeSiteSell_frame (tag : Tag) : takeSiteSell tag n h ref m s = { remoteEntered n h ref m s with
    journal := s.journal ++ [⟨s.nextSeq, s.timeBase, some s.freshSale, m.total, saleEntry (remoteSold n h ref m s)⟩],
    nextSeq := succWrap Config.maxSequence s.nextSeq,
    journalArmed := (takeSiteSell tag n h ref m s).journalArmed, lines := (takeSiteSell tag n h ref m s).lines } := by
  have hentered := remoteEntered_frame n h ref m s
  rw [takeSiteSell_eq, emit_frame]
  unfold remoteWritten
  rw [writeFree_frame]
  generalize remoteEntered n h ref m s = e at hentered ⊢
  rw [hentered]

/-- Every field that a SITE-SELL can change. -/
theorem takeSiteSell_changes (tag : Tag) : takeSiteSell tag n h ref m s = { s with
    screenings := (takeSiteSell tag n h ref m s).screenings, holds := (takeSiteSell tag n h ref m s).holds,
    sales := (takeSiteSell tag n h ref m s).sales, nextSale := (takeSiteSell tag n h ref m s).nextSale,
    draws := (takeSiteSell tag n h ref m s).draws, items := (takeSiteSell tag n h ref m s).items,
    vouchers := (takeSiteSell tag n h ref m s).vouchers, nextSerial := (takeSiteSell tag n h ref m s).nextSerial,
    journal := s.journal ++ [⟨s.nextSeq, s.timeBase, some s.freshSale, m.total, saleEntry (remoteSold n h ref m s)⟩],
    nextSeq := succWrap Config.maxSequence s.nextSeq,
    journalArmed := (takeSiteSell tag n h ref m s).journalArmed, lines := (takeSiteSell tag n h ref m s).lines } := by
  have hentered := remoteEntered_frame n h ref m s
  have hframe := takeSiteSell_frame n h ref m s tag
  generalize takeSiteSell tag n h ref m s = u at hframe ⊢
  rw [hentered] at hframe
  rw [hframe]

theorem nextSale_takeSiteSell (tag : Tag) :
    (takeSiteSell tag n h ref m s).nextSale = succWrap Config.maxSaleNumber s.freshSale := by
  rw [takeSiteSell_frame, remoteEntered_frame]

theorem tellsSite_remoteWritten : TellsSite s (remoteWritten n h ref m s) :=
  (tellsSite_writeFree ..).after (tellsSite_enterSale ..)

theorem hold_takeSiteSell (tag : Tag) (j : Nat) :
    (takeSiteSell tag n h ref m s).hold j = if j = n then none else s.hold j := by
  rw [takeSiteSell_frame]
  refine (hold_enterSale_eq ..).trans ?_
  simp

variable {n h s}

/-- The seats of the hold are SOLD, and no other seat changes (R14, R44). -/
theorem seat_takeSiteSell (hn : s.hold n = some h) (tag : Tag) (slot : Nat) (q : SeatPos) :
    (takeSiteSell tag n h ref m s).seat slot q =
      if slot = h.slot ∧ q ∈ h.seats then (s.seat slot q).map (Seat.sell s.freshSale) else s.seat slot q := by
  have hlisted : slot = h.slot ∧ q ∈ h.seats ↔ ListedBy s [n] slot q := by simp [ListedBy, hn, eq_comm]
  obtain ⟨sold, kept⟩ := seat_saleEntered s.freshSale (s.remoteSale h ref m) [n] s slot q
  have hseat : (takeSiteSell tag n h ref m s).seat slot q =
      (saleEntered s.freshSale (s.remoteSale h ref m) [n] s).seat slot q := by
    rw [takeSiteSell_frame]; exact seat_enterSale ..
  rw [hseat]
  split
  · next hin => exact sold (hlisted.mp hin)
  · next hout => exact kept (mt hlisted.mpr hout)

end

/-- Settles O46: the checks passed, the sale entered with its vouchers, its record written and the reply behind both. -/
theorem siteSellTaken : Obligations.SiteSellTaken := by
  intro tag n ref cats snacks h t s lines m hn hcats hsnacks hnodup hhold howner href hlen hcount hunits ht hlines hsales hjournal
    hstock hroom hlo hhi
  have hcodes : ∀ l ∈ snacks, 1 ≤ l.item ∧ l.item ≤ 24 := fun l hl =>
    have ⟨hfirst, hlast, _⟩ := hsnacks l hl
    ⟨hfirst, hlast⟩
  have hexec : siteSell tag n ref cats snacks s = takeSiteSell tag n h ref m s :=
    (siteSell_of_hold (siteSellFault_eq_none hn hcats hsnacks hnodup) (siteHold_of_hold hhold howner href) hlen tag).trans
      (siteSellHold_of_checks hcount hunits ht (sellCategoryFault_eq_none hlines) ((salesFree_iff s).mpr hsales)
        ((journalFree_iff s).mpr hjournal) (soldOutLine_eq_none hcodes hstock) hroom tag n h ref)
  have hvalues : (chargedValues m).length = (snacks.map (·.qty)).sum := by
    rw [length_chargedValues, snacks_pricing, List.map_map]; rfl
  have hframe := takeSiteSell_frame n h ref m s tag
  have hmade : VouchersMade s.freshSale (some h.slot) (chargedValues m) (remoteSold n h ref m s).serials s
      (takeSiteSell tag n h ref m s) := by
    rw [hframe]
    exact vouchersMade_enterSale s.freshSale (s.remoteSale h ref m) m [n] false s (by omega)
  have htold := tellsSite_remoteWritten n h ref m s
  have heq := takeSiteSell_eq n h ref m s tag
  refine ⟨takeSiteSell tag n h ref m s, s.freshSale, remoteSold n h ref m s, congrArg Host.Outcome.next hexec,
    (sale_freshSale (by omega) hlo hhi).1, ?_, rfl, rfl, rfl, rfl, rfl, rfl, rfl, rfl, rfl, rfl, rfl, rfl, rfl, rfl, rfl, rfl,
    rfl, rfl, priced_saleSeats s m, fun l hl c hc => label_saleSeats rfl ht hl hc, length_createVouchers .., takeSiteSell_changes ..,
    ?_, fun j hj => ?_, fun j hj => ?_, nextSale_takeSiteSell .., fun q hq y hy => ?_, fun slot q hout => ?_,
    fun v hv => hmade.pending hv, hmade, ?_, fun item i hi => ?_, fun l hl => ?_, fun hup => ?_⟩
  · rw [hframe]; exact sale_enterSale ..
  · rw [hold_takeSiteSell, if_pos rfl]
  · rw [hold_takeSiteSell, if_neg hj]
  · rw [hframe]; exact sale_enterSale_ne _ _ _ _ _ _ hj
  · rw [seat_takeSiteSell ref m hhold, if_pos ⟨rfl, hq⟩, hy]; rfl
  · rw [seat_takeSiteSell ref m hhold, if_neg fun ⟨hslot, hq⟩ => hout.elim (· hslot) (· hq)]
  · rw [hframe, ← hvalues]
    exact length_vouchers_enterSale ..
  · rw [hframe]
    exact (item_enterSale_free ..).trans (by rw [hi]; rfl)
  · rw [heq, line_emit_ne hl, htold.other l hl]
  · rw [heq]
    exact htold.out_emit hup _

end Sys2Proof.Machine
end

section
/-! What REFUND does to seats, vouchers, items, orders and the sale (R117, R118, R178). -/

namespace Sys2Proof.Machine

/-! ### Seats given back (R14, R117) -/

theorem refund_comp_refund : Seat.refund ∘ Seat.refund = Seat.refund := rfl

/-- A reference names the seat at a place of a slot when its slot and its place are those. -/
theorem ref_eq_iff {r : SeatRef} {slot : Nat} {p : SeatPos} : r = ⟨slot, p.row, p.num⟩ ↔ slot = r.slot ∧ p ∈ [refPos r] := by
  obtain ⟨_, _, _⟩ := r
  obtain ⟨_, _⟩ := p
  simp [refPos, eq_comm]

/-- The seats of a sale's seat lines given back. -/
def seatsRefunded (l : List SaleSeat) (s : State) : State :=
  l.foldl (fun s l => mapSeats l.ref.slot [refPos l.ref] Seat.refund s) s

theorem seatsRefunded_frame (l : List SaleSeat) (s : State) :
    seatsRefunded l s = { s with screenings := (seatsRefunded l s).screenings } :=
  (foldl_frame _ (fun s t => { s with screenings := t.screenings }) (fun s (l : SaleSeat) => (mapSeats_frame ..).symm)
    (fun _ => rfl) (by rintro s t u h1 h2; rw [← h2, ← h1]) l s).symm

/-- The seat of a line is given back, and every other seat stays. -/
theorem seat_seatsRefunded (slot : Nat) (p : SeatPos) : ∀ (l : List SaleSeat) (s : State), (seatsRefunded l s).seat slot p =
    if ∃ y ∈ l, y.ref = ⟨slot, p.row, p.num⟩ then (s.seat slot p).map Seat.refund else s.seat slot p
  | [], s => by simp [seatsRefunded]
  | a :: l, s => by
    have hfirst : (mapSeats a.ref.slot [refPos a.ref] Seat.refund s).seat slot p =
        if a.ref = ⟨slot, p.row, p.num⟩ then (s.seat slot p).map Seat.refund else s.seat slot p := by
      simp only [seat_mapSeats pos_refund, ref_eq_iff]
    refine (seat_seatsRefunded slot p l _).trans ?_
    rw [hfirst]
    by_cases ha : a.ref = ⟨slot, p.row, p.num⟩
    · simp [ha, refund_comp_refund]
    · simp [ha]

/-! ### Vouchers voided (R178) -/

/-- A voucher that a refund of its sale voids. -/
def Voucher.voidable (y : Voucher) : Bool :=
  match y.state with
  | .printPending | .issued | .locked => true
  | .redeemed _ _ | .void => false

/-- A voucher after the refund of its sale. -/
def Voucher.refunded (y : Voucher) : Voucher := if y.voidable then { y with state := .void, counted := false } else y

theorem Voucher.voidable_iff (y : Voucher) :
    y.voidable = true ↔ y.state = .printPending ∨ y.state = .issued ∨ y.state = .locked := by
  unfold Voucher.voidable
  cases y.state <;> simp

theorem Voucher.refunded_of_voidable {y : Voucher} (h : y.voidable = true) :
    y.refunded = { y with state := .void, counted := false } := if_pos h

/-- A REDEEMED or VOID voucher stays. -/
theorem Voucher.refunded_of_not {y : Voucher} (h : ¬y.voidable = true) : y.refunded = y := if_neg h

theorem Voucher.voidable_refunded (y : Voucher) : y.refunded.voidable = false := by
  by_cases h : y.voidable = true
  · rw [refunded_of_voidable h]; rfl
  · rw [refunded_of_not h]; simpa using h

theorem Voucher.refunded_refunded (y : Voucher) : y.refunded.refunded = y.refunded :=
  refunded_of_not (by simp [y.voidable_refunded])

theorem State.voidable_eq_any (s : State) (v : Nat) : s.voidable v = (s.voucher v).any Voucher.voidable := by
  unfold State.voidable
  cases s.voucher v <;> rfl

theorem voucher_voidVoucher_eq (a v : Nat) (s : State) : (voidVoucher a s).voucher v =
    if v = a then (s.voucher v).map Voucher.refunded else s.voucher v := by
  split
  · next e =>
    subst e
    rw [voucher_voidVoucher, State.voidable_eq_any]
    cases s.voucher v <;> rfl
  · next e => exact voucher_voidVoucher_ne e s

/-- The vouchers of a sale voided, in the order of their serials. -/
def vouchersVoided (l : List Nat) (s : State) : State := l.foldl (fun s v => voidVoucher v s) s

theorem vouchersVoided_frame (l : List Nat) (s : State) : vouchersVoided l s = { s with
    items := (vouchersVoided l s).items, vouchers := (vouchersVoided l s).vouchers, lines := (vouchersVoided l s).lines } :=
  (foldl_frame _ (fun s t => { s with items := t.items, vouchers := t.vouchers, lines := t.lines })
    (fun s v => (voidVoucher_frame v s).symm) (fun _ => rfl) (by rintro s t u h1 h2; rw [← h2, ← h1]) l s).symm

theorem voucher_vouchersVoided (v : Nat) : ∀ (l : List Nat) (s : State), (vouchersVoided l s).voucher v =
    if v ∈ l then (s.voucher v).map Voucher.refunded else s.voucher v
  | [], _ => rfl
  | a :: l, s => by
    refine (voucher_vouchersVoided v l _).trans ?_
    rw [voucher_voidVoucher_eq]
    by_cases ha : v = a
    · have htwice : Voucher.refunded ∘ Voucher.refunded = Voucher.refunded := funext Voucher.refunded_refunded
      simp [ha, htwice]
    · simp [ha]

/-- Does the serial name a voucher of the item that is voidable and counted? -/
def State.counts (s : State) (item v : Nat) : Bool :=
  (s.voucher v).any (fun y => y.voidable && (y.counted && decide (y.item = item)))

/-- A voucher voided counts no longer, and every other counts as it did. -/
theorem counts_voidVoucher (a item v : Nat) (s : State) :
    (voidVoucher a s).counts item v = (s.counts item v && decide (v ≠ a)) := by
  unfold State.counts
  rw [voucher_voidVoucher_eq]
  by_cases ha : v = a
  · cases s.voucher v <;> simp [ha, Voucher.voidable_refunded]
  · simp [ha]

/-- An item some of whose counted units are voided, its low notice judged after each (R167). -/
def Item.lessIssued (n : Nat) (i : Item) : Item :=
  { i with
    issued := i.issued - n,
    armed := if n = 0 then i.armed else decide (i.lowMark < i.allowance - (i.issued - n) - i.reserved) }

theorem Item.lessIssued_lessIssued (m n : Nat) (i : Item) : (i.lessIssued m).lessIssued n = i.lessIssued (m + n) := by
  unfold Item.lessIssued
  rcases Nat.eq_zero_or_pos n with rfl | hn
  · rfl
  · simp [hn.ne', Nat.sub_sub]

theorem item_voidVoucher_eq (a k : Nat) (s : State) :
    (voidVoucher a s).item k = (s.item k).map (Item.lessIssued (if s.counts k a then 1 else 0)) := by
  have hcounts : s.counts k a = true ↔
      s.voidable a = true ∧ (s.voucher a).any (fun y => y.counted && decide (y.item = k)) = true := by
    rw [State.voidable_eq_any, State.counts]
    cases s.voucher a <;> simp
  rw [item_voidVoucher]
  by_cases h : s.counts k a = true
  · rw [if_pos (hcounts.mp h), if_pos h]; rfl
  · rw [if_neg (mt hcounts.mpr h), if_neg h]
    cases s.item k <;> rfl

/-- Among the distinct members of a list, the head counts once. -/
theorem countP_dedup_cons (p : Nat → Bool) (a : Nat) (l : List Nat) :
    (a :: l).dedup.countP p = (if p a then 1 else 0) + l.dedup.countP (fun v => p v && decide (v ≠ a)) := by
  have hperm : (a :: l).dedup.Perm (a :: l.dedup.filter (fun v => decide (v ≠ a))) := by
    refine (List.perm_ext_iff_of_nodup (List.nodup_dedup _) (List.nodup_cons.mpr ⟨by simp, (List.nodup_dedup l).filter _⟩)).mpr
      fun v => ?_
    by_cases e : v = a <;> simp [e]
  rw [hperm.countP_eq, List.countP_cons, List.countP_filter, Nat.add_comm]

/-- Each item's issued count falls by its vouchers voided that carried the mark (R178). -/
theorem item_vouchersVoided (k : Nat) : ∀ (l : List Nat) (s : State),
    (vouchersVoided l s).item k = (s.item k).map (Item.lessIssued (l.dedup.countP (s.counts k)))
  | [], s => by
    show s.item k = _
    cases s.item k <;> rfl
  | a :: l, s => by
    have hrest : (voidVoucher a s).counts k = fun v => s.counts k v && decide (v ≠ a) := funext fun v => counts_voidVoucher ..
    refine (item_vouchersVoided k l _).trans ?_
    rw [item_voidVoucher_eq, hrest, countP_dedup_cons, Option.map_map]
    exact congrArg (fun f => (s.item k).map f) (funext fun i => i.lessIssued_lessIssued _ _)

theorem tellsSite_voidVoucher (v : Nat) (s : State) : TellsSite s (voidVoucher v s) := by
  have judged (y z : Voucher) : TellsSite s
      (if y.counted then judgeLow y.item (modifyItem y.item (fun x => { x with issued := x.issued - 1 }) (putVoucher v z s))
        else putVoucher v z s) := by
    split
    · exact (tellsSite_judgeLow ..).after (.of_lines (modifyItem_lines ..))
    · exact .of_lines rfl
  unfold voidVoucher
  split
  · exact .refl s
  · split
    · exact .refl s
    · exact .refl s
    all_goals exact judged ..

theorem tellsSite_vouchersVoided (l : List Nat) (s : State) : TellsSite s (vouchersVoided l s) :=
  foldl_preserves (TellsSite s) _ (fun _ _ h => h.trans (tellsSite_voidVoucher ..)) l s (.refl s)

/-! ### The sale and its orders (R118) -/

theorem sale_modifySale (n k : Nat) (f : Sale → Sale) (s : State) :
    (modifySale n f s).sale k = if k = n then (s.sale k).map f else s.sale k := by
  unfold modifySale
  split
  · next x hx =>
    split
    · next e => subst e; rw [sale_putSale, hx]; rfl
    · next e => exact sale_putSale_ne e ..
  · next hx =>
    split
    · next e => subst e; rw [hx]; rfl
    · rfl

theorem sale_removeOrders (n k : Nat) (s : State) : (removeOrders n s).sale k =
    if k = n then (s.sale k).map (fun y => { y with outstanding := y.outstanding - s.unstarted n }) else s.sale k := by
  have hkept (l : List Station) : (l.foldl (removeUnstarted n) s).sale k = s.sale k :=
    foldl_keeps (·.sale k) (removeUnstarted n) (fun _ _ => rfl) l s
  unfold removeOrders
  rw [sale_modifySale, hkept]

end Sys2Proof.Machine
end

section
/-! REFUND past the checks of R116 (R81, R117): O47. -/

namespace Sys2Proof.Machine

/-! ### The state a refund leaves (R117) -/

section

variable (tag : Tag) (n : Nat) (x : Sale) (s : State)

/-- The seats and vouchers of a sale refunded, before its orders are removed (R117 steps 2 and 3). -/
def saleVoided : State := vouchersVoided x.serials (seatsRefunded x.seats s)

theorem saleVoided_frame : saleVoided x s = { s with
    screenings := (seatsRefunded x.seats s).screenings, items := (saleVoided x s).items, vouchers := (saleVoided x s).vouchers,
    lines := (saleVoided x s).lines } := by
  have hvoided := vouchersVoided_frame x.serials (seatsRefunded x.seats s)
  have hseats := seatsRefunded_frame x.seats s
  unfold saleVoided
  generalize vouchersVoided _ _ = v at hvoided ⊢
  generalize seatsRefunded _ _ = e at hvoided hseats ⊢
  rw [hvoided, hseats]

/-- The REFUND record written (R117 step 5). -/
def refundWritten : State :=
  writeFree (some n) (s.refundAmount x) (.refund x.origin (x.serials.countP s.voidable) (x.serials.countP s.isRedeemed))
    (removeOrders n (saleVoided x s))

theorem takeRefund_eq : takeRefund tag n x s =
    emit .site (.reply tag .ok [.refundAmount (s.refundAmount x), .voided (x.serials.countP s.voidable),
        .leftRedeemed (x.serials.countP s.isRedeemed)])
      (modifySale n (fun y => { y with state := .refunded (s.refundAmount x) }) (refundWritten n x s)) := rfl

theorem refundWritten_frame : refundWritten n x s = { saleVoided x s with
    sales := (removeOrders n (saleVoided x s)).sales, lanes := (removeOrders n (saleVoided x s)).lanes,
    journal := s.journal ++ [⟨s.nextSeq, s.timeBase, some n, s.refundAmount x,
      .refund x.origin (x.serials.countP s.voidable) (x.serials.countP s.isRedeemed)⟩],
    nextSeq := succWrap Config.maxSequence s.nextSeq,
    journalArmed := (refundWritten n x s).journalArmed, lines := (refundWritten n x s).lines } := by
  have hvoided := saleVoided_frame x s
  have hremoved := removeOrders_frame n (saleVoided x s)
  unfold refundWritten
  rw [writeFree_frame]
  generalize removeOrders _ _ = r at hremoved ⊢
  generalize saleVoided _ _ = v at hvoided hremoved ⊢
  rw [hremoved, hvoided]

/-- Every field that a REFUND can change. -/
theorem takeRefund_changes : takeRefund tag n x s = { s with
    screenings := (seatsRefunded x.seats s).screenings, sales := (takeRefund tag n x s).sales,
    journal := s.journal ++ [⟨s.nextSeq, s.timeBase, some n, s.refundAmount x,
      .refund x.origin (x.serials.countP s.voidable) (x.serials.countP s.isRedeemed)⟩],
    nextSeq := succWrap Config.maxSequence s.nextSeq, journalArmed := (takeRefund tag n x s).journalArmed,
    lanes := (removeOrders n (saleVoided x s)).lanes, items := (saleVoided x s).items, vouchers := (saleVoided x s).vouchers,
    lines := (takeRefund tag n x s).lines } := by
  have hwritten := refundWritten_frame n x s
  have hvoided := saleVoided_frame x s
  rw [takeRefund_eq, emit_frame, modifySale_frame]
  generalize refundWritten _ _ _ = w at hwritten ⊢
  generalize saleVoided _ _ = v at hwritten hvoided ⊢
  rw [hwritten, hvoided]

theorem tellsSite_refundWritten : TellsSite s (refundWritten n x s) := by
  have hseats : TellsSite s (seatsRefunded x.seats s) := .of_lines (by rw [seatsRefunded_frame])
  have hremoved : TellsSite (saleVoided x s) (removeOrders n (saleVoided x s)) := .of_lines (by rw [removeOrders_frame])
  exact (tellsSite_writeFree ..).after (hremoved.after ((tellsSite_vouchersVoided ..).after hseats))

theorem lane_takeRefund (st : Station) : (takeRefund tag n x s).lane st = { s.lane st with
    queue := (s.lane st).queue.filter (fun o => !(o.isQueued && decide (o.sale = n))) } := by
  rw [takeRefund_changes]
  refine (lane_removeOrders ..).trans ?_
  rw [saleVoided_frame]
  rfl

theorem seat_takeRefund (slot : Nat) (p : SeatPos) : (takeRefund tag n x s).seat slot p =
    if ∃ y ∈ x.seats, y.ref = ⟨slot, p.row, p.num⟩ then (s.seat slot p).map Seat.refund else s.seat slot p := by
  rw [takeRefund_changes]
  exact seat_seatsRefunded slot p x.seats s

theorem voucher_takeRefund (v : Nat) : (takeRefund tag n x s).voucher v =
    if v ∈ x.serials then (s.voucher v).map Voucher.refunded else s.voucher v := by
  rw [takeRefund_changes]
  refine (voucher_vouchersVoided ..).trans ?_
  rw [seatsRefunded_frame]
  rfl

theorem item_takeRefund (k : Nat) : (takeRefund tag n x s).item k =
    (s.item k).map (Item.lessIssued (x.serials.dedup.countP (s.counts k))) := by
  rw [takeRefund_changes]
  refine (item_vouchersVoided ..).trans ?_
  rw [seatsRefunded_frame]
  rfl

theorem sale_takeRefund (k : Nat) : (takeRefund tag n x s).sale k = if k = n then (s.sale k).map (fun y => { y with
    state := .refunded (s.refundAmount x), outstanding := y.outstanding - s.unstarted n }) else s.sale k := by
  have hemit (l : Line) (r : OutRec) (u : State) : (emit l r u).sale k = u.sale k := by rw [emit_frame]; rfl
  have hwritten : (refundWritten n x s).sale k = (removeOrders n (saleVoided x s)).sale k := by rw [refundWritten_frame]; rfl
  have hvoided : (saleVoided x s).sale k = s.sale k := by rw [saleVoided_frame]; rfl
  have hunstarted : (saleVoided x s).unstarted n = s.unstarted n := by rw [saleVoided_frame]; rfl
  rw [takeRefund_eq, hemit, sale_modifySale, hwritten, sale_removeOrders, hvoided, hunstarted]
  split
  · exact Option.map_map ..
  · rfl

end

/-! ### The figures of the reply (R81, R117) -/

section

variable (x : Sale) (s : State)

theorem refundAmount_eq : s.refundAmount x = x.seatPart + (x.serials.map (fun v => match s.voucher v with
    | some y => (match y.state with
      | .redeemed _ _ => 0
      | .printPending | .issued | .void | .locked => y.value)
    | none => 0)).sum := by
  refine congrArg (fun f => x.seatPart + (x.serials.map f).sum) (funext fun v => ?_)
  unfold State.isRedeemed
  cases s.voucher v with
  | none => rfl
  | some y => cases hstate : y.state <;> simp [hstate]

theorem voidable_eq_name : s.voidable = fun v => decide ((s.voucher v).map (fun y => y.state.name) ∈
    [some .printPending, some .issued, some .locked]) := by
  funext v
  unfold State.voidable
  cases s.voucher v with
  | none => rfl
  | some y => cases hstate : y.state <;> simp [hstate, VoucherState.name]

theorem isRedeemed_eq_name : s.isRedeemed = fun v => decide ((s.voucher v).map (fun y => y.state.name) = some .redeemed) := by
  funext v
  unfold State.isRedeemed
  cases s.voucher v with
  | none => rfl
  | some y => cases hstate : y.state <;> simp [hstate, VoucherState.name]

theorem counts_eq (item : Nat) : s.counts item = fun v => match s.voucher v with
    | some y => y.counted && decide (y.item = item) &&
        decide (y.state = .printPending ∨ y.state = .issued ∨ y.state = .locked)
    | none => false := by
  funext v
  unfold State.counts
  cases s.voucher v with
  | none => rfl
  | some y =>
    have hvoidable : y.voidable = decide (y.state = .printPending ∨ y.state = .issued ∨ y.state = .locked) := by
      rw [Bool.eq_iff_iff, y.voidable_iff, decide_eq_true_iff]
    rw [Option.any_some, hvoidable, Bool.and_comm]

end

/-- REFUND past the checks of R116. -/
theorem refund_of_checks {n : Nat} {x : Sale} {s : State} (hn : n ≠ 0) (hx : s.sale n = some x) (hactive : x.state = .active)
    (hcapture : x.capture ≠ .pending) (hjournal : s.journalFree ≠ 0) (tag : Tag) :
    refund tag n s = takeRefund tag n x s := by
  simp only [refund, if_neg hn, hx, hactive, if_neg hcapture, if_neg hjournal]

/-- Settles O47: the checks passed, seats, vouchers, orders and sale in turn, the record written and the reply behind it. -/
theorem refundTaken : Obligations.RefundTaken := by
  intro tag n x s hn hx hactive hcapture hjournal amount voided redeemed unstarted counted
  have hamount : s.refundAmount x = amount := refundAmount_eq x s
  have hvoided : x.serials.countP s.voidable = voided := congrArg (fun p => x.serials.countP p) (voidable_eq_name s)
  have hredeemed : x.serials.countP s.isRedeemed = redeemed := congrArg (fun p => x.serials.countP p) (isRedeemed_eq_name s)
  have hcounted (k : Nat) : x.serials.dedup.countP (s.counts k) = counted k :=
    congrArg (fun p => x.serials.dedup.countP p) (counts_eq s k)
  have hframe := takeRefund_changes tag n x s
  have heq := takeRefund_eq tag n x s
  have htold := tellsSite_refundWritten n x s
  have hlines (f : Sale → Sale) : TellsSite s (modifySale n f (refundWritten n x s)) :=
    htold.trans (.of_lines (by rw [modifySale_frame]))
  have hvoucher := voucher_takeRefund tag n x s
  rw [hamount, hvoided, hredeemed] at hframe heq
  have hexec := refund_of_checks hn hx hactive hcapture ((journalFree_iff s).mpr hjournal) tag
  refine ⟨takeRefund tag n x s, congrArg Host.Outcome.next hexec, ?_, fun k hk => ?_, by rw [hframe],
    lane_takeRefund tag n x s, fun l hl y hy => ?_, fun slot p hout => ?_, fun v hv y hy hstate => ?_,
    fun v hv y till at' hy hstate => ?_, fun v hv y hy hstate => ?_, fun v hv => ?_, fun item i hi => ?_, fun l hl => ?_, fun hup => ?_, ?_⟩
  · rw [sale_takeRefund, if_pos rfl, hx, hamount]; rfl
  · rw [sale_takeRefund, if_neg hk]
  · rw [seat_takeRefund, if_pos ⟨l, hl, rfl⟩, hy]; rfl
  · rw [seat_takeRefund, if_neg fun ⟨l, hl, href⟩ => hout l hl href]
  · rw [hvoucher, if_pos hv, hy, Option.map_some, Voucher.refunded_of_voidable (y.voidable_iff.mpr hstate)]
  · rw [hvoucher, if_pos hv, hy, Option.map_some, Voucher.refunded_of_not (by simp [y.voidable_iff, hstate])]
  · rw [hvoucher, if_pos hv, hy, Option.map_some, Voucher.refunded_of_not (by simp [y.voidable_iff, hstate])]
  · rw [hvoucher, if_neg hv]
  · rw [item_takeRefund, hi, hcounted]; rfl
  · rw [heq, line_emit_ne hl]; exact (hlines _).other l hl
  · rw [heq]; exact (hlines _).out_emit hup _
  · generalize takeRefund tag n x s = t at hframe ⊢
    rw [hframe]
    rfl

end Sys2Proof.Machine
end

section
/-! Requests for the render mover, the choice of a lane, grants, drops at render start and bursts (R131, R133, R134, R137, R153):
O58. -/

namespace Sys2Proof.Machine

/-! ### When a lane requests the mover (R133) -/

theorem Lane.current_isSome_iff (l : Lane) : l.current.isSome = true ↔ ∃ o ∈ l.queue, o.status = .started := by
  simp [Lane.current, Order.isStarted]

theorem Lane.queued_pos_iff (l : Lane) : 0 < l.queued ↔ ∃ o ∈ l.queue, o.status = .queued := by
  simp [Lane.queued, Order.isQueued]

theorem Lane.length_awaiting (l : Lane) : l.awaiting.length = l.queue.countP (fun o => o.status = .awaitingCut) :=
  List.countP_eq_length_filter.symm

/-- A lane WAITING or RUNNING is one that is not SUSPENDED and has a burst in flight or an order (R130). -/
theorem laneState_active_iff (s : State) (st : Station) : s.laneState st = .waiting ∨ s.laneState st = .running ↔
    (s.lane st).suspended = none ∧ (s.bursting st = true ∨ (s.lane st).queue ≠ []) := by
  unfold State.laneState
  cases (s.lane st).suspended <;> cases s.bursting st <;> cases (s.lane st).queue <;> simp

theorem requesting_iff (s : State) (st : Station) : s.requesting st = true ↔
    (s.lane st).suspended = none ∧
      (((∃ o ∈ (s.lane st).queue, o.status = .started) ∧ 0 < (s.lane st).residual) ∨
        ((∃ o ∈ (s.lane st).queue, o.status = .queued) ∧
          (s.lane st).queue.countP (fun o => o.status = .awaitingCut) < 2)) ∧
      (s.lane st).lastLevel < 96 ∧ (s.lane st).settling = none := by
  simp only [State.requesting, Bool.and_eq_true, Bool.or_eq_true, decide_eq_true_eq, laneState_active_iff,
    Lane.current_isSome_iff, Lane.queued_pos_iff, Lane.length_awaiting, Option.isNone_iff_eq_none, Config.bufferLines]
  constructor
  · rintro ⟨⟨⟨⟨hsuspended, -⟩, horders⟩, hlevel⟩, hsettling⟩
    exact ⟨hsuspended, horders, of_decide_eq_true hlevel, hsettling⟩
  · rintro ⟨hsuspended, horders, hlevel, hsettling⟩
    have hne : (s.lane st).queue ≠ [] := by
      obtain ⟨⟨o, ho, -⟩, -⟩ | ⟨⟨o, ho, -⟩, -⟩ := horders <;> exact List.ne_nil_of_mem ho
    exact ⟨⟨⟨⟨hsuspended, .inr hne⟩, horders⟩, decide_eq_true hlevel⟩, hsettling⟩

/-! ### The lane the mover chooses (R137) -/

/-- How far a lane stands behind the last lane granted, in ascending station number; the last lane granted stands farthest. -/
def turnsAfter (last m : Station) : Nat := (m.val + 7 - last.val) % 8

theorem turnsAfter_add (last : Station) (i : Fin 8) : turnsAfter last (last + i + 1) = i.val := by
  revert last i; decide

theorem mem_arbitrationOrder (last m : Station) : m ∈ arbitrationOrder last :=
  List.mem_map.mpr ⟨m - last - 1, List.mem_finRange _, by abel⟩

/-- The lanes stand in the order of arbitration by their distance from the last lane granted. -/
theorem pairwise_arbitrationOrder (last : Station) :
    (arbitrationOrder last).Pairwise (fun a b => turnsAfter last a ≤ turnsAfter last b) := by
  refine List.pairwise_map.mpr ((List.pairwise_lt_finRange 8).imp fun {i j} hij => ?_)
  rw [turnsAfter_add, turnsAfter_add]
  exact Nat.le_of_lt hij

/-- The first that meets `p` in a list in the order of `R` stands before every other that does. -/
theorem find?_le_of_pairwise {α : Type} {R : α → α → Prop} (hrefl : ∀ a, R a a) {p : α → Bool} {l : List α}
    (hl : l.Pairwise R) {c : α} (hc : l.find? p = some c) {m : α} (hm : m ∈ l) (hp : p m = true) : R c m := by
  obtain ⟨-, before, behind, rfl, hbefore⟩ := List.find?_eq_some_iff_append.mp hc
  obtain ⟨-, htail, -⟩ := List.pairwise_append.mp hl
  rcases List.mem_append.mp hm with hm | hm
  · have hnot := hbefore m hm
    rw [hp] at hnot
    cases hnot
  · rcases List.mem_cons.mp hm with rfl | hm
    · exact hrefl _
    · exact List.rel_of_pairwise_cons htail hm

theorem candidate_iff (s : State) (out : Option Station) (m : Station) :
    s.candidate out m = true ↔ s.requesting m = true ∧ out ≠ some m := by simp [State.candidate]

/-- A lane is chosen when one is a candidate. -/
theorem chosenLane_isSome {s : State} {out : Option Station} {m : Station} (hm : s.candidate out m = true) :
    (s.chosenLane out).isSome = true := by
  unfold State.chosenLane
  dsimp only
  split
  · rfl
  · exact List.find?_isSome.mpr ⟨m, mem_arbitrationOrder .., hm⟩

/-- The choice: the nearest urgent candidate, and with no urgent one the nearest candidate. -/
theorem chosenLane_first {s : State} {out : Option Station} {c : Station} (hc : s.chosenLane out = some c) :
    (∀ m, s.candidate out m = true → (s.lane m).urgent = true →
      (s.lane c).urgent = true ∧ turnsAfter s.mover.last c ≤ turnsAfter s.mover.last m) ∧
    ((s.lane c).urgent = false → ∀ m, s.candidate out m = true →
      turnsAfter s.mover.last c ≤ turnsAfter s.mover.last m) := by
  have hnearest {p : Station → Bool} (hfind : (arbitrationOrder s.mover.last).find? p = some c) {m : Station} (hm : p m = true) :
      turnsAfter s.mover.last c ≤ turnsAfter s.mover.last m :=
    find?_le_of_pairwise (R := fun a b => turnsAfter s.mover.last a ≤ turnsAfter s.mover.last b) (fun _ => le_rfl)
      (pairwise_arbitrationOrder _) hfind (mem_arbitrationOrder ..) hm
  unfold State.chosenLane at hc
  dsimp only at hc
  split at hc
  · next d hurgent =>
    cases hc
    have hboth := List.find?_some hurgent
    obtain ⟨-, hc⟩ := Bool.and_eq_true_iff.mp hboth
    refine ⟨fun m hm hu => ⟨hc, hnearest hurgent (Bool.and_eq_true_iff.mpr ⟨hm, hu⟩)⟩, fun hcalm => ?_⟩
    rw [hc] at hcalm
    cases hcalm
  · next hnone =>
    refine ⟨fun m hm hu => ?_, fun _ m hm => hnearest hc hm⟩
    exact absurd (Bool.and_eq_true_iff.mpr ⟨hm, hu⟩) (List.find?_eq_none.mp hnone m (mem_arbitrationOrder ..))

/-! ### The ends of orders (R115, R157) -/

/-- The record PRINT-DONE of a sale. -/
def State.doneRecord (s : State) (n : Nat) (x : Sale) : OutRec :=
  .printDone n x.state.name (match x.state with
    | .active => some (s.printLeft x)
    | .refunded _ => none)

/-- What a station is told when `k` orders of a sale end in its lane: PRINT-DONE when the outstanding count reaches 0. -/
def State.endedTells (s : State) (n k : Nat) : List OutRec :=
  match s.sale n with
  | some x => if 0 < x.outstanding ∧ x.outstanding ≤ k then [s.doneRecord n x] else []
  | none => []

theorem endedTells_of_sale {s : State} {n : Nat} {x : Sale} (hx : s.sale n = some x) (k : Nat) :
    s.endedTells n k = if 0 < x.outstanding ∧ x.outstanding ≤ k then [s.doneRecord n x] else [] := by
  rw [State.endedTells, hx]

section

variable (st : Station) (n k : Nat)

/-- Orders that end, as a sale stored and PRINT-DONE put out. -/
theorem ordersEnded_of_sale {s : State} {x : Sale} (hx : s.sale n = some x) : ordersEnded st n k s =
    if 0 < x.outstanding ∧ x.outstanding ≤ k then
      emit (.station st) (s.doneRecord n x) (putSale n { x with outstanding := x.outstanding - k } s)
    else putSale n { x with outstanding := x.outstanding - k } s := by
  unfold ordersEnded
  rw [hx]
  simp only [Nat.sub_eq_zero_iff_le]
  rfl

theorem ordersEnded_of_none {s : State} (hx : s.sale n = none) : ordersEnded st n k s = s := by
  unfold ordersEnded; rw [hx]

theorem sales_ordersEnded {s : State} {x : Sale} (hx : s.sale n = some x) :
    (ordersEnded st n k s).sales = s.sales.put n { x with outstanding := x.outstanding - k } := by
  rw [ordersEnded_of_sale st n k hx]
  split
  · exact emit_sales ..
  · rfl

theorem sale_ordersEnded (s : State) (m : Nat) : (ordersEnded st n k s).sale m =
    if m = n then (s.sale m).map (fun x => { x with outstanding := x.outstanding - k }) else s.sale m := by
  cases hx : s.sale n with
  | none =>
    rw [ordersEnded_of_none st n k hx]
    split
    · next e => subst e; rw [hx]; rfl
    · rfl
  | some x =>
    have hput : (ordersEnded st n k s).sale m = (putSale n { x with outstanding := x.outstanding - k } s).sale m :=
      congrArg (fun t => Tbl.find t m) (sales_ordersEnded st n k hx)
    rw [hput]
    split
    · next e => subst e; rw [hx, sale_putSale]; rfl
    · next e => exact sale_putSale_ne e ..

theorem line_ordersEnded_ne {l : Line} (h : l ≠ .station st) (s : State) : (ordersEnded st n k s).line l = s.line l := by
  cases hx : s.sale n with
  | none => rw [ordersEnded_of_none st n k hx]
  | some x =>
    rw [ordersEnded_of_sale st n k hx]
    split
    · exact line_emit_ne h ..
    · rfl

theorem line_ordersEnded (s : State) :
    (ordersEnded st n k s).line (.station st) = s.lineWith (.station st) (s.endedTells n k) := by
  cases hx : s.sale n with
  | none => rw [ordersEnded_of_none st n k hx, State.endedTells, hx, lineWith_nil]
  | some x =>
    rw [ordersEnded_of_sale st n k hx, endedTells_of_sale hx]
    split
    · exact line_emit ..
    · exact (lineWith_nil ..).symm

end

/-! ### Orders that leave a queue -/

theorem removeFirst_eq_eraseP (p : Order → Bool) : ∀ l : List Order, removeFirst p l = l.eraseP p
  | [] => rfl
  | o :: t => by
    rw [removeFirst, List.eraseP_cons, removeFirst_eq_eraseP p t]
    cases p o <;> rfl

/-! ### An order judged and dropped or started (R131, R153, R154) -/

section

variable {s : State} {o : Order}

theorem dropReason_of_refunded {x : Sale} {amount : Nat} (hx : s.sale o.sale = some x) (hstate : x.state = .refunded amount) :
    dropReason s o = some none := by simp [dropReason, hx, hstate]

/-- The first check of Table 8-3 passes while the sale of the order is ACTIVE. -/
theorem not_refunded_of_active (hactive : ∀ x, s.sale o.sale = some x → x.state = .active) :
    ((s.sale o.sale).map (fun x => decide (x.state ≠ .active))).getD false = false := by
  cases hx : s.sale o.sale with
  | none => rfl
  | some x => simp [hactive x hx]

theorem dropReason_of_redeemed (hactive : ∀ x, s.sale o.sale = some x → x.state = .active) {v : Nat} (hv : o.item = .stub v)
    (hredeemed : s.isRedeemed v = true) : dropReason s o = some (some .redeemed) := by
  unfold dropReason
  rw [not_refunded_of_active hactive, hv]
  simp [hredeemed]

theorem dropReason_of_unredeemed (hactive : ∀ x, s.sale o.sale = some x → x.state = .active)
    (hunredeemed : ∀ v, o.item = .stub v → s.isRedeemed v = false) :
    dropReason s o = if 3 ≤ s.generationOf o.item then some (some .generation) else none := by
  unfold dropReason
  rw [not_refunded_of_active hactive]
  cases hitem : o.item with
  | ticket r => rfl
  | stub v => simp only [hunredeemed v hitem]; rfl
  | receipt => rfl

end

/-- What the site server is told of an order dropped at render start (Table 8-3). -/
def dropTells (st : Station) (o : Order) (reason : Option LimitReason) : List OutRec :=
  reason.toList.map (fun r => .printLimit o.sale st r [o.item])

/-- An order out of its lane's queue, with the notice of its drop, before its sale's count falls. -/
def dropTold (st : Station) (o : Order) (reason : Option LimitReason) (s : State) : State :=
  (dropTells st o reason).foldl (fun s r => emit .site r s)
    (modifyLane st (fun l => { l with queue := removeFirst Order.isQueued l.queue }) s)

theorem dropAtStart_eq (st : Station) (o : Order) (reason : Option LimitReason) (s : State) :
    dropAtStart st o reason s = ordersEnded st o.sale 1 (dropTold st o reason s) := by cases reason <;> rfl

theorem dropTold_frame (st : Station) (o : Order) (reason : Option LimitReason) (s : State) : dropTold st o reason s = { s with
    lanes := s.lanes.set st { s.lane st with queue := removeFirst Order.isQueued (s.lane st).queue },
    lines := (dropTold st o reason s).lines } := by
  cases reason with
  | none => rfl
  | some r => exact emit_frame ..

theorem line_dropTold_site (st : Station) (o : Order) (reason : Option LimitReason) (s : State) :
    (dropTold st o reason s).line .site = s.lineWith .site (dropTells st o reason) := by
  cases reason with
  | none => exact (lineWith_nil ..).symm
  | some r => exact line_emit ..

section

variable (st : Station) (o : Order) (reason : Option LimitReason) (s : State)

theorem dropAtStart_frame {x : Sale} (hx : s.sale o.sale = some x) : dropAtStart st o reason s = { s with
    lanes := s.lanes.set st { s.lane st with queue := removeFirst Order.isQueued (s.lane st).queue },
    sales := s.sales.put o.sale { x with outstanding := x.outstanding - 1 }, lines := (dropAtStart st o reason s).lines } := by
  have htold := dropTold_frame st o reason s
  have hsales : (dropAtStart st o reason s).sales = s.sales.put o.sale { x with outstanding := x.outstanding - 1 } := by
    have hx' : (dropTold st o reason s).sale o.sale = some x := by rw [htold]; exact hx
    rw [dropAtStart_eq, sales_ordersEnded st o.sale 1 hx', htold]
  rw [dropAtStart_eq] at hsales ⊢
  rw [ordersEnded_frame, hsales]
  generalize dropTold st o reason s = t at htold ⊢
  rw [htold]

theorem line_dropAtStart_site :
    (dropAtStart st o reason s).line .site = s.lineWith .site (dropTells st o reason) := by
  rw [dropAtStart_eq, line_ordersEnded_ne st o.sale 1 (by simp)]
  exact line_dropTold_site ..

theorem lane_dropAtStart : (dropAtStart st o reason s).lane st =
    { s.lane st with queue := removeFirst Order.isQueued (s.lane st).queue } := by
  rw [dropAtStart_eq, ordersEnded_frame]
  exact (congrArg (fun t => State.lane t st) (dropTold_frame st o reason s)).trans (lane_setLane ..)

end

theorem startOrder_eq (st : Station) {o : Order} {s : State} {n : Nat} (hn : s.lineCount o = n) : startOrder st o s =
    setLane st { s.lane st with
      queue := updateFirst Order.isQueued (fun o => { o with status := .started }) (s.lane st).queue, linesSent := 0,
      residual := n, content := (raiseGeneration o s).printed o } (raiseGeneration o s) := by
  subst hn
  have hlane : (raiseGeneration o s).lane st = s.lane st := by rw [raiseGeneration_frame]; rfl
  have hcount : (raiseGeneration o s).lineCount o = s.lineCount o := by rw [raiseGeneration_frame]; rfl
  rw [← hlane, ← hcount]
  rfl

theorem lineCount_eq (s : State) (o : Order) : s.lineCount o = (match o.item with
    | .ticket _ => 320
    | .stub _ => 160
    | .receipt => match s.sale o.sale with
      | some x => 48 + 16 * (x.seats.length + x.snacks.length)
      | none => 48) := by
  unfold State.lineCount
  cases o.item with
  | ticket r => rfl
  | stub v => rfl
  | receipt => cases s.sale o.sale <;> rfl

/-! ### Bursts (R127, R134) -/

/-- Records put out one after the other. -/
theorem foldl_emit (l : Line) : ∀ (rs : List OutRec) (s : State),
    rs.foldl (fun s r => emit l r s) s = if s.isLost l = true then s else setLine l (s.lineWith l rs) s
  | [], s => by
    split
    · rfl
    · rw [lineWith_nil]; simp [setLine, State.line]
  | r :: rs, s => by
    rw [List.foldl_cons, foldl_emit l rs, isLost_emit]
    cases h : s.isLost l with
    | true => simp [emit_of_lost h]
    | false =>
      rw [if_neg Bool.false_ne_true, if_neg Bool.false_ne_true, lineWith_lineWith (line_emit l r s) rs, emit_of_up h]
      simp [setLine]

theorem sendBurst_eq (st : Station) (s : State) : sendBurst st s = setMover
    { burst := some ⟨st, (s.lane st).burstSize, if s.isLost (.printer st) = true then some ⟨s.timeBase, 500⟩ else none⟩,
      last := st }
    (if s.isLost (.printer st) = true then s
      else setLine (.printer st) { s.line (.printer st) with
        out := (s.line (.printer st)).out ++ burstFrames (s.lane st) (s.lane st).burstSize } s) := by
  unfold sendBurst
  dsimp only
  rw [foldl_emit]
  cases h : s.isLost (.printer st) with
  | true => rfl
  | false => rw [if_neg Bool.false_ne_true, lineWith_of_up h]; rfl

/-- Frame `i` of a burst: the lines from `3 * i` on, three of them or what remains (R127). -/
theorem getElem?_burstFrames (l : Lane) {size i : Nat} (hi : i < (size + 2) / 3) : (burstFrames l size)[i]? =
    some (.lines size (3 * i) ((List.range (min 3 (size - 3 * i))).map (fun j => ⟨l.content, l.linesSent + 3 * i + j + 1⟩))) := by
  unfold burstFrames
  rw [List.getElem?_map, List.getElem?_range (show i < (size + Config.frameLines - 1) / Config.frameLines from hi)]
  rfl

/-! ### Grants (R134) -/

section

variable {st : Station} {s : State}

theorem current_eq_none (h : ∀ o ∈ (s.lane st).queue, o.status ≠ .started) : (s.lane st).current = none := by
  rw [← Option.not_isSome_iff_eq_none, Lane.current_isSome_iff]
  exact fun ⟨o, ho, hstatus⟩ => h o ho hstatus

theorem grant_of_started (h : ∃ o ∈ (s.lane st).queue, o.status = .started) : grant st s = (sendBurst st s, true) :=
  if_pos ((Lane.current_isSome_iff _).mpr h)

/-- A grant to a lane without a STARTED order takes its QUEUED orders to their render start. -/
theorem grant_of_not_started (h : ∀ o ∈ (s.lane st).queue, o.status ≠ .started) : grant st s =
    if (startNext st ((s.lane st).queue.length + 1) s).2 then
      (sendBurst st (startNext st ((s.lane st).queue.length + 1) s).1, true)
    else ((startNext st ((s.lane st).queue.length + 1) s).1, false) := by
  unfold grant
  rw [current_eq_none h]
  rfl

theorem grant_of_none_queued (h : ∀ o ∈ (s.lane st).queue, o.status ≠ .started)
    (hnone : ∀ o ∈ (s.lane st).queue, o.status ≠ .queued) : grant st s = (s, false) := by
  have hfind : (s.lane st).queue.find? Order.isQueued = none := by simpa [Order.isQueued] using hnone
  rw [grant_of_not_started h, startNext, hfind]
  rfl

variable {o : Order}

theorem grant_of_start (h : ∀ o ∈ (s.lane st).queue, o.status ≠ .started)
    (hfind : (s.lane st).queue.find? Order.isQueued = some o) (hreason : dropReason s o = none) :
    grant st s = (sendBurst st (startOrder st o s), true) := by
  rw [grant_of_not_started h, startNext, hfind]
  simp only [hreason]
  rfl

/-- A grant that drops an order goes on as a grant to the lane without it. -/
theorem grant_of_drop (h : ∀ o ∈ (s.lane st).queue, o.status ≠ .started)
    (hfind : (s.lane st).queue.find? Order.isQueued = some o) {reason : Option LimitReason}
    (hreason : dropReason s o = some reason) : grant st s = grant st (dropAtStart st o reason s) := by
  have hqueue : ((dropAtStart st o reason s).lane st).queue = (s.lane st).queue.eraseP Order.isQueued := by
    rw [lane_dropAtStart]; exact removeFirst_eq_eraseP ..
  have hlength : ((dropAtStart st o reason s).lane st).queue.length + 1 = (s.lane st).queue.length := by
    have hmem := List.mem_of_find?_eq_some hfind
    have hpos := List.length_pos_of_mem hmem
    rw [hqueue, List.length_eraseP_of_mem hmem (List.find?_some hfind)]
    omega
  have hrest : ∀ w ∈ ((dropAtStart st o reason s).lane st).queue, w.status ≠ .started := by
    rw [hqueue]; exact fun w hw => h w (List.mem_of_mem_eraseP hw)
  have hnext : startNext st ((s.lane st).queue.length + 1) s =
      startNext st (s.lane st).queue.length (dropAtStart st o reason s) := by
    rw [startNext, hfind]
    simp only [hreason]
  rw [grant_of_not_started h, grant_of_not_started hrest, hlength, hnext]

end

/-- Settles O58: the request condition, the choice of a lane, the grant by what stands in the lane's queue, and the burst. -/
theorem arbitrationAndGrant : Obligations.ArbitrationAndGrant := by
  refine ⟨fun st s => requesting_iff s st, fun out s => ⟨fun ⟨m, hm⟩ => ?_, fun c hc => ⟨?_, ?_, ?_⟩⟩,
    fun st s => ⟨?_, fun hidle => ⟨?_, fun o ho => ⟨?_, ?_⟩⟩⟩, fun o s => ⟨?_, ?_⟩,
    fun st o reason x s hx => ⟨?_, ?_⟩, fun st o s => ?_, sendBurst_eq, fun l size => ⟨?_, fun i hi => ?_⟩⟩
  · exact chosenLane_isSome ((candidate_iff ..).mpr hm)
  · exact (candidate_iff ..).mp (candidate_of_chosenLane hc)
  · exact fun m hm => (chosenLane_first hc).1 m ((candidate_iff ..).mpr hm)
  · exact fun hcalm m hm => (chosenLane_first hc).2 hcalm m ((candidate_iff ..).mpr hm)
  · exact grant_of_started
  · exact grant_of_none_queued hidle
  · exact grant_of_start hidle ho
  · exact fun reason => grant_of_drop hidle ho
  · exact fun x amount hx hstate => dropReason_of_refunded hx hstate
  · exact fun hactive => ⟨fun v hv => dropReason_of_redeemed hactive hv, dropReason_of_unredeemed hactive⟩
  · exact dropAtStart_frame st o reason s hx
  · intro hup
    rw [line_dropAtStart_site, lineWith_of_up hup]
    cases reason <;> rfl
  · exact startOrder_eq st (lineCount_eq s o)
  · simp [burstFrames, Config.frameLines]
  · refine ⟨_, getElem?_burstFrames l hi, by simp, fun j hj => ?_⟩
    rw [List.getElem?_map, List.getElem?_range (by simpa using hj)]
    rfl

end Sys2Proof.Machine
end

section
/-! The records of a printer line that end no order, and the settling deadline (R127, R128, R144, R149): O57. -/

namespace Sys2Proof.Machine

section

variable {st : Station} {s : State}

/-- The print channel listens to the printer lines of kiosks and collect points alone (R127). -/
theorem listens_of_role (h : (s.station st).role = .kiosk ∨ (s.station st).role = .collect) : s.listens st = true := by
  unfold State.listens; rcases h with h | h <;> rw [h] <;> rfl

theorem not_listens_of_role (h : (s.station st).role = .off ∨ (s.station st).role = .till) : s.listens st = false := by
  unfold State.listens; rcases h with h | h <;> rw [h] <;> rfl

theorem clearRecord_of_suspended (hlistens : s.listens st = true) (hsuspended : (s.lane st).suspended.isSome = true) :
    clearRecord st s = setLane st { s.lane st with clearFlag := true } s := by
  unfold clearRecord; rw [hlistens, hsuspended]; rfl

theorem clearRecord_of_not_suspended (hsuspended : (s.lane st).suspended = none) : clearRecord st s = s := by
  unfold clearRecord; rw [hsuspended, Option.isSome_none, Bool.and_false]; rfl

theorem levelRecord_of_listens {n : Nat} (hlistens : s.listens st = true) (hsuspended : (s.lane st).suspended = none)
    (hn : n ≤ 96) : levelRecord st n s = laneComes st (setLane st { s.lane st with lastLevel := n } s) := by
  unfold levelRecord
  rw [hlistens, hsuspended, show decide (n ≤ Config.bufferLines) = true from decide_eq_true hn]
  rfl

theorem settlingReached_of_settling (h : (s.lane st).settling.isSome = true) :
    settlingReached st s = laneComes st (setLane st { s.lane st with settling := none } s) := if_pos h

/-! Every record of a printer line that the station's role does not use is discarded (R127). -/

theorem clearRecord_of_deaf (h : s.listens st = false) : clearRecord st s = s := by unfold clearRecord; rw [h]; rfl

theorem cutDoneRecord_of_deaf (h : s.listens st = false) : cutDoneRecord st s = s := by unfold cutDoneRecord; rw [h]; rfl

theorem levelRecord_of_deaf (h : s.listens st = false) (n : Nat) : levelRecord st n s = s := by unfold levelRecord; rw [h]; rfl

theorem acceptRecord_of_deaf (h : s.listens st = false) (k n : Nat) : acceptRecord st k n s = s := by
  unfold acceptRecord
  rw [h]
  cases s.mover.burst <;> rfl

theorem faultRecord_of_deaf (h : s.listens st = false) (kind : PrinterFault) (n : Nat) : faultRecord st kind n s = s := by
  unfold faultRecord; rw [h]; rfl

end

/-- Settles O57: CLEAR by the lane's state, the records of a line that is not listened to, and the records after which the lane
may request. -/
theorem laneRecordsTaken : Obligations.LaneRecordsTaken := by
  refine ⟨fun st s => ⟨fun hrole => ⟨fun hsuspended => ?_, fun hsuspended => ?_⟩, fun hrole => ?_⟩,
    fun st s => ⟨fun n hrole hsuspended hn => ?_, fun hsettling => ?_⟩⟩
  · exact congrArg Host.Outcome.next (clearRecord_of_suspended (listens_of_role hrole) hsuspended)
  · exact congrArg Host.Outcome.next (clearRecord_of_not_suspended hsuspended)
  · have hdeaf := not_listens_of_role hrole
    exact ⟨congrArg Host.Outcome.next (clearRecord_of_deaf hdeaf), congrArg Host.Outcome.next (cutDoneRecord_of_deaf hdeaf),
      fun n => congrArg Host.Outcome.next (levelRecord_of_deaf hdeaf n),
      fun k n => congrArg Host.Outcome.next (acceptRecord_of_deaf hdeaf k n),
      fun kind n => congrArg Host.Outcome.next (faultRecord_of_deaf hdeaf kind n)⟩
  · exact ⟨_, congrArg Host.Outcome.next (levelRecord_of_listens (listens_of_role hrole) hsuspended hn),
      comesToRequest_laneComes ..⟩
  · exact ⟨_, congrArg Host.Outcome.next (settlingReached_of_settling hsettling), comesToRequest_laneComes ..⟩

end Sys2Proof.Machine
end

section
/-! ACCEPT for the burst in flight (R135 to R137): O54. -/

namespace Sys2Proof.Machine

/-! ### What the acceptance leaves before the mover arbitrates -/

section

variable (st : Station) (k lvl : Nat) (s : State)

/-- Lines accepted of an order that goes on (R135). -/
def partAccepted : State := { s with
  mover := { s.mover with burst := none },
  lanes := s.lanes.set st { s.lane st with
    residual := (s.lane st).residual - k, linesSent := (s.lane st).linesSent + k, lastLevel := lvl } }

/-- The last lines of an order accepted, CUT put out and the order awaiting its cut (R136). -/
def wholeAccepted : State :=
  setMover { s.mover with burst := none }
    (emit (.printer st) .cut (setLane st { s.lane st with
      residual := 0, linesSent := 0, lastLevel := lvl, content := none,
      queue := updateFirst Order.isStarted (fun o => { o with status := .awaitingCut }) (s.lane st).queue,
      cut := if (s.lane st).queue.any (fun o => o.status = .awaitingCut) then (s.lane st).cut else some ⟨s.timeBase, 5000⟩ } s))

variable {st k lvl s}

theorem acceptBurst_of_part (h : k < (s.lane st).residual) :
    acceptBurst st k lvl s = arbitrate none 9 (partAccepted st k lvl s) := by
  unfold acceptBurst
  dsimp only
  rw [if_neg (by simp [modifyLane]; omega)]
  rfl

theorem awaiting_isEmpty (l : Lane) : l.awaiting.isEmpty = !l.queue.any (fun o => o.status = .awaitingCut) := by
  rw [Bool.eq_iff_iff]
  simp [Lane.awaiting, Order.isAwaiting]

theorem acceptBurst_of_whole (h : (s.lane st).residual = k) :
    acceptBurst st k lvl s = arbitrate (some st) 9 (wholeAccepted st lvl s) := by
  unfold acceptBurst
  dsimp only
  rw [if_pos (by simp [modifyLane, h])]
  unfold endBurst orderDone wholeAccepted
  simp only [modifyLane, lane_setLane, awaiting_isEmpty, h, Nat.sub_self, emit_mover, setLane_mover]
  cases (s.lane st).queue.any (fun o => o.status = .awaitingCut) <;> simp [setLane, deadlineIn, Config.cutDeadline]

theorem acceptRecord_of_burst {b : Burst} (hlistens : s.listens st = true) (hburst : s.mover.burst = some b) (hlane : b.lane = st)
    (hk : k ≤ b.size) (hlvl : lvl ≤ 96) : acceptRecord st k lvl s = acceptBurst st k lvl s := by
  simp [acceptRecord, hburst, hlistens, hlane, hk, Config.bufferLines, hlvl]

end

/-! ### The arbitration that follows (R137) -/

section

variable {out : Option Station} {u : State}

theorem arbitrate_of_none (h : u.chosenLane out = none) (fuel : Nat) : arbitrate out fuel u = u := by
  cases fuel with
  | zero => rfl
  | succ fuel => rw [arbitrate, h]

theorem arbitrate_of_chosen {c : Station} (h : u.chosenLane out = some c) (fuel : Nat) : arbitrate out (fuel + 1) u =
    if (grant c u).2 then (grant c u).1 else arbitrate out fuel (grant c u).1 := by
  rw [arbitrate, h]

theorem chosenLane_eq_none (h : ∀ m, u.candidate out m = false) : u.chosenLane out = none := by
  cases hc : u.chosenLane out with
  | none => rfl
  | some c => exact absurd (candidate_of_chosenLane hc) (by simp [h c])

end

/-- The request of a lane hangs on its own fields alone (R133). -/
theorem requesting_of_lane {s u : State} {m : Station} (h : u.lane m = s.lane m) : u.requesting m = s.requesting m := by
  rw [Bool.eq_iff_iff, requesting_iff, requesting_iff, h]

theorem requesting_of_full {s : State} {m : Station} (h : 96 ≤ (s.lane m).lastLevel) : s.requesting m = false := by
  rw [← Bool.not_eq_true, requesting_iff]
  rintro ⟨-, -, hlevel, -⟩
  omega

section

variable {st : Station} {k lvl : Nat} {s : State}

theorem lane_partAccepted : (partAccepted st k lvl s).lane st = { s.lane st with
    residual := (s.lane st).residual - k, linesSent := (s.lane st).linesSent + k, lastLevel := lvl } :=
  (lane_of_set rfl).1

theorem lane_partAccepted_ne {m : Station} (h : m ≠ st) : (partAccepted st k lvl s).lane m = s.lane m := (lane_of_set rfl).2 m h

theorem lane_wholeAccepted_ne {m : Station} (h : m ≠ st) : (wholeAccepted st lvl s).lane m = s.lane m := by
  unfold wholeAccepted
  rw [emit_frame]
  exact lane_setLane_ne h ..

/-- After a full buffer reported, an arbitration that no other lane takes part in chooses none (R133). -/
theorem chosenLane_partAccepted_full (hothers : ∀ m, m ≠ st → s.requesting m = false) :
    (partAccepted st k 96 s).chosenLane none = none := by
  refine chosenLane_eq_none fun m => ?_
  have hcalm : (partAccepted st k 96 s).requesting m = false := by
    by_cases e : m = st
    · subst e
      exact requesting_of_full (by rw [lane_partAccepted])
    · rw [requesting_of_lane (lane_partAccepted_ne e), hothers m e]
  rw [State.candidate, hcalm, Bool.false_and]

/-- After the last line of an order, an arbitration that no other lane takes part in chooses none (R136; log 25). -/
theorem chosenLane_wholeAccepted (hothers : ∀ m, m ≠ st → s.requesting m = false) :
    (wholeAccepted st lvl s).chosenLane (some st) = none := by
  refine chosenLane_eq_none fun m => ?_
  by_cases e : m = st
  · subst e; simp [State.candidate]
  · rw [State.candidate, requesting_of_lane (lane_wholeAccepted_ne e), hothers m e, Bool.false_and]

end

/-- Settles O54: the lines accepted, in part or to the last, and then the arbitration by the lane it chooses. -/
theorem acceptTaken : Obligations.AcceptTaken := by
  intro st k b s hrole hburst hlane hk l partly whole
  have hpart {lvl : Nat} (hlvl : lvl ≤ 96) (h : k < l.residual) :
      exec (.accept st k lvl) s = .next (arbitrate none 9 (partly lvl)) :=
    congrArg Host.Outcome.next
      ((acceptRecord_of_burst (listens_of_role hrole) hburst hlane hk hlvl).trans (acceptBurst_of_part h))
  have hwhole {lvl : Nat} (hlvl : lvl ≤ 96) (h : l.residual = k) :
      exec (.accept st k lvl) s = .next (arbitrate (some st) 9 (whole lvl)) :=
    congrArg Host.Outcome.next
      ((acceptRecord_of_burst (listens_of_role hrole) hburst hlane hk hlvl).trans (acceptBurst_of_whole h))
  refine ⟨fun lvl hlvl u out hcase => ?_, fun h lvl hlvl => ?_, fun hothers => ⟨fun h => ?_, fun h lvl hlvl => ?_⟩⟩
  · have hexec : exec (.accept st k lvl) s = .next (arbitrate out 9 u) := by
      rcases hcase with ⟨h, rfl, rfl⟩ | ⟨h, rfl, rfl⟩
      · exact hpart hlvl h
      · exact hwhole hlvl h
    rw [hexec]
    refine ⟨fun hnone => by rw [arbitrate_of_none hnone], fun c hc => ?_⟩
    rw [arbitrate_of_chosen hc]
    exact ⟨fun hsent => by rw [if_pos hsent], fun hsent => by rw [hsent]; rfl⟩
  · exact ⟨_, hwhole hlvl h, lane_arbitrate_out ..⟩
  · rw [hpart le_rfl h]
    exact congrArg Host.Outcome.next (arbitrate_of_none (chosenLane_partAccepted_full hothers) 9)
  · rw [hwhole hlvl h]
    exact congrArg Host.Outcome.next (arbitrate_of_none (chosenLane_wholeAccepted hothers) 9)

end Sys2Proof.Machine
end

section
/-! What the ends of orders do to seats and vouchers: the source of an order completed or made uncertain (R155, R156). -/

namespace Sys2Proof.Machine

/-- The source of an order changed while its sale is ACTIVE: its seat by `f`, its voucher by `g`. -/
def changeSource (f : Seat → Seat) (g : Voucher → Voucher) (o : Order) (s : State) : State :=
  if s.saleActive o.sale then
    match o.item with
    | .ticket r => mapSeats r.slot [refPos r] f s
    | .stub v => modifyVoucher v g s
    | .receipt => s
  else s

theorem completeSource_eq (o : Order) (s : State) : completeSource o s = changeSource Seat.complete Voucher.complete o s := by
  unfold completeSource changeSource
  cases o.item <;> rfl

theorem unsureSource_eq (o : Order) (s : State) : unsureSource o s = changeSource Seat.unsure Voucher.unsure o s := by
  unfold unsureSource changeSource
  cases o.item <;> rfl

theorem saleActive_iff (s : State) (n : Nat) : s.saleActive n = true ↔ ∃ x, s.sale n = some x ∧ x.state = .active := by
  unfold State.saleActive
  cases s.sale n <;> simp

theorem voucher_modifyVoucher (n k : Nat) (g : Voucher → Voucher) (s : State) :
    (modifyVoucher n g s).voucher k = if k = n then (s.voucher k).map g else s.voucher k := by
  unfold modifyVoucher
  split
  · next v hv =>
    split
    · next e => subst e; rw [voucher_putVoucher, hv]; rfl
    · next e => exact voucher_putVoucher_ne e ..
  · next hv =>
    split
    · next e => subst e; rw [hv]; rfl
    · rfl

section

variable {f : Seat → Seat} {g : Voucher → Voucher}

theorem changeSource_frame (f : Seat → Seat) (g : Voucher → Voucher) (o : Order) (s : State) : changeSource f g o s = { s with
    screenings := (changeSource f g o s).screenings, vouchers := (changeSource f g o s).vouchers } := by
  unfold changeSource
  split
  · cases o.item with
    | ticket r => dsimp only; rw [mapSeats_frame]
    | stub v => dsimp only; rw [modifyVoucher_frame]
    | receipt => rfl
  · rfl

/-- An order whose source is not to change. -/
theorem changeSource_of_idle {o : Order} {s : State} (h : s.saleActive o.sale = false ∨ o.item = .receipt) :
    changeSource f g o s = s := by
  unfold changeSource
  rcases h with h | h
  · rw [h]; rfl
  · rw [h]; exact ite_self s

/-- Is the order one of an ACTIVE sale that prints the item? -/
def State.sourcedBy (s : State) (item : OrderItem) (o : Order) : Bool := s.saleActive o.sale && decide (o.item = item)

theorem sourcedBy_changeSource (o : Order) (s : State) : (changeSource f g o s).sourcedBy = s.sourcedBy := by
  rw [changeSource_frame]; rfl

theorem seat_changeSource (hf : ∀ x, (f x).pos = x.pos) (o : Order) (s : State) (slot : Nat) (p : SeatPos) :
    (changeSource f g o s).seat slot p =
      if s.sourcedBy (.ticket ⟨slot, p.row, p.num⟩) o then (s.seat slot p).map f else s.seat slot p := by
  unfold changeSource State.sourcedBy
  cases s.saleActive o.sale with
  | false => rfl
  | true =>
    cases o.item with
    | ticket r => simp [seat_mapSeats hf, ref_eq_iff]
    | stub v =>
      simp only [if_true, reduceCtorEq, decide_false, Bool.and_false, Bool.false_eq_true, if_false]
      rw [modifyVoucher_frame]
      rfl
    | receipt => rfl

theorem voucher_changeSource (o : Order) (s : State) (serial : Nat) : (changeSource f g o s).voucher serial =
    if s.sourcedBy (.stub serial) o then (s.voucher serial).map g else s.voucher serial := by
  unfold changeSource State.sourcedBy
  cases s.saleActive o.sale with
  | false => rfl
  | true =>
    cases o.item with
    | ticket r =>
      simp only [if_true, reduceCtorEq, decide_false, Bool.and_false, Bool.false_eq_true, if_false]
      rw [mapSeats_frame]
      rfl
    | stub v => simp [voucher_modifyVoucher, eq_comm]
    | receipt => rfl

/-- A change that, once made, changes no more, made for each order of a list: what it leaves of a field that it changes by `f`
where `hit` says so. -/
theorem foldl_changes_once {α : Type} {op : State → Order → State} {field : State → Option α} {hit : State → Order → Bool}
    {f : α → α} (hf : ∀ x, f (f x) = f x) (hop : ∀ s o, field (op s o) = if hit s o then (field s).map f else field s)
    (hhit : ∀ s o, hit (op s o) = hit s) : ∀ (l : List Order) (s : State),
    field (l.foldl op s) = if l.any (hit s) then (field s).map f else field s
  | [], _ => rfl
  | o :: l, s => by
    rw [List.foldl_cons, foldl_changes_once hf hop hhit l, hop, hhit, List.any_cons]
    have htwice : ((field s).map f).map f = (field s).map f := by
      rw [Option.map_map]; exact congrArg (fun h => (field s).map h) (funext hf)
    cases hit s o with
    | false => rfl
    | true => simp [htwice]

end

/-! ### Sources completed and made uncertain -/

section

variable {y : Seat} {v : Voucher}

theorem Seat.complete_of_sold {n : Nat} (h : y.state = .sold n) : y.complete = { y with state := .issued n } := by
  unfold Seat.complete; rw [h]

theorem Seat.complete_of_not_sold (h : ∀ n, y.state ≠ .sold n) : y.complete = y := by
  unfold Seat.complete
  split
  · next n hn => exact absurd hn (h n)
  all_goals rfl

theorem Seat.unsure_of_issued {n : Nat} (h : y.state = .issued n) : y.unsure = { y with state := .sold n } := by
  unfold Seat.unsure; rw [h]

theorem Seat.unsure_of_not_issued (h : ∀ n, y.state ≠ .issued n) : y.unsure = y := by
  unfold Seat.unsure
  split
  · next n hn => exact absurd hn (h n)
  all_goals rfl

theorem Seat.unsure_unsure (y : Seat) : y.unsure.unsure = y.unsure := by
  refine Seat.unsure_of_not_issued fun n => ?_
  unfold Seat.unsure
  split
  · simp
  all_goals next h => simp [h]

theorem Voucher.complete_of_unread (h : v.state = .printPending ∨ v.state = .issued) :
    v.complete = { v with state := .issued } := by
  unfold Voucher.complete; rcases h with h | h <;> rw [h]

theorem Voucher.complete_of_other (hpending : v.state ≠ .printPending) (hissued : v.state ≠ .issued) : v.complete = v := by
  unfold Voucher.complete
  split
  · next h => exact absurd h hpending
  · next h => exact absurd h hissued
  all_goals rfl

theorem Voucher.unsure_of_issued (h : v.state = .issued) : v.unsure = { v with state := .printPending } := by
  unfold Voucher.unsure; rw [h]

theorem Voucher.unsure_of_not_issued (h : v.state ≠ .issued) : v.unsure = v := by
  unfold Voucher.unsure
  split
  · next hissued => exact absurd hissued h
  all_goals rfl

theorem Voucher.unsure_unsure (v : Voucher) : v.unsure.unsure = v.unsure := by
  refine Voucher.unsure_of_not_issued ?_
  unfold Voucher.unsure
  split
  · simp
  all_goals next h => simp [h]

end

end Sys2Proof.Machine
end

section
/-! CUT-DONE (R139, R155, R157): O55. -/

namespace Sys2Proof.Machine

/-! ### What PRINT-DONE counts (R157) -/

theorem printLeft_eq (s : State) (x : Sale) : s.printLeft x =
    (x.seats.countP (fun l => match s.seat l.ref.slot ⟨l.ref.row, l.ref.num⟩ with
        | some y => (match y.state with
          | .issued _ => false
          | .free | .pending _ | .held _ | .sold _ | .blocked => true)
        | none => true),
      x.serials.countP (fun v => decide ((s.voucher v).map (·.state) = some .printPending))) := by
  have hseat (l : SaleSeat) : ((s.seatOf l.ref).map (fun y => !y.isIssued)).getD true =
      match s.seat l.ref.slot ⟨l.ref.row, l.ref.num⟩ with
      | some y => (match y.state with
        | .issued _ => false
        | .free | .pending _ | .held _ | .sold _ | .blocked => true)
      | none => true := by
    change ((s.seat l.ref.slot ⟨l.ref.row, l.ref.num⟩).map (fun y => !y.isIssued)).getD true = _
    cases s.seat l.ref.slot ⟨l.ref.row, l.ref.num⟩ with
    | none => rfl
    | some y => unfold Seat.isIssued; cases hstate : y.state <;> simp [hstate]
  have hvoucher (v : Nat) : ((s.voucher v).map (fun y => decide (y.state = .printPending))).getD false =
      decide ((s.voucher v).map (·.state) = some .printPending) := by
    cases s.voucher v <;> simp
  exact Prod.ext (congrArg (fun p => x.seats.countP p) (funext hseat)) (congrArg (fun p => x.serials.countP p) (funext hvoucher))

/-- PRINT-DONE by the state of the sale (R157). -/
theorem doneRecord_eq (s : State) (n : Nat) (x : Sale) : s.doneRecord n x = match x.state with
    | .active => .printDone n .active (some
        (x.seats.countP (fun l => match s.seat l.ref.slot ⟨l.ref.row, l.ref.num⟩ with
            | some y => (match y.state with
              | .issued _ => false
              | .free | .pending _ | .held _ | .sold _ | .blocked => true)
            | none => true),
         x.serials.countP (fun v => decide ((s.voucher v).map (·.state) = some .printPending))))
    | .refunded _ => .printDone n .refunded none := by
  unfold State.doneRecord
  rw [printLeft_eq]
  cases x.state <;> rfl

/-! ### An order whose cut is done -/

section

variable (st : Station) (o : Order) (s : State)

/-- The oldest order that awaits its cut out of its lane's queue, the cut deadline set for the next (R139). -/
def orderCut : State := setLane st { s.lane st with
  queue := removeFirst Order.isAwaiting (s.lane st).queue,
  cut := if (removeFirst Order.isAwaiting (s.lane st).queue).any (fun o => o.status = .awaitingCut) then some ⟨s.timeBase, 5000⟩
    else none } s

/-- The order completed with its source, before its sale's count falls. -/
def cutCompleted : State := completeSource o (orderCut st s)

/-- What CUT-DONE leaves before the lane may request the mover. -/
def cutEnded : State := ordersEnded st o.sale 1 (cutCompleted st o s)

theorem cutReported_eq : cutReported st o s = laneComes st (cutEnded st o s) := rfl

theorem cutCompleted_frame : cutCompleted st o s = { orderCut st s with
    screenings := (cutCompleted st o s).screenings, vouchers := (cutCompleted st o s).vouchers } := completeSource_frame ..

theorem sameBesidePrinting_cutEnded : SameBesidePrinting s (cutEnded st o s) := by
  have hcut : SameBesidePrinting s (orderCut st s) := rfl
  have hcompleted : SameBesidePrinting s (cutCompleted st o s) := hcut.trans (sameBesidePrinting_completeSource ..)
  exact hcompleted.trans (sameBesidePrinting_ordersEnded ..)

theorem cutEnded_stores : (cutEnded st o s).screenings = (cutCompleted st o s).screenings ∧
    (cutEnded st o s).vouchers = (cutCompleted st o s).vouchers := by
  unfold cutEnded
  rw [ordersEnded_frame]
  exact ⟨rfl, rfl⟩

theorem seat_cutEnded (slot : Nat) (p : SeatPos) : (cutEnded st o s).seat slot p =
    if s.sourcedBy (.ticket ⟨slot, p.row, p.num⟩) o then (s.seat slot p).map Seat.complete else s.seat slot p := by
  obtain ⟨hscreenings, -⟩ := cutEnded_stores st o s
  have hseat : (cutEnded st o s).seat slot p = (cutCompleted st o s).seat slot p := by
    unfold State.seat State.screening; rw [hscreenings]
  rw [hseat, cutCompleted, completeSource_eq, seat_changeSource pos_complete]
  rfl

theorem voucher_cutEnded (serial : Nat) : (cutEnded st o s).voucher serial =
    if s.sourcedBy (.stub serial) o then (s.voucher serial).map Voucher.complete else s.voucher serial := by
  obtain ⟨-, hvouchers⟩ := cutEnded_stores st o s
  have hvoucher : (cutEnded st o s).voucher serial = (cutCompleted st o s).voucher serial := by
    unfold State.voucher; rw [hvouchers]
  rw [hvoucher, cutCompleted, completeSource_eq, voucher_changeSource]
  rfl

theorem line_cutCompleted (l : Line) : (cutCompleted st o s).line l = s.line l := by rw [cutCompleted_frame]; rfl

theorem line_cutEnded_ne {l : Line} (h : l ≠ .station st) : (cutEnded st o s).line l = s.line l :=
  (line_ordersEnded_ne st o.sale 1 h _).trans (line_cutCompleted ..)

/-- A source that is not to change, of a receipt or of a sale that is not ACTIVE (R155). -/
theorem cutEnded_stores_of_idle (h : s.saleActive o.sale = false ∨ o.item = .receipt) :
    (cutEnded st o s).screenings = s.screenings ∧ (cutEnded st o s).vouchers = s.vouchers := by
  have hidle : cutCompleted st o s = orderCut st s := by
    rw [cutCompleted, completeSource_eq]; exact changeSource_of_idle h
  obtain ⟨hscreenings, hvouchers⟩ := cutEnded_stores st o s
  rw [hscreenings, hvouchers, hidle]
  exact ⟨rfl, rfl⟩

section

variable {o s} {x : Sale} (hx : s.sale o.sale = some x)

include hx

theorem sale_cutCompleted : (cutCompleted st o s).sale o.sale = some x := by rw [cutCompleted_frame]; exact hx

theorem cutEnded_frame : cutEnded st o s = { orderCut st s with
    screenings := (cutEnded st o s).screenings, vouchers := (cutEnded st o s).vouchers,
    sales := s.sales.put o.sale { x with outstanding := x.outstanding - 1 }, lines := (cutEnded st o s).lines } := by
  obtain ⟨hscreenings, hvouchers⟩ := cutEnded_stores st o s
  have hframe := cutCompleted_frame st o s
  have hsales : (cutEnded st o s).sales = s.sales.put o.sale { x with outstanding := x.outstanding - 1 } := by
    rw [cutEnded, sales_ordersEnded st o.sale 1 (sale_cutCompleted st hx), hframe]; rfl
  rw [hscreenings, hvouchers, ← hsales]
  unfold cutEnded
  rw [ordersEnded_frame]
  generalize cutCompleted st o s = w at hframe ⊢
  rw [hframe]

theorem line_cutEnded : (cutEnded st o s).line (.station st) =
    s.lineWith (.station st) (if x.outstanding = 1 then [(cutEnded st o s).doneRecord o.sale x] else []) := by
  have hdone : (cutEnded st o s).doneRecord o.sale x = (cutCompleted st o s).doneRecord o.sale x := by
    unfold cutEnded
    rw [ordersEnded_frame]
    rfl
  have hlast : (0 < x.outstanding ∧ x.outstanding ≤ 1) ↔ x.outstanding = 1 := by omega
  rw [hdone, ← lineWith_congr (line_cutCompleted st o s (.station st))]
  simp only [← hlast]
  rw [← endedTells_of_sale (sale_cutCompleted st hx)]
  exact line_ordersEnded ..

end

end

/-- CUT-DONE of a lane that has an order awaiting its cut. -/
theorem cutDoneRecord_of_awaiting {st : Station} {o : Order} {s : State} (hlistens : s.listens st = true)
    (hsuspended : (s.lane st).suspended = none) (hsettling : (s.lane st).settling = none)
    (ho : (s.lane st).queue.find? Order.isAwaiting = some o) : cutDoneRecord st s = laneComes st (cutEnded st o s) := by
  simp only [cutDoneRecord, hlistens, hsuspended, hsettling, Option.isNone_none, Bool.and_self, if_true, ho]
  exact cutReported_eq ..

theorem sourcedBy_of_active {s : State} {o : Order} {x : Sale} {item : OrderItem} (hx : s.sale o.sale = some x)
    (hactive : x.state = .active) (hitem : o.item = item) : s.sourcedBy item o = true := by
  simp [State.sourcedBy, hitem, (saleActive_iff ..).mpr ⟨x, hx, hactive⟩]

theorem sourcedBy_of_ne {s : State} {o : Order} {item : OrderItem} (hitem : o.item ≠ item) : s.sourcedBy item o = false := by
  simp [State.sourcedBy, hitem]

/-- A record that a change does not reach, whether or not the change is made. -/
theorem map_or_self {α : Type} {c : Prop} [Decidable c] {f : α → α} {y : α} (h : f y = y) {o : Option α} (ho : o = some y) :
    (if c then o.map f else o) = some y := by
  subst ho; simp [h]

/-- Settles O55: the order leaves its queue, its source and sale are completed, and then the lane may request. -/
theorem cutDoneTaken : Obligations.CutDoneTaken := by
  intro st o x s hrole hsuspended hsettling ho hx q cut
  have hseat := seat_cutEnded st o s
  have hvoucher := voucher_cutEnded st o s
  have hrecord := cutDoneRecord_of_awaiting (listens_of_role hrole) hsuspended hsettling ho
  have hbeside : SameBesidePrinting s (cutDoneRecord st s) :=
    hrecord ▸ (sameBesidePrinting_cutEnded st o s).trans (sameBesidePrinting_laneComes ..)
  refine ⟨cutEnded st o s, cutDoneRecord st s, rfl, hrecord ▸ comesToRequest_laneComes .., hbeside, cutEnded_frame st hx,
    fun hidle => ?_, fun serial v hitem hv => ⟨fun hactive hstate => ?_, fun hpending hissued => ?_⟩,
    fun r y hitem hy => ⟨fun n hactive hstate => ?_, fun hstate => ?_⟩, fun serial hitem => ?_, fun slot p hitem => ?_,
    fun l hl => line_cutEnded_ne st o s hl, fun hup => ?_⟩
  · refine cutEnded_stores_of_idle st o s (hidle.imp (fun hstate => ?_) id)
    rw [← Bool.not_eq_true, saleActive_iff]
    rintro ⟨y, hy, hactive⟩
    rw [hx] at hy
    cases hy
    exact hstate hactive
  · rw [hvoucher, if_pos (sourcedBy_of_active hx hactive hitem), hv, Option.map_some, Voucher.complete_of_unread hstate]
  · rw [hvoucher]; exact map_or_self (Voucher.complete_of_other hpending hissued) hv
  · rw [hseat, if_pos (sourcedBy_of_active hx hactive hitem), hy, Option.map_some, Seat.complete_of_sold hstate]
  · rw [hseat]; exact map_or_self (Seat.complete_of_not_sold hstate) hy
  · rw [hvoucher, sourcedBy_of_ne hitem]; rfl
  · rw [hseat, sourcedBy_of_ne hitem]; rfl
  · rw [line_cutEnded st hx, lineWith_of_up hup]
    exact congrArg (fun r => (s.line (.station st)).out ++ (if x.outstanding = 1 then [r] else [])) (doneRecord_eq ..)

end Sys2Proof.Machine
end

section
/-! Faults of a lane (R138, R140 to R142, R156): O56. -/

namespace Sys2Proof.Machine

/-! ### The orders in flight made uncertain (R141, R156) -/

/-- Is an order in flight: STARTED or awaiting its cut? -/
def Order.inFlight (o : Order) : Bool := o.isAwaiting || o.isStarted

theorem Order.inFlight_iff (o : Order) : o.inFlight = true ↔ o.status = .awaitingCut ∨ o.status = .started := by
  simp [Order.inFlight, Order.isAwaiting, Order.isStarted]

/-- The sources of orders made uncertain one after the other. -/
def sourcesUnsure (l : List Order) (s : State) : State := l.foldl (fun s o => unsureSource o s) s

theorem sourcesUnsure_frame (l : List Order) (s : State) : sourcesUnsure l s = { s with
    screenings := (sourcesUnsure l s).screenings, vouchers := (sourcesUnsure l s).vouchers } :=
  (foldl_frame _ (fun s t => { s with screenings := t.screenings, vouchers := t.vouchers })
    (fun s o => (unsureSource_frame o s).symm) (fun _ => rfl) (by rintro s t u h1 h2; rw [← h2, ← h1]) l s).symm

theorem seat_sourcesUnsure (l : List Order) (s : State) (slot : Nat) (p : SeatPos) : (sourcesUnsure l s).seat slot p =
    if l.any (s.sourcedBy (.ticket ⟨slot, p.row, p.num⟩)) then (s.seat slot p).map Seat.unsure else s.seat slot p :=
  foldl_changes_once (field := fun s => s.seat slot p) (hit := fun s => s.sourcedBy (.ticket ⟨slot, p.row, p.num⟩))
    Seat.unsure_unsure (fun s o => by rw [unsureSource_eq]; exact seat_changeSource pos_unsure ..)
    (fun s o => by rw [unsureSource_eq, sourcedBy_changeSource]) l s

theorem voucher_sourcesUnsure (l : List Order) (s : State) (serial : Nat) : (sourcesUnsure l s).voucher serial =
    if l.any (s.sourcedBy (.stub serial)) then (s.voucher serial).map Voucher.unsure else s.voucher serial :=
  foldl_changes_once (field := fun s => s.voucher serial) (hit := fun s => s.sourcedBy (.stub serial))
    Voucher.unsure_unsure (fun s o => by rw [unsureSource_eq]; exact voucher_changeSource ..)
    (fun s o => by rw [unsureSource_eq, sourcedBy_changeSource]) l s

/-! ### A fault of a lane that is not SUSPENDED (R141) -/

/-- A lane stopped by a fault of kind `k`. -/
def Lane.stopped (l : Lane) (k : FaultKind) : Lane := { l with
  queue := l.queue.map (fun o => if o.status = .awaitingCut ∨ o.status = .started then { o with status := .uncertain } else o),
  linesSent := 0, residual := 0, content := none, cut := none, suspended := some k, clearFlag := decide (k = .noAnswer) }

section

variable (st : Station) (k : FaultKind) (s : State)

/-- The lane stopped, with the sources of its orders in flight. -/
def laneStopped : State :=
  sourcesUnsure ((s.lane st).queue.filter Order.inFlight) (setLane st ((s.lane st).stopped k) s)

/-- The station told of the fault (R141). -/
def faultTold : State :=
  emit (.station st) (.printFault k
      (((s.lane st).stopped k).queue.countP (fun o => o.status = .uncertain))
      (((s.lane st).stopped k).queue.countP (fun o => o.status = .queued))) (laneStopped st k s)

theorem laneStopped_frame : laneStopped st k s = { s with
    screenings := (laneStopped st k s).screenings, vouchers := (laneStopped st k s).vouchers,
    lanes := s.lanes.set st ((s.lane st).stopped k) } :=
  sourcesUnsure_frame ((s.lane st).queue.filter Order.inFlight) (setLane st ((s.lane st).stopped k) s)

theorem lane_laneStopped : (laneStopped st k s).lane st = (s.lane st).stopped k :=
  (congrArg (fun t => State.lane t st) (laneStopped_frame st k s)).trans (lane_setLane ..)

theorem lane_faultTold : (faultTold st k s).lane st = (s.lane st).stopped k := by
  rw [← lane_laneStopped]
  exact congrArg (fun v => v[st]) (emit_lanes ..)

theorem mover_faultTold : (faultTold st k s).mover = s.mover := by
  rw [faultTold, emit_mover, laneStopped_frame]

theorem suspendLane_eq : suspendLane st k s =
    if s.bursting st then endBurst none (faultTold st k s) else faultTold st k s := by
  have hlane : modifyLane st (fun l => { l with
      queue := l.queue.map (fun o => if o.isAwaiting || o.isStarted then { o with status := .uncertain } else o),
      linesSent := 0, residual := 0, content := none, cut := none, suspended := some k, clearFlag := k.leavesClear }) s =
      setLane st ((s.lane st).stopped k) s := by
    simp [modifyLane, Lane.stopped, Order.isAwaiting, Order.isStarted, FaultKind.leavesClear]
  have htold : printFault st k (laneStopped st k s) = faultTold st k s := by
    unfold printFault
    rw [lane_laneStopped]
    rfl
  rw [← htold]
  unfold suspendLane
  rw [hlane]
  rfl

theorem faultTold_frame : faultTold st k s = emit (.station st) (.printFault k
      (((s.lane st).stopped k).queue.countP (fun o => o.status = .uncertain))
      (((s.lane st).stopped k).queue.countP (fun o => o.status = .queued)))
    { s with
      screenings := (faultTold st k s).screenings, vouchers := (faultTold st k s).vouchers,
      lanes := s.lanes.set st ((s.lane st).stopped k) } := by
  have hscreenings : (faultTold st k s).screenings = (laneStopped st k s).screenings := emit_screenings ..
  have hvouchers : (faultTold st k s).vouchers = (laneStopped st k s).vouchers := emit_vouchers ..
  rw [hscreenings, hvouchers, ← laneStopped_frame]
  rfl

/-- Is an order in flight in the lane that prints the item for an ACTIVE sale? -/
def State.flies (item : OrderItem) : Bool := ((s.lane st).queue.filter Order.inFlight).any (s.sourcedBy item)

theorem seat_faultTold (slot : Nat) (p : SeatPos) : (faultTold st k s).seat slot p =
    if s.flies st (.ticket ⟨slot, p.row, p.num⟩) then (s.seat slot p).map Seat.unsure else s.seat slot p := by
  have hseat : (faultTold st k s).seat slot p = (laneStopped st k s).seat slot p := by
    unfold faultTold; rw [emit_frame]; rfl
  exact hseat.trans (seat_sourcesUnsure ..)

theorem voucher_faultTold (serial : Nat) : (faultTold st k s).voucher serial =
    if s.flies st (.stub serial) then (s.voucher serial).map Voucher.unsure else s.voucher serial := by
  have hvoucher : (faultTold st k s).voucher serial = (laneStopped st k s).voucher serial := by
    unfold faultTold; rw [emit_frame]; rfl
  exact hvoucher.trans (voucher_sourcesUnsure ..)

variable {st s}

theorem flies_iff {item : OrderItem} : s.flies st item = true ↔ ∃ o, (o ∈ (s.lane st).queue ∧
    (o.status = .awaitingCut ∨ o.status = .started) ∧ ∃ x, s.sale o.sale = some x ∧ x.state = .active) ∧ o.item = item := by
  simp [State.flies, State.sourcedBy, saleActive_iff, Order.inFlight_iff, and_assoc]

theorem suspendLane_of_other (h : ∀ b, s.mover.burst = some b → b.lane ≠ st) : suspendLane st k s = faultTold st k s := by
  rw [suspendLane_eq, State.bursting]
  cases hb : s.mover.burst with
  | none => rfl
  | some b => simp [h b hb]

theorem suspendLane_of_burst {b : Burst} (hb : s.mover.burst = some b) (hlane : b.lane = st) : suspendLane st k s =
    arbitrate none 9 { faultTold st k s with mover := { s.mover with burst := none } } := by
  have hbursting : s.bursting st = true := by simp [State.bursting, hb, hlane]
  rw [suspendLane_eq, if_pos hbursting, ← mover_faultTold st k s]
  rfl

theorem lane_suspendLane : (suspendLane st k s).lane st = (s.lane st).stopped k := by
  rw [suspendLane_eq]
  split
  · have hstopped : (setMover { (faultTold st k s).mover with burst := none } (faultTold st k s)).lane st =
        (s.lane st).stopped k := lane_faultTold st k s
    exact (lane_arbitrate_of_suspended 9 _ (by rw [hstopped]; rfl)).trans hstopped
  · exact lane_faultTold ..

/-- A fault of a lane that is not SUSPENDED, with all it leaves. -/
theorem faultTaken_suspendLane : FaultTaken st k s (suspendLane st k s) := by
  have hseat := seat_faultTold st k s
  have hvoucher := voucher_faultTold st k s
  refine ⟨lane_suspendLane k, sameBesidePrinting_suspendLane st k s, faultTold st k s, faultTold_frame st k s,
    fun slot p y hy => ⟨fun n o hstate ho hitem => ?_, fun hother => ?_⟩,
    fun serial v hv => ⟨fun o hstate ho hitem => ?_, fun hother => ?_⟩,
    suspendLane_of_other k, fun b hb hlane => suspendLane_of_burst k hb hlane⟩
  · rw [hseat, if_pos (flies_iff.mpr ⟨o, ho, hitem⟩), hy, Option.map_some, Seat.unsure_of_issued hstate]
  · rw [hseat]
    rcases hother with hstate | hnone
    · exact map_or_self (Seat.unsure_of_not_issued hstate) hy
    · rw [if_neg fun hflies => ?_, hy]
      obtain ⟨o, ho, hitem⟩ := flies_iff.mp hflies
      exact hnone o ho hitem
  · rw [hvoucher, if_pos (flies_iff.mpr ⟨o, ho, hitem⟩), hv, Option.map_some, Voucher.unsure_of_issued hstate]
  · rw [hvoucher]
    rcases hother with hstate | hnone
    · exact map_or_self (Voucher.unsure_of_not_issued hstate) hv
    · rw [if_neg fun hflies => ?_, hv]
      obtain ⟨o, ho, hitem⟩ := flies_iff.mp hflies
      exact hnone o ho hitem

end

/-! ### A fault of a lane already SUSPENDED (R142) -/

theorem suppresses_iff (k : FaultKind) :
    k.suppresses = true ↔ k = .jam ∨ k = .markMissed ∨ k = .lineLost ∨ k = .noAnswer := by cases k <;> decide

theorem not_suppresses_iff (k : FaultKind) : k.suppresses = false ↔ k = .paperOut ∨ k = .headOpen := by cases k <;> decide

/-- The kind kept is the one held where that suppresses and the new one requeues, and else the new one. -/
theorem refault_eq (st : Station) (held k : FaultKind) (s : State) :
    let kept := if (held = .jam ∨ held = .markMissed ∨ held = .lineLost ∨ held = .noAnswer) ∧ (k = .paperOut ∨ k = .headOpen)
      then held else k
    refault st held k s = emit (.station st) (.printFault kept
        ((s.lane st).queue.countP (fun o => o.status = .uncertain)) ((s.lane st).queue.countP (fun o => o.status = .queued)))
      (setLane st { s.lane st with suspended := some kept, clearFlag := decide (k = .noAnswer) } s) := by
  intro kept
  have hkept : (if held.suppresses && !k.suppresses then held else k) = kept := by
    simp only [kept, ← suppresses_iff, ← not_suppresses_iff, Bool.and_eq_true, Bool.not_eq_true']
  unfold refault printFault
  simp only [hkept, modifyLane, lane_setLane]
  rfl

theorem laneFault_of_unsuspended {st : Station} {s : State} (h : (s.lane st).suspended = none) (k : FaultKind) :
    laneFault st k s = suspendLane st k s := by rw [laneFault, h]

theorem laneFault_of_suspended {st : Station} {s : State} {held : FaultKind} (h : (s.lane st).suspended = some held)
    (k : FaultKind) : laneFault st k s = refault st held k s := by rw [laneFault, h]

/-! ### The three causes of a fault (R128, R138, R140) -/

theorem faultRecord_of_listens {st : Station} {s : State} (h : s.listens st = true) (kind : PrinterFault) (n : Nat) :
    faultRecord st kind n s = laneFault st (faultKindOf kind) s := if_pos h

theorem cutDeadlineReached_of_cut {st : Station} {s : State} (h : (s.lane st).cut.isSome = true) :
    cutDeadlineReached st s = laneFault st .noAnswer s := if_pos h

theorem burstDeadlineReached_of_burst {b : Burst} {s : State} (hb : s.mover.burst = some b) (h : b.deadline.isSome = true) :
    burstDeadlineReached s = laneFault b.lane .noAnswer s := by
  rw [burstDeadlineReached, hb]; exact if_pos h

/-- Settles O56: each cause is a fault of the lane, taken by whether the lane is SUSPENDED already. -/
theorem faultSuspends : Obligations.FaultSuspends := by
  constructor
  · intro st s hsuspended
    have htaken (k : FaultKind) : FaultTaken st k s (laneFault st k s) := by
      rw [laneFault_of_unsuspended hsuspended]; exact faultTaken_suspendLane k
    refine ⟨fun kind n hrole => ?_, fun hcut => ?_, fun b hb hlane hdeadline => ?_⟩
    · exact ⟨_, congrArg Host.Outcome.next (faultRecord_of_listens (listens_of_role hrole) kind n), htaken _⟩
    · exact ⟨_, congrArg Host.Outcome.next (cutDeadlineReached_of_cut hcut), htaken _⟩
    · subst hlane
      exact ⟨_, congrArg Host.Outcome.next (burstDeadlineReached_of_burst hb hdeadline), htaken _⟩
  · intro st held s hsuspended kept again
    have hagain (k : FaultKind) : laneFault st k s = again k :=
      (laneFault_of_suspended hsuspended k).trans (refault_eq st held k s)
    refine ⟨fun kind n hrole => congrArg Host.Outcome.next ?_, fun hcut => congrArg Host.Outcome.next ?_⟩
    · exact (faultRecord_of_listens (listens_of_role hrole) kind n).trans (hagain _)
    · exact (cutDeadlineReached_of_cut hcut).trans (hagain _)

end Sys2Proof.Machine
end

section
/-! RESUME-PRINT of a lane whose clear flag is set (R115, R145 to R147, R157, R158): O53. -/

namespace Sys2Proof.Machine

/-! ### The sales of a list of orders (log 26) -/

theorem mem_salesOf {n : Nat} : ∀ {l : List Order}, n ∈ salesOf l ↔ ∃ o ∈ l, o.sale = n
  | [] => by simp [salesOf]
  | o :: t => by
    have ih := mem_salesOf (n := n) (l := t)
    by_cases e : n = o.sale
    · simp [salesOf, e]
    · simp [salesOf, e, ih, Ne.symm e]

theorem nodup_salesOf : ∀ l : List Order, (salesOf l).Nodup
  | [] => List.nodup_nil
  | o :: t => List.nodup_cons.mpr ⟨by simp, (nodup_salesOf t).filter _⟩

/-! ### What a station is told at the end of orders (R157) -/

/-- What PRINT-DONE says hangs on the sale's record, the seats and the vouchers alone. -/
theorem endedTells_congr {s u : State} {n : Nat} (hsale : u.sale n = s.sale n) (hscreenings : u.screenings = s.screenings)
    (hvouchers : u.vouchers = s.vouchers) (k : Nat) : u.endedTells n k = s.endedTells n k := by
  unfold State.endedTells State.doneRecord State.printLeft State.seatOf State.seat State.screening State.voucher
  rw [hsale, hscreenings, hvouchers]

theorem endedTells_eq (s : State) (n k : Nat) : s.endedTells n k = match s.sale n with
    | some x =>
      if 0 < x.outstanding ∧ x.outstanding ≤ k then
        [match x.state with
          | .active => .printDone n .active (some
              (x.seats.countP (fun l => match s.seat l.ref.slot ⟨l.ref.row, l.ref.num⟩ with
                  | some y => (match y.state with
                    | .issued _ => false
                    | .free | .pending _ | .held _ | .sold _ | .blocked => true)
                  | none => true),
               x.serials.countP (fun v => decide ((s.voucher v).map (·.state) = some .printPending))))
          | .refunded _ => .printDone n .refunded none]
      else []
    | none => [] := by
  cases hx : s.sale n with
  | none => rw [State.endedTells, hx]
  | some x =>
    exact (endedTells_of_sale hx k).trans
      (congrArg (fun r => if 0 < x.outstanding ∧ x.outstanding ≤ k then [r] else []) (doneRecord_eq s n x))

/-- Records put out leave those that wait in front. -/
theorem out_lineWith (s : State) (l : Line) (rs : List OutRec) : ∃ behind, (s.lineWith l rs).out = (s.line l).out ++ behind := by
  cases h : s.isLost l with
  | true => exact ⟨[], by rw [lineWith_of_lost h, List.append_nil]⟩
  | false => exact ⟨rs, by rw [lineWith_of_up h]⟩

/-! ### Orders dropped by chain suppression, sale by sale (R147, R158) -/

section

variable (st : Station) (dropped : List Order)

/-- How many of the orders dropped are of a sale. -/
def droppedOf (n : Nat) : Nat := dropped.countP (fun o => o.sale = n)

/-- PRINT-LIMIT for the orders dropped of a sale. -/
def limitRecord (n : Nat) : OutRec :=
  .printLimit n st .suppressed ((dropped.filter (fun o => o.sale = n)).map (·.item))

theorem suppressSale_eq (s : State) (n : Nat) : suppressSale st dropped s n =
    ordersEnded st n (droppedOf dropped n) (emit .site (limitRecord st dropped n) s) := by
  unfold suppressSale droppedOf
  rw [List.countP_eq_length_filter]
  rfl

theorem suppressSale_frame (s : State) (n : Nat) : suppressSale st dropped s n = { s with
    sales := (suppressSale st dropped s n).sales, lines := (suppressSale st dropped s n).lines } := by
  rw [suppressSale_eq, ordersEnded_frame, emit_frame]

theorem sale_suppressSale (s : State) (n m : Nat) : (suppressSale st dropped s n).sale m =
    if m = n then (s.sale m).map (fun x => { x with outstanding := x.outstanding - droppedOf dropped n }) else s.sale m := by
  have hemit : (emit .site (limitRecord st dropped n) s).sale m = s.sale m := by rw [emit_frame]; rfl
  rw [suppressSale_eq, sale_ordersEnded, hemit]

theorem line_suppressSale_site (s : State) (n : Nat) :
    (suppressSale st dropped s n).line .site = s.lineWith .site [limitRecord st dropped n] := by
  rw [suppressSale_eq, line_ordersEnded_ne st n _ (by simp)]
  exact line_emit ..

theorem line_suppressSale_station (s : State) (n : Nat) : (suppressSale st dropped s n).line (.station st) =
    s.lineWith (.station st) (s.endedTells n (droppedOf dropped n)) := by
  have hemit : (emit .site (limitRecord st dropped n) s).endedTells n (droppedOf dropped n) =
      s.endedTells n (droppedOf dropped n) :=
    endedTells_congr (by rw [emit_frame]; rfl) (emit_screenings ..) (emit_vouchers ..) _
  rw [suppressSale_eq, line_ordersEnded, hemit]
  exact lineWith_congr (line_emit_ne (by simp) ..) _

theorem line_suppressSale_ne {l : Line} (hsite : l ≠ .site) (hstation : l ≠ .station st) (s : State) (n : Nat) :
    (suppressSale st dropped s n).line l = s.line l := by
  rw [suppressSale_eq, line_ordersEnded_ne st n _ hstation]
  exact line_emit_ne hsite ..

theorem suppressSales_frame (ns : List Nat) (s : State) : ns.foldl (suppressSale st dropped) s = { s with
    sales := (ns.foldl (suppressSale st dropped) s).sales, lines := (ns.foldl (suppressSale st dropped) s).lines } :=
  (foldl_frame _ (fun s t => { s with sales := t.sales, lines := t.lines })
    (fun s n => (suppressSale_frame st dropped s n).symm) (fun _ => rfl) (by rintro s t u h1 h2; rw [← h2, ← h1]) ns s).symm

/-- Each sale of the list falls by its orders dropped (R115). -/
theorem sale_suppressSales (m : Nat) : ∀ (ns : List Nat) (s : State), ns.Nodup →
    (ns.foldl (suppressSale st dropped) s).sale m =
      if m ∈ ns then (s.sale m).map (fun x => { x with outstanding := x.outstanding - droppedOf dropped m }) else s.sale m
  | [], _, _ => rfl
  | n :: ns, s, hnodup => by
    obtain ⟨hn, hns⟩ := List.nodup_cons.mp hnodup
    rw [List.foldl_cons, sale_suppressSales m ns _ hns, sale_suppressSale]
    by_cases e : m = n
    · subst e; simp [hn]
    · simp [e]

theorem line_suppressSales_site : ∀ (ns : List Nat) (s : State),
    (ns.foldl (suppressSale st dropped) s).line .site = s.lineWith .site (ns.map (limitRecord st dropped))
  | [], _ => (lineWith_nil ..).symm
  | n :: ns, s =>
    (line_suppressSales_site ns _).trans (lineWith_lineWith (line_suppressSale_site st dropped s n) _)

theorem line_suppressSales_station : ∀ (ns : List Nat) (s : State), ns.Nodup →
    (ns.foldl (suppressSale st dropped) s).line (.station st) =
      s.lineWith (.station st) (ns.flatMap (fun n => s.endedTells n (droppedOf dropped n)))
  | [], _, _ => (lineWith_nil ..).symm
  | n :: ns, s, hnodup => by
    obtain ⟨hn, hns⟩ := List.nodup_cons.mp hnodup
    have hframe := suppressSale_frame st dropped s n
    have hrest : ns.flatMap (fun m => (suppressSale st dropped s n).endedTells m (droppedOf dropped m)) =
        ns.flatMap (fun m => s.endedTells m (droppedOf dropped m)) := by
      refine List.flatMap_congr fun m hm => endedTells_congr ?_ (by rw [hframe]) (by rw [hframe]) _
      rw [sale_suppressSale, if_neg (by rintro rfl; exact hn hm)]
    rw [List.foldl_cons, line_suppressSales_station ns _ hns, hrest]
    exact lineWith_lineWith (line_suppressSale_station st dropped s n) _

theorem line_suppressSales_ne {l : Line} (hsite : l ≠ .site) (hstation : l ≠ .station st) (ns : List Nat) (s : State) :
    (ns.foldl (suppressSale st dropped) s).line l = s.line l :=
  foldl_keeps (·.line l) _ (line_suppressSale_ne st dropped hsite hstation) ns s

end

/-! ### The lane resumed (R145 to R147) -/

/-- A sale that no order dropped is of falls by none. -/
theorem droppedOf_eq_zero {dropped : List Order} {n : Nat} (h : n ∉ salesOf dropped) : droppedOf dropped n = 0 := by
  rw [droppedOf, List.countP_eq_zero]
  exact fun o ho hsale => h (mem_salesOf.mpr ⟨o, ho, of_decide_eq_true hsale⟩)

theorem requeueUncertain_eq (q : List Order) : requeueUncertain q =
    q.map (fun o => if o.status = .uncertain then { o with status := .queued, reprint := true } else o) := by
  simp [requeueUncertain, Order.isUncertain]

section

variable {st : Station} {k : FaultKind} {s : State}

theorem resumeLane_of_requeue (h : k.suppresses = false) :
    resumeLane st k s = setLane st ((s.lane st).resumed (requeueUncertain (s.lane st).queue)) s := by
  unfold resumeLane; rw [h]; rfl

/-- The orders of a lane that a chain suppression drops (R147). -/
def Lane.suppressedOrders (l : Lane) : List Order := l.queue.filter (suppressed l.queue)

theorem resumeLane_of_suppress (h : k.suppresses = true) : resumeLane st k s =
    (salesOf (s.lane st).suppressedOrders).foldl (suppressSale st (s.lane st).suppressedOrders)
      (setLane st ((s.lane st).resumed ((s.lane st).queue.filter (fun o => !suppressed (s.lane st).queue o))) s) := by
  unfold resumeLane; rw [h]; rfl

theorem sale_resumeLane (h : k.suppresses = true) (n : Nat) : (resumeLane st k s).sale n = (s.sale n).map (fun x =>
    { x with outstanding := x.outstanding - droppedOf (s.lane st).suppressedOrders n }) := by
  rw [resumeLane_of_suppress h, sale_suppressSales _ _ _ _ _ (nodup_salesOf _)]
  split
  · rfl
  · next hn =>
    rw [droppedOf_eq_zero hn]
    exact (Option.map_id' ..).symm

theorem stationOf_val (st : Station) : stationOf st.val = some st := dif_pos st.isLt

/-- RESUME-PRINT past its checks, from either sender. -/
theorem resumePrint_of_clear {sender : ResumeSender} {link : Line}
    (hsender : (sender = .site st.val ∧ link = .site) ∨
      (sender = .station st ∧ link = .station st ∧ s.takes st .resumePrint = true))
    (hsuspended : (s.lane st).suspended = some k) (hclear : (s.lane st).clearFlag = true) (tag : Tag) :
    resumePrint sender tag s = emit link (.reply tag .ok [.requeued (resumeCounts k (s.lane st).queue).1,
      .dropped (resumeCounts k (s.lane st).queue).2]) (laneComes st (resumeLane st k s)) := by
  have hwith (answer : Code → List Val → State → State) : resumeWith answer st s =
      answer .ok [.requeued (resumeCounts k (s.lane st).queue).1, .dropped (resumeCounts k (s.lane st).queue).2]
        (laneComes st (resumeLane st k s)) := by
    rw [resumeWith, hsuspended]; exact if_pos hclear
  rcases hsender with ⟨rfl, rfl⟩ | ⟨rfl, rfl, htakes⟩
  · rw [resumePrint, stationOf_val]; exact hwith _
  · rw [resumePrint, stationRequest_of_takes htakes]; exact hwith _

end

/-- Settles O53: the lane resumed by the fault kind it was SUSPENDED under, and then the lane may request before the reply. -/
theorem resumePrintTaken : Obligations.ResumePrintTaken := by
  intro st tag k s hsuspended hclear q clean gone dropped count limits done told sender link hsender
  have hexec : exec (.resumePrint sender tag) s = _ :=
    congrArg Host.Outcome.next (resumePrint_of_clear hsender hsuspended hclear tag)
  refine ⟨fun hk => ?_, fun hk => ?_⟩
  · have hrequeue := (not_suppresses_iff k).mpr hk
    rw [resumeLane_of_requeue hrequeue, resumeCounts, hrequeue, requeueUncertain_eq] at hexec
    exact ⟨_, comesToRequest_laneComes .., hexec⟩
  · have hsuppress := (suppresses_iff k).mpr hk
    rw [resumeCounts, hsuppress] at hexec
    have hstation : (resumeLane st k s).line (.station st) = told (.station st) done := by
      rw [resumeLane_of_suppress hsuppress, line_suppressSales_station _ _ _ _ (nodup_salesOf _)]
      refine congrArg (s.lineWith (.station st)) (congrArg (fun f => (salesOf dropped).flatMap f) (funext fun n => ?_))
      exact endedTells_eq s n (count n)
    refine ⟨resumeLane st k s, laneComes st (resumeLane st k s), comesToRequest_laneComes .., ?_,
      sale_resumeLane hsuppress, ?_, hstation, fun l hsite hother => ?_, hexec, ?_⟩
    · rw [resumeLane_of_suppress hsuppress]
      exact suppressSales_frame ..
    · rw [resumeLane_of_suppress hsuppress]
      exact line_suppressSales_site ..
    · rw [resumeLane_of_suppress hsuppress]
      exact line_suppressSales_ne _ _ hsite hother ..
    · obtain ⟨front, hfront⟩ := out_lineWith s (.station st) done
      obtain ⟨behind, hbehind⟩ := (printedOn_laneComes st (resumeLane st k s)).station st
      refine ⟨front ++ behind, ?_⟩
      rw [hbehind, hstation, ← List.append_assoc, ← hfront]
      rfl

end Sys2Proof.Machine
end

section
/-! What the start of an order does to its source (R154, R171): O59. -/

namespace Sys2Proof.Machine

theorem modifyVoucher_of_voucher {n : Nat} {v : Voucher} {s : State} (hv : s.voucher n = some v) (f : Voucher → Voucher) :
    modifyVoucher n f s = putVoucher n (f v) s := by rw [modifyVoucher, hv]

/-! ### The generation step of a started order, by its item (R154) -/

section

variable {o : Order}

theorem raiseGeneration_of_stub {n : Nat} (ho : o.item = .stub n) (s : State) : raiseGeneration o s =
    modifyVoucher n (fun v => { v with gen := v.gen + 1, code := checkCode n v.item (v.gen + 1) s.seed }) s := by
  rw [raiseGeneration, ho]

theorem raiseGeneration_of_ticket {r : SeatRef} (ho : o.item = .ticket r) (s : State) : raiseGeneration o s =
    mapSeats r.slot [refPos r] (fun x => { x with gen := x.gen + 1 }) s := by rw [raiseGeneration, ho]

theorem raiseGeneration_of_receipt (ho : o.item = .receipt) (s : State) : raiseGeneration o s = s := by
  rw [raiseGeneration, ho]

/-- The seat of a started ticket is at the next generation. -/
theorem seat_raiseGeneration_of_ticket {r : SeatRef} (ho : o.item = .ticket r) (s : State) :
    (raiseGeneration o s).seat r.slot (refPos r) =
      (s.seat r.slot (refPos r)).map (fun x => { x with gen := x.gen + 1 }) := by
  rw [raiseGeneration_of_ticket ho, seat_mapSeats (f := fun x => { x with gen := x.gen + 1 }) (fun _ => rfl)]
  exact if_pos ⟨rfl, List.mem_singleton_self _⟩

end

/-- Settles O59: by the item of the order, each with its generation step. -/
theorem renderStartRaisesGeneration : Obligations.RenderStartRaisesGeneration := by
  intro o s
  refine ⟨fun serial v ho hv => ?_, fun r ho x hx => ?_, fun ho => raiseGeneration_of_receipt ho s⟩
  · exact (raiseGeneration_of_stub ho s).trans (modifyVoucher_of_voucher hv _)
  · exact (seat_raiseGeneration_of_ticket ho s).trans (congrArg (Option.map _) hx)

end Sys2Proof.Machine
end

section
/-! REPRINT and COLLECT past their checks (R132, R159 to R162): O52. -/

namespace Sys2Proof.Machine

/-! ### Orders of a sale queued (R132) -/

theorem modifySale_of_sale {n : Nat} {x : Sale} {s : State} (hx : s.sale n = some x) (f : Sale → Sale) :
    modifySale n f s = putSale n (f x) s := by rw [modifySale, hx]

/-- Orders of the sale `n` put at the tail of a lane's queue, and counted among what its record `x` has outstanding. -/
def ordersQueued (st : Station) (n : Nat) (x : Sale) (os : List Order) (s : State) : State := { s with
  sales := s.sales.put n { x with outstanding := x.outstanding + os.length },
  lanes := s.lanes.set st { s.lane st with queue := (s.lane st).queue ++ os } }

theorem sameBesidePrinting_ordersQueued (st : Station) (n : Nat) (x : Sale) (os : List Order) (s : State) :
    SameBesidePrinting s (ordersQueued st n x os s) := rfl

/-- What a REPRINT or a COLLECT queues is its orders counted and put at the tail. -/
theorem appendOrders_modifySale {n : Nat} {x : Sale} {s : State} (hx : s.sale n = some x) (st : Station) (os : List Order) :
    appendOrders st os (modifySale n (fun y => { y with outstanding := y.outstanding + os.length }) s) =
      ordersQueued st n x os s := by
  rw [modifySale_of_sale hx]
  rfl

/-- Orders that fit a lane with its orders and its reserved room find room (R129). -/
theorem Lane.le_room {l : Lane} {k : Nat} (h : l.queue.length + l.reservedRoom + k ≤ 32) : k ≤ l.room := by
  unfold Lane.room Config.laneOrders
  omega

/-! ### The checks of REPRINT (Table 8-4) -/

section

variable {n : Nat} {x : Sale} {st : Station} {s : State}

theorem reprintFault_of_seat {r : SeatRef} (hn : n ≠ 0) (hr : seatRefOk r = true) :
    reprintFault n (.seat r) st.val = none := by
  obtain ⟨⟨hslot, hrow⟩, hnum⟩ : (slotOk r.slot = true ∧ rowOk r.row = true) ∧ seatNumOk r.num = true := by
    simpa [seatRefOk] using hr
  simp [reprintFault, firstFault_eq_none, stationOf_val, hn, hslot, hrow, hnum]

theorem reprintFault_of_voucher {v : Nat} (hn : n ≠ 0) (hv : serialOk v = true) :
    reprintFault n (.voucher v) st.val = none := by
  simp [reprintFault, firstFault_eq_none, stationOf_val, hn, hv]

theorem itemOfSale_seat {r : SeatRef} : itemOfSale x (.seat r) = true ↔ ∃ l ∈ x.seats, l.ref = r := by simp [itemOfSale]

theorem itemOfSale_voucher {v : Nat} : itemOfSale x (.voucher v) = true ↔ v ∈ x.serials := by simp [itemOfSale]

theorem redemption_of_unredeemed {v : Nat} (h : s.isRedeemed v = false) : s.redemption (.voucher v) = none := by
  cases hv : s.voucher v with
  | none => simp [State.redemption, hv]
  | some y =>
    cases hstate : y.state with
    | redeemed till t => simp [State.isRedeemed, hv, hstate] at h
    | printPending | issued | void | locked => simp [State.redemption, hv, hstate]

theorem laneWith_eq_none {p : Order → Bool} : s.laneWith p = none ↔ ∀ b, ∀ o ∈ (s.lane b).queue, ¬p o = true := by
  simp [State.laneWith]

/-- REPRINT past the checks of R159. -/
theorem reprint_of_checks {item : ReprintItem} (hfields : reprintFault n item st.val = none) (hx : s.sale n = some x)
    (hitem : itemOfSale x item = true) (hactive : x.state = .active) (hprinter : usesPrinter (s.station st).role = true)
    (hfree : s.laneWith (fun w => decide (w.sale = n) && decide (w.item = orderItemOf item)) = none)
    (hunredeemed : s.redemption item = none) (hgen : s.generationOf (orderItemOf item) < 3) (hroom : 1 ≤ (s.lane st).room)
    (tag : Tag) : reprint tag n item st.val s = takeReprint tag n (orderItemOf item) st s := by
  have hlimit : ¬Config.maxGeneration ≤ s.generationOf (orderItemOf item) := Nat.not_le.mpr hgen
  have hplace : (s.lane st).room ≠ 0 := Nat.one_le_iff_ne_zero.mp hroom
  simp [reprint, hfields, stationOf_val, hx, hitem, reprintOf, hactive, hprinter, hfree, hunredeemed, hlimit, hplace]

theorem takeReprint_of_sale (hx : s.sale n = some x) (tag : Tag) (item : OrderItem) : takeReprint tag n item st s =
    emit .site (.reply tag .ok [.generation (s.generationOf item)])
      (laneComes st (ordersQueued st n x [⟨item, n, true, .queued⟩] s)) := by
  rw [← appendOrders_modifySale hx]
  rfl

end

/-! ### The checks of COLLECT (R161, R162) -/

section

variable {st : Station} {ref : Chars 8} {n : Nat} {x : Sale} {s : State}

theorem chainOf_without_receipt (n : Nat) (x : Sale) : chainOf n x false =
    x.seats.map (fun l => ⟨.ticket l.ref, n, false, .queued⟩) ++ x.serials.map (fun v => ⟨.stub v, n, false, .queued⟩) :=
  List.append_nil _

/-- COLLECT takes the first sale of the reference that is collectable. -/
theorem collect_of_collectable {before behind : Tbl Sale} (hbooked : s.booked ref = before ++ (n, x) :: behind)
    (hbefore : ∀ e ∈ before, s.collectable e.2 = false) (hx : s.collectable x = true)
    (hroom : (chainOf n x false).length ≤ (s.lane st).room) (tag : Tag) :
    collect st tag ref s = takeCollect st tag n x s := by
  have hfind : (s.booked ref).find? (fun e => s.collectable e.2) = some (n, x) := by
    rw [hbooked, List.find?_append, List.find?_eq_none.mpr fun e he => by simp [hbefore e he]]
    exact List.find?_cons_of_pos (p := fun e => s.collectable e.2) (a := (n, x)) hx
  unfold collect
  split
  · next hnone => rw [hnone] at hfind; cases hfind
  · next hsome =>
    rw [← hsome, hfind]
    exact if_neg (Nat.not_lt.mpr hroom)

theorem takeCollect_of_sale (hx : s.sale n = some x) (tag : Tag) : takeCollect st tag n x s =
    emit (.station st) (.reply tag .ok [.saleNumber n, .tickets x.seats.length, .stubs x.serials.length])
      (laneComes st (ordersQueued st n x (chainOf n x false) s)) := by
  rw [← appendOrders_modifySale hx]
  rfl

end

/-- Settles O52: each request past its checks queues its orders, the lane may then request, and the reply follows. -/
theorem printRequestsTaken : Obligations.PrintRequestsTaken := by
  constructor
  · intro tag n x item st s order hn hitem hx hactive hrole hlanes hgen hroom
    have horder : orderItemOf item = order := by cases item <;> rfl
    obtain ⟨hfields, hheld, hunredeemed⟩ :
        reprintFault n item st.val = none ∧ itemOfSale x item = true ∧ s.redemption item = none := by
      cases item with
      | seat r =>
        obtain ⟨hslot, hslot', hrow, hrow', hnum, hnum', hline⟩ := hitem
        have hr := seatRefOk_of hslot hslot' hrow hrow' hnum hnum'
        exact ⟨reprintFault_of_seat hn hr, itemOfSale_seat.mpr hline, rfl⟩
      | voucher v =>
        obtain ⟨hserial, hserial', hmem, hstate⟩ := hitem
        exact ⟨reprintFault_of_voucher hn (within_iff.mpr ⟨hserial, hserial'⟩), itemOfSale_voucher.mpr hmem,
          redemption_of_unredeemed hstate⟩
    have hfree : s.laneWith (fun w => decide (w.sale = n) && decide (w.item = orderItemOf item)) = none :=
      laneWith_eq_none.mpr fun b o ho => by simpa [horder] using hlanes b o ho
    have htaken := (reprint_of_checks hfields hx hheld hactive (listens_of_role hrole) hfree hunredeemed
      (horder ▸ hgen) (Lane.le_room hroom) tag).trans (takeReprint_of_sale hx tag _)
    rw [horder] at htaken
    exact ⟨_, comesToRequest_laneComes .., congrArg Host.Outcome.next htaken,
      (sameBesidePrinting_ordersQueued ..).trans (sameBesidePrinting_laneComes ..)⟩
  · intro st tag ref n x before behind s chain htakes hbooked hbefore hcollectable hx hroom
    have hchain : chainOf n x false = chain := chainOf_without_receipt n x
    have htaken := (collect_of_collectable hbooked hbefore hcollectable (hchain ▸ Lane.le_room hroom) tag).trans
      (takeCollect_of_sale hx tag)
    rw [hchain] at htaken
    exact ⟨_, comesToRequest_laneComes .., congrArg Host.Outcome.next ((stationRequest_of_takes htakes tag _).trans htaken),
      (sameBesidePrinting_ordersQueued ..).trans (sameBesidePrinting_laneComes ..)⟩

end Sys2Proof.Machine
end

section
/-! Operations and commands that leave the voucher table and the seed as they are: all but the making, the voiding, the printing and
the redemption of vouchers, and the requests of the voucher table (R165, R170 to R178). -/

namespace Sys2Proof.Machine

/-- What the soundness of vouchers reads: the voucher table, and the seed in force. -/
def State.voucherBook (s : State) : Tbl Voucher × Nat := (s.vouchers, s.seed)

/-! ### The shared operations -/

@[simp] theorem voucherBook_emit (l : Line) (r : OutRec) (s : State) : (emit l r s).voucherBook = s.voucherBook := by
  rw [emit_frame]; rfl

@[simp] theorem voucherBook_replySite (tag : Tag) (c : Code) (vs : List Val) (s : State) :
    (replySite tag c vs s).voucherBook = s.voucherBook := voucherBook_emit ..

@[simp] theorem voucherBook_replyStation (st : Station) (tag : Tag) (c : Code) (vs : List Val) (s : State) :
    (replyStation st tag c vs s).voucherBook = s.voucherBook := voucherBook_emit ..

@[simp] theorem voucherBook_modifyBasket (st : Station) (f : Basket → Basket) (s : State) :
    (modifyBasket st f s).voucherBook = s.voucherBook := rfl

@[simp] theorem voucherBook_modifyLane (st : Station) (f : Lane → Lane) (s : State) :
    (modifyLane st f s).voucherBook = s.voucherBook := rfl

@[simp] theorem voucherBook_modifyLine (l : Line) (f : LineRec → LineRec) (s : State) :
    (modifyLine l f s).voucherBook = s.voucherBook := rfl

@[simp] theorem voucherBook_setMover (m : Mover) (s : State) : (setMover m s).voucherBook = s.voucherBook := rfl

@[simp] theorem voucherBook_setPayment (st : Station) (p : Option Payment) (s : State) :
    (setPayment st p s).voucherBook = s.voucherBook := rfl

@[simp] theorem voucherBook_modifyPayment (st : Station) (f : Payment → Payment) (s : State) :
    (modifyPayment st f s).voucherBook = s.voucherBook := rfl

@[simp] theorem voucherBook_putScreening (slot : Nat) (x : Screening) (s : State) :
    (putScreening slot x s).voucherBook = s.voucherBook := rfl

@[simp] theorem voucherBook_delScreening (slot : Nat) (s : State) : (delScreening slot s).voucherBook = s.voucherBook := rfl

@[simp] theorem voucherBook_putHold (n : Nat) (x : Hold) (s : State) : (putHold n x s).voucherBook = s.voucherBook := rfl

@[simp] theorem voucherBook_mapSeats (slot : Nat) (ps : List SeatPos) (f : Seat → Seat) (s : State) :
    (mapSeats slot ps f s).voucherBook = s.voucherBook := by rw [mapSeats_frame]; rfl

@[simp] theorem voucherBook_modifySale (n : Nat) (f : Sale → Sale) (s : State) :
    (modifySale n f s).voucherBook = s.voucherBook := by rw [modifySale_frame]; rfl

@[simp] theorem voucherBook_setItem (code : Nat) (x : Item) (s : State) : (setItem code x s).voucherBook = s.voucherBook := by
  rw [setItem_frame]; rfl

@[simp] theorem voucherBook_modifyItem (code : Nat) (f : Item → Item) (s : State) :
    (modifyItem code f s).voucherBook = s.voucherBook := by rw [modifyItem_frame]; rfl

@[simp] theorem voucherBook_judgeLow (code : Nat) (s : State) : (judgeLow code s).voucherBook = s.voucherBook := by
  rw [judgeLow_frame]; rfl

@[simp] theorem voucherBook_judgeJournal (s : State) : (judgeJournal s).voucherBook = s.voucherBook := by
  rw [judgeJournal_frame]; rfl

@[simp] theorem voucherBook_reserveUnits (code qty : Nat) (s : State) :
    (reserveUnits code qty s).voucherBook = s.voucherBook := by rw [reserveUnits_frame]; rfl

@[simp] theorem voucherBook_returnUnits (code qty : Nat) (s : State) :
    (returnUnits code qty s).voucherBook = s.voucherBook := by rw [returnUnits_frame]; rfl

@[simp] theorem voucherBook_releaseHold (n : Nat) (s : State) : (releaseHold n s).voucherBook = s.voucherBook := by
  rw [releaseHold_frame]; rfl

@[simp] theorem voucherBook_writeFree (sale : Option Nat) (amount : Nat) (body : JournalBody) (s : State) :
    (writeFree sale amount body s).voucherBook = s.voucherBook := by rw [writeFree_frame]; rfl

@[simp] theorem voucherBook_basketChange (st : Station) (s : State) : (basketChange st s).voucherBook = s.voucherBook := rfl

@[simp] theorem voucherBook_basketGains (st : Station) (f : Basket → Basket) (s : State) :
    (basketGains st f s).voucherBook = s.voucherBook := by rw [basketGains_frame]; rfl

@[simp] theorem voucherBook_emptyBasket (st : Station) (s : State) : (emptyBasket st s).voucherBook = s.voucherBook := by
  rw [emptyBasket_frame]; rfl

@[simp] theorem voucherBook_basketLoses (st : Station) (s : State) : (basketLoses st s).voucherBook = s.voucherBook := by
  rw [basketLoses_frame]; rfl

@[simp] theorem voucherBook_answerPay (st : Station) (c : Code) (vs : List Val) (s : State) :
    (answerPay st c vs s).voucherBook = s.voucherBook := by rw [answerPay_frame]; rfl

@[simp] theorem voucherBook_sendAbort (st : Station) (cause : AbortCause) (s : State) :
    (sendAbort st cause s).voucherBook = s.voucherBook := by rw [sendAbort_frame]; rfl

@[simp] theorem voucherBook_endWithoutSale (st : Station) (p : Payment) (o : Option PayOutcome) (s : State) :
    (endWithoutSale st p o s).voucherBook = s.voucherBook := by rw [endWithoutSale_frame]; rfl

@[simp] theorem voucherBook_reverseAndEnd (st : Station) (p : Payment) (confirmed : Bool) (reason : ReversalReason)
    (o : Option PayOutcome) (s : State) : (reverseAndEnd st p confirmed reason o s).voucherBook = s.voucherBook :=
  voucherBook_endWithoutSale ..

@[simp] theorem voucherBook_selectionFails (st : Station) (p : Payment) (c : Code) (vs : List Val) (s : State) :
    (selectionFails st p c vs s).voucherBook = s.voucherBook := by simp [selectionFails]

@[simp] theorem voucherBook_endCapture (st : Station) (p : Payment) (c : CaptureState) (s : State) :
    (endCapture st p c s).voucherBook = s.voucherBook := by
  unfold endCapture
  split
  · rw [releaseReservations_frame]; rfl
  · rfl

@[simp] theorem voucherBook_acceptPay (st : Station) (tag : Tag) (s : State) : (acceptPay st tag s).voucherBook = s.voucherBook := by
  obtain ⟨_, _, _, _, _, _, h⟩ := acceptPay_frame st tag s
  rw [h]; rfl

@[simp] theorem voucherBook_treatBaskets (k : LoadKind) (s : State) : (treatBaskets k s).voucherBook = s.voucherBook := by
  unfold State.voucherBook
  rw [treatBaskets_frame]

@[simp] theorem voucherBook_takeSnacks (entries : List SnackEntry) (s : State) :
    (takeSnacks entries s).voucherBook = s.voucherBook := by rw [takeSnacks_frame]; rfl

@[simp] theorem voucherBook_closeHold (st : Station) (n : Nat) (h : Hold) (s : State) :
    (closeHold st n h s).voucherBook = s.voucherBook := by rw [closeHold_frame]; rfl

@[simp] theorem voucherBook_ordersEnded (st : Station) (n k : Nat) (s : State) :
    (ordersEnded st n k s).voucherBook = s.voucherBook := by rw [ordersEnded_frame]; rfl

@[simp] theorem voucherBook_removeOrders (n : Nat) (s : State) : (removeOrders n s).voucherBook = s.voucherBook := by
  rw [removeOrders_frame]; rfl

@[simp] theorem voucherBook_noticeLine (l : Line) (x : LineState) (s : State) : (noticeLine l x s).voucherBook = s.voucherBook := by
  unfold noticeLine
  split <;> simp

/-- A request of a station link is refused, or its block acts (R182). -/
theorem voucherBook_stationRequest {act : State → State} (st : Station) (tag : Tag) (k : ReqKind) {s : State}
    (h : (act s).voucherBook = s.voucherBook) : (stationRequest st tag k act s).voucherBook = s.voucherBook := by
  unfold stationRequest
  repeat' split
  all_goals simp [h]

/-! ### Screenings and queries -/

theorem voucherBook_beginScreening (tag : Tag) (f : BeginFields) (s : State) :
    (beginScreening tag f s).voucherBook = s.voucherBook := by
  unfold beginScreening
  repeat' split
  all_goals simp

theorem voucherBook_seatRow (tag : Tag) (slot row : Nat) (runs : List RunSpec) (s : State) :
    (seatRow tag slot row runs s).voucherBook = s.voucherBook := by
  unfold seatRow
  repeat' split
  all_goals simp [takeSeatRow]

theorem voucherBook_endLoad (tag : Tag) (slot : Nat) (s : State) : (endLoad tag slot s).voucherBook = s.voucherBook := by
  unfold endLoad
  repeat' split
  all_goals simp

theorem voucherBook_stopSales (tag : Tag) (slot : Nat) (s : State) : (stopSales tag slot s).voucherBook = s.voucherBook := by
  unfold stopSales
  repeat' split
  all_goals simp

@[simp] theorem voucherBook_treatSeats (act : Seat → Seat × SeatResult) (slot : Nat) : ∀ (ps : List SeatPos) (s : State),
    (treatSeats act slot ps s).1.voucherBook = s.voucherBook
  | [], _ => rfl
  | p :: ps, s => by
    unfold treatSeats
    split <;> simp [voucherBook_treatSeats act slot ps]

theorem voucherBook_treatSlot (act : Seat → Seat × SeatResult) (tag : Tag) (slot : Nat) (ps : List SeatPos) (s : State) :
    (treatSlot act tag slot ps s).voucherBook = s.voucherBook := by
  unfold treatSlot
  repeat' split
  all_goals simp

theorem voucherBook_querySeats (tag : Tag) (slot row first last : Nat) (s : State) :
    (querySeats tag slot row first last s).voucherBook = s.voucherBook := by
  unfold querySeats
  repeat' split
  all_goals simp

theorem voucherBook_queryMap (st : Station) (tag : Tag) (slot first last : Nat) (s : State) :
    (queryMap st tag slot first last s).voucherBook = s.voucherBook := by
  unfold queryMap
  repeat' split
  all_goals simp

theorem voucherBook_querySale (tag : Tag) (n : Nat) (s : State) : (querySale tag n s).voucherBook = s.voucherBook := by
  unfold querySale
  repeat' split
  all_goals simp

theorem voucherBook_querySnacks (tag : Tag) (first last : Nat) (s : State) :
    (querySnacks tag first last s).voucherBook = s.voucherBook := by
  unfold querySnacks
  split <;> simp

theorem voucherBook_queryVoucher (st : Station) (tag : Tag) (serial : Nat) (s : State) :
    (queryVoucher st tag serial s).voucherBook = s.voucherBook := by
  unfold queryVoucher
  repeat' split
  all_goals simp

/-! ### Holds -/

theorem voucherBook_holdSeat (st : Station) (tag : Tag) (r : SeatRef) (s : State) :
    (holdSeat st tag r s).voucherBook = s.voucherBook := by
  unfold holdSeat
  repeat' split
  all_goals simp [claimSeat]

theorem voucherBook_holdClose (st : Station) (tag : Tag) (s : State) : (holdClose st tag s).voucherBook = s.voucherBook := by
  unfold holdClose
  split <;> simp

theorem voucherBook_windowReached (n : Nat) (s : State) : (windowReached n s).voucherBook = s.voucherBook := by
  unfold windowReached
  repeat' split
  all_goals simp

theorem voucherBook_dropHold (st : Station) (tag : Tag) (n : Nat) (s : State) : (dropHold st tag n s).voucherBook = s.voucherBook := by
  unfold dropHold
  dsimp only
  repeat' split
  all_goals simp [leaveBasket]

theorem voucherBook_siteHold (tag : Tag) (slot : Nat) (ps : List SeatPos) (seconds : Nat) (ref : Chars 8) (s : State) :
    (siteHold tag slot ps seconds ref s).voucherBook = s.voucherBook := by
  unfold siteHold
  repeat' split
  all_goals simp [takeSiteHold]

theorem voucherBook_ownReached (n : Nat) (s : State) : (ownReached n s).voucherBook = s.voucherBook := by
  unfold ownReached
  repeat' split
  all_goals simp

theorem voucherBook_siteRelease (tag : Tag) (n : Nat) (ref : Chars 8) (s : State) :
    (siteRelease tag n ref s).voucherBook = s.voucherBook := by
  unfold siteRelease
  repeat' split
  all_goals simp

/-! ### Baskets and loads -/

theorem voucherBook_setCategory (st : Station) (tag : Tag) (ref : SeatRef) (cat : Nat) (s : State) :
    (setCategory st tag ref cat s).voucherBook = s.voucherBook := by
  unfold setCategory
  repeat' split
  all_goals simp

theorem voucherBook_addSnack (st : Station) (tag : Tag) (item qty : Nat) (s : State) :
    (addSnack st tag item qty s).voucherBook = s.voucherBook := by
  unfold addSnack
  dsimp only
  repeat' split
  all_goals simp

theorem voucherBook_removeSnack (st : Station) (tag : Tag) (item qty : Nat) (s : State) :
    (removeSnack st tag item qty s).voucherBook = s.voucherBook := by
  unfold removeSnack
  dsimp only
  repeat' split
  all_goals simp

theorem voucherBook_price (st : Station) (tag : Tag) (s : State) : (price st tag s).voucherBook = s.voucherBook := by
  unfold price
  dsimp only
  repeat' split
  all_goals simp

theorem voucherBook_abandon (st : Station) (tag : Tag) (s : State) : (abandon st tag s).voucherBook = s.voucherBook := by
  unfold abandon
  split <;> simp

theorem voucherBook_lapseReached (st : Station) (s : State) : (lapseReached st s).voucherBook = s.voucherBook := by
  unfold lapseReached
  dsimp only
  repeat' split
  all_goals simp

theorem voucherBook_loadTariff (tag : Tag) (f : Tariff) (s : State) : (loadTariff tag f s).voucherBook = s.voucherBook := by
  unfold loadTariff
  split
  · simp
  · simp
  · simp only [voucherBook_replySite, voucherBook_treatBaskets]; rfl

theorem voucherBook_loadSnacks (tag : Tag) (entries : List SnackEntry) (s : State) :
    (loadSnacks tag entries s).voucherBook = s.voucherBook := by
  unfold loadSnacks
  repeat' split
  all_goals simp

/-! ### Payments before their commit, and the journal -/

theorem voucherBook_pay (st : Station) (tag : Tag) (s : State) : (pay st tag s).voucherBook = s.voucherBook := by
  unfold pay
  split <;> simp

theorem voucherBook_cancelPay (st : Station) (tag : Tag) (s : State) : (cancelPay st tag s).voucherBook = s.voucherBook := by
  unfold cancelPay
  repeat' split
  all_goals simp

theorem voucherBook_selectedRecord (st : Station) (echo : Chars 4) (status : SelectStatus) (s : State) :
    (selectedRecord st echo status s).voucherBook = s.voucherBook := by
  unfold selectedRecord
  repeat' split
  all_goals simp [sendAuthorise, abortSelection]

theorem voucherBook_selectStepReached (st : Station) (s : State) : (selectStepReached st s).voucherBook = s.voucherBook := by
  unfold selectStepReached
  repeat' split
  all_goals simp

theorem voucherBook_progressRecord (st : Station) (stage : PayStage) (s : State) :
    (progressRecord st stage s).voucherBook = s.voucherBook := by
  unfold progressRecord
  repeat' split
  all_goals simp

theorem voucherBook_timeLimitReached (st : Station) (s : State) : (timeLimitReached st s).voucherBook = s.voucherBook := by
  unfold timeLimitReached
  repeat' split
  all_goals simp

theorem voucherBook_abortStepReached (st : Station) (s : State) : (abortStepReached st s).voucherBook = s.voucherBook := by
  unfold abortStepReached
  repeat' split
  all_goals simp

theorem voucherBook_reversedRecord (st : Station) (s : State) : (reversedRecord st s).voucherBook = s.voucherBook := by
  unfold reversedRecord
  repeat' split
  all_goals simp

theorem voucherBook_reverseStepReached (st : Station) (s : State) : (reverseStepReached st s).voucherBook = s.voucherBook := by
  unfold reverseStepReached
  repeat' split
  all_goals simp

theorem voucherBook_capturedRecord (st : Station) (s : State) : (capturedRecord st s).voucherBook = s.voucherBook := by
  unfold capturedRecord
  repeat' split
  all_goals simp

theorem voucherBook_captureStepReached (st : Station) (s : State) : (captureStepReached st s).voucherBook = s.voucherBook := by
  unfold captureStepReached
  repeat' split
  all_goals simp

@[simp] theorem voucherBook_terminalLost (st : Station) (s : State) : (terminalLost st s).voucherBook = s.voucherBook := by
  unfold terminalLost
  repeat' split
  all_goals simp

theorem voucherBook_journalRelease (tag : Tag) (seq : Nat) (s : State) : (journalRelease tag seq s).voucherBook = s.voucherBook := by
  unfold journalRelease
  split
  · simp
  · simp only [voucherBook_replySite, voucherBook_judgeJournal]; rfl

/-! ### Links, and the idle step -/

theorem voucherBook_configStation (tag : Tag) (station : Nat) (role : Option Role) (addr : Chars 4) (printer : Bool) (s : State) :
    (configStation tag station role addr printer s).voucherBook = s.voucherBook := by
  have configured (st : Station) (c : StationConfig) : (setStation st c s).voucherBook = s.voucherBook := rfl
  unfold configStation
  repeat' split
  all_goals simp [takeConfig, configured]

theorem voucherBook_changeLimits (tag : Tag) (window hold payment : Nat) (s : State) :
    (changeLimits tag window hold payment s).voucherBook = s.voucherBook := by
  unfold changeLimits
  rw [voucherBook_replySite]; rfl

@[simp] theorem voucherBook_stationLost (st : Station) (s : State) : (stationLost st s).voucherBook = s.voucherBook := by
  unfold stationLost
  dsimp only
  repeat' split
  all_goals simp

theorem voucherBook_lineRegained (l : Line) (s : State) : (lineRegained l s).voucherBook = s.voucherBook := by
  have reported (t : State) : (reportRegain l t).voucherBook = t.voucherBook := by
    unfold reportRegain printerRegained
    repeat' split
    all_goals simp
  unfold lineRegained
  split <;> simp [reported]

theorem voucherBook_breakBegins (l : Line) (s : State) : (breakBegins l s).voucherBook = s.voucherBook := by
  unfold breakBegins
  split <;> simp

theorem voucherBook_breakEnds (l : Line) (s : State) : (breakEnds l s).voucherBook = s.voucherBook := by
  unfold breakEnds
  split <;> simp

theorem voucherBook_frameError (l : Line) (cause : FrameFault) (s : State) : (frameError l cause s).voucherBook = s.voucherBook := by
  unfold frameError
  split <;> simp

theorem voucherBook_trainTimeout (l : Line) (s : State) : (trainTimeout l s).voucherBook = s.voucherBook := by
  unfold trainTimeout
  split <;> simp

theorem voucherBook_trainInterrupted (l : Line) (kind : Byte) (tag : Tag) (body : List Byte) (s : State) :
    (trainInterrupted l kind tag body s).voucherBook = s.voucherBook := by
  unfold trainInterrupted
  split <;> simp

theorem voucherBook_recordSent (l : Line) (s : State) : (recordSent l s).voucherBook = s.voucherBook := by
  have left (rest : List OutRec) (t : State) : (burstLeft l rest t).voucherBook = t.voucherBook := by
    unfold burstLeft
    repeat' split
    all_goals simp
  unfold recordSent
  split
  · rfl
  · dsimp only
    split
    · exact left ..
    · rfl

theorem voucherBook_idle (s : State) : (idle s).voucherBook = s.voucherBook := by rw [idle_frame]; rfl

theorem voucherBook_clearRecord (st : Station) (s : State) : (clearRecord st s).voucherBook = s.voucherBook := by
  unfold clearRecord
  split <;> simp

end Sys2Proof.Machine
end

section
/-! Voucher records stay sound (R169, R171, R174): which changes of a record keep its code, generation and wrong-code count sound, and
with them every step (O7). -/

namespace Sys2Proof.Machine

/-! ### One sound record -/

/-- The record of a serial carries the code of its formula under a seed, and its generation and wrong-code count are in range. -/
structure Voucher.SoundAt (serial seed : Nat) (v : Voucher) : Prop where
  code : v.code = checkCode serial v.item v.gen seed
  gen : v.gen ≤ 3
  wrong : v.wrong ≤ 3
  unlocked : v.state = .printPending ∨ v.state = .issued → v.wrong < 3

theorem vouchersSound_iff (s : State) : VouchersSound s ↔ ∀ e ∈ s.vouchers, e.2.SoundAt e.1 s.seed :=
  forall₂_congr fun _ _ => ⟨fun ⟨hcode, hgen, hwrong, hlow⟩ => ⟨hcode, hgen, hwrong, hlow⟩,
    fun ⟨hcode, hgen, hwrong, hlow⟩ => ⟨hcode, hgen, hwrong, hlow⟩⟩

theorem VouchersSound.voucher {s : State} (hs : VouchersSound s) {n : Nat} {v : Voucher} (hv : s.voucher n = some v) :
    v.SoundAt n s.seed := (vouchersSound_iff s).mp hs _ (Tbl.find_mem hv)

section

variable {serial seed : Nat} {v : Voucher}

/-- A record neither PRINT_PENDING nor ISSUED needs no room for another wrong code. -/
theorem Voucher.SoundAt.closed (h : v.SoundAt serial seed) {w : Voucher} (hitem : w.item = v.item) (hcode : w.code = v.code)
    (hgen : w.gen = v.gen) (hwrong : w.wrong ≤ 3) (hstate : w.state ≠ .printPending ∧ w.state ≠ .issued) :
    w.SoundAt serial seed where
  code := by rw [hcode, hitem, hgen]; exact h.code
  gen := hgen ▸ h.gen
  wrong := hwrong
  unlocked hw := (hw.elim hstate.1 hstate.2).elim

/-- A record with a wrong-code count below 3, in any state. -/
theorem Voucher.SoundAt.counts (h : v.SoundAt serial seed) {k : Nat} (hk : k < 3) (x : VoucherState) :
    { v with state := x, wrong := k }.SoundAt serial seed := ⟨h.code, h.gen, hk.le, fun _ => hk⟩

theorem Voucher.SoundAt.complete (h : v.SoundAt serial seed) : v.complete.SoundAt serial seed := by
  unfold Voucher.complete
  split
  · next hv => exact h.counts (h.unlocked (.inl hv)) _
  · next hv => exact h.counts (h.unlocked (.inr hv)) _
  all_goals exact h

theorem Voucher.SoundAt.unsure (h : v.SoundAt serial seed) : v.unsure.SoundAt serial seed := by
  unfold Voucher.unsure
  split
  · next hv => exact h.counts (h.unlocked (.inr hv)) _
  all_goals exact h

/-- The generation step: a new code, from a generation below 3 (R154, R171). -/
theorem Voucher.SoundAt.raise (h : v.SoundAt serial seed) (hgen : v.gen < 3) :
    { v with gen := v.gen + 1, code := checkCode serial v.item (v.gen + 1) seed }.SoundAt serial seed :=
  ⟨rfl, hgen, h.wrong, h.unlocked⟩

end

/-! ### Steps of the voucher table -/

/-- From `s` to `t` sound voucher records stay sound. -/
structure KeepsSound (s t : State) : Prop where
  sound : VouchersSound s → VouchersSound t

@[simp] theorem KeepsSound.refl (s : State) : KeepsSound s s := ⟨id⟩

theorem KeepsSound.trans {s t u : State} (h : KeepsSound s t) (k : KeepsSound t u) : KeepsSound s u := ⟨k.sound ∘ h.sound⟩

/-- `KeepsSound.trans` read from the last operation inward, as a composed operation is written. -/
theorem KeepsSound.after {s t u : State} (k : KeepsSound t u) (h : KeepsSound s t) : KeepsSound s u := h.trans k

theorem KeepsSound.foldl {α : Type} (op : State → α → State) (h : ∀ s a, KeepsSound s (op s a)) (l : List α) (s : State) :
    KeepsSound s (l.foldl op s) :=
  foldl_preserves (KeepsSound s) op (fun t a ht => ht.trans (h t a)) l s (.refl s)

/-- The voucher table loses records or keeps them, under the same seed. -/
theorem KeepsSound.of_subset {s t : State} (hseed : t.seed = s.seed) (h : ∀ e ∈ t.vouchers, e ∈ s.vouchers) : KeepsSound s t :=
  ⟨fun hs => (vouchersSound_iff t).mpr fun e he => hseed ▸ (vouchersSound_iff s).mp hs e (h e he)⟩

theorem KeepsSound.of_book {s t : State} (h : t.voucherBook = s.voucherBook) : KeepsSound s t :=
  have ⟨hvouchers, hseed⟩ := Prod.mk.inj h
  .of_subset hseed fun _ he => hvouchers ▸ he

/-- With no record held, every record is sound, whatever the seed. -/
theorem KeepsSound.of_empty {s t : State} (h : t.vouchers = []) : KeepsSound s t := ⟨fun _ e he => by simp [h] at he⟩

theorem keepsSound_putVoucher {n : Nat} {v : Voucher} {s : State} (h : VouchersSound s → v.SoundAt n s.seed) :
    KeepsSound s (putVoucher n v s) := by
  refine ⟨fun hs => (vouchersSound_iff _).mpr fun e he => ?_⟩
  rcases Tbl.mem_put he with rfl | he
  · exact h hs
  · exact (vouchersSound_iff s).mp hs e he

theorem keepsSound_modifyVoucher {n : Nat} {f : Voucher → Voucher} {s : State}
    (h : ∀ v, s.voucher n = some v → v.SoundAt n s.seed → (f v).SoundAt n s.seed) : KeepsSound s (modifyVoucher n f s) := by
  unfold modifyVoucher
  split
  · next v hv => exact keepsSound_putVoucher fun hs => h v hv (hs.voucher hv)
  · exact .refl s

@[simp] theorem keepsSound_emit (l : Line) (r : OutRec) (s : State) : KeepsSound s (emit l r s) := .of_book (voucherBook_emit ..)

@[simp] theorem keepsSound_replySite (tag : Tag) (c : Code) (vs : List Val) (s : State) : KeepsSound s (replySite tag c vs s) :=
  keepsSound_emit ..

@[simp] theorem keepsSound_replyStation (st : Station) (tag : Tag) (c : Code) (vs : List Val) (s : State) :
    KeepsSound s (replyStation st tag c vs s) := keepsSound_emit ..

theorem keepsSound_modifyLane (st : Station) (f : Lane → Lane) (s : State) : KeepsSound s (modifyLane st f s) :=
  .of_book (voucherBook_modifyLane ..)

theorem keepsSound_modifySale (n : Nat) (f : Sale → Sale) (s : State) : KeepsSound s (modifySale n f s) :=
  .of_book (voucherBook_modifySale ..)

theorem keepsSound_writeFree (sale : Option Nat) (amount : Nat) (body : JournalBody) (s : State) :
    KeepsSound s (writeFree sale amount body s) := .of_book (voucherBook_writeFree ..)

/-- A request of a station link is refused, or its block acts (R182). -/
theorem keepsSound_stationRequest {act : State → State} (st : Station) (tag : Tag) (k : ReqKind) {s : State}
    (h : KeepsSound s (act s)) : KeepsSound s (stationRequest st tag k act s) := by
  unfold stationRequest
  repeat' split
  all_goals simp [h]

/-! ### Requests of the voucher table -/

/-- A restart takes the counted marks of an item's vouchers alone (R165). -/
theorem keepsSound_setAllowance (tag : Tag) (code allowance lowMark : Nat) (restart : Bool) (s : State) :
    KeepsSound s (setAllowance tag code allowance lowMark restart s) := by
  have uncounted : KeepsSound s { modifyItem code (fun x => { x with issued := 0 }) s with
      vouchers := s.vouchers.map (fun e => if e.2.item = code then (e.1, { e.2 with counted := false }) else e) } := by
    rw [modifyItem_frame]
    refine ⟨fun hs => (vouchersSound_iff _).mpr fun e he => ?_⟩
    obtain ⟨a, ha, rfl⟩ := List.mem_map.mp he
    have hsound := (vouchersSound_iff s).mp hs a ha
    split
    · exact ⟨hsound.code, hsound.gen, hsound.wrong, hsound.unlocked⟩
    · exact hsound
  have restarted : KeepsSound s (if restart then { modifyItem code (fun x => { x with issued := 0 }) s with
      vouchers := s.vouchers.map (fun e => if e.2.item = code then (e.1, { e.2 with counted := false }) else e) } else s) := by
    split
    · exact uncounted
    · exact .refl s
  unfold setAllowance
  split
  · dsimp only
    split
    · exact .refl s
    · exact restarted.trans (.of_book (by simp))
  · exact keepsSound_replySite ..

/-- The seed is replaced while no voucher record is held (R172). -/
theorem keepsSound_loadSeed (tag : Tag) (seed : Nat) (s : State) : KeepsSound s (loadSeed tag seed s) := by
  unfold loadSeed
  split
  · exact keepsSound_replySite ..
  · split
    · next hnone =>
      exact (keepsSound_replySite ..).after (.of_empty (List.length_eq_zero_iff.mp hnone))
    · exact keepsSound_replySite ..

theorem keepsSound_unlockVoucher (tag : Tag) (serial : Nat) (s : State) : KeepsSound s (unlockVoucher tag serial s) := by
  unfold unlockVoucher
  split
  · split
    · exact keepsSound_replySite ..
    · next v hv =>
      split
      · split
        · exact keepsSound_replySite ..
        · exact (keepsSound_replySite ..).after
            (keepsSound_putVoucher fun hs => (hs.voucher hv).counts (Nat.zero_lt_succ 2) .issued)
      · exact keepsSound_replySite ..
  · exact keepsSound_replySite ..

/-- A wrong code of an ISSUED voucher: below the third the voucher stays ISSUED, and the third locks it (R174). -/
theorem keepsSound_wrongCode (st : Station) (tag : Tag) {serial : Nat} {v : Voucher} {s : State} (hv : s.voucher serial = some v)
    (hissued : v.state = .issued) : KeepsSound s (wrongCode st tag serial v s) := by
  unfold wrongCode
  dsimp only
  split
  · next hlow =>
    exact (keepsSound_replyStation ..).after (keepsSound_putVoucher fun hs => (hs.voucher hv).counts hlow v.state)
  · refine (keepsSound_emit ..).after ((keepsSound_replyStation ..).after (keepsSound_putVoucher fun hs => ?_))
    have hsound := hs.voucher hv
    exact hsound.closed rfl rfl rfl (hsound.unlocked (.inr hissued)) (by simp)

theorem keepsSound_redeem (st : Station) (tag : Tag) (serial code : Nat) (s : State) :
    KeepsSound s (redeem st tag serial code s) := by
  unfold redeem
  split
  · split
    · exact keepsSound_replyStation ..
    · next v hv =>
      split
      · exact keepsSound_replyStation ..
      · exact keepsSound_replyStation ..
      · exact keepsSound_replyStation ..
      · exact keepsSound_replyStation ..
      · next hissued =>
        split
        · exact keepsSound_wrongCode st tag hv hissued
        · split
          · exact keepsSound_replyStation ..
          · refine (keepsSound_replyStation ..).after ((keepsSound_writeFree ..).after (keepsSound_putVoucher fun hs => ?_))
            have hsound := hs.voucher hv
            exact hsound.closed rfl rfl rfl hsound.wrong (by simp)
  · exact keepsSound_replyStation ..

/-! ### Vouchers made, voided and freed -/

theorem keepsSound_createVoucher (sale : Nat) (slot : Option Nat) (code value : Nat) (fromReserved : Bool) (s : State) :
    KeepsSound s (createVoucher sale slot code value fromReserved s) := by
  rw [createVoucher_frame]
  exact (keepsSound_putVoucher fun _ => ⟨rfl, Nat.zero_le 3, Nat.zero_le 3, fun _ => Nat.zero_lt_succ 2⟩).trans (.of_book rfl)

theorem keepsSound_createVouchers (sale : Nat) (slot : Option Nat) (fromReserved : Bool) : ∀ (l : List (Nat × Nat)) (s : State),
    KeepsSound s (createVouchers sale slot fromReserved l s).1
  | [], s => .refl s
  | (_, _) :: l, _ => (keepsSound_createVouchers sale slot fromReserved l _).after (keepsSound_createVoucher ..)

theorem keepsSound_enterSale (n : Nat) (x : Sale) (m : Summary) (holds : List Nat) (fromReserved : Bool) (s : State) :
    KeepsSound s (enterSale n x m holds fromReserved s) := by
  unfold enterSale
  refine (keepsSound_modifySale ..).after ((keepsSound_createVouchers ..).after (.of_book ?_))
  rw [sellHolds_frame]
  rfl

theorem keepsSound_commit (st : Station) (auth : Auth) (room : Nat) (s : State) : KeepsSound s (commit st auth room s) := by
  have queued (n : Nat) (t : State) : KeepsSound t (queueSale st n room t) := by
    unfold queueSale
    split <;> exact .of_book rfl
  exact (queued _ _).after ((keepsSound_enterSale ..).after (.of_book rfl))

theorem keepsSound_takeSiteSell (tag : Tag) (hold : Nat) (h : Hold) (ref : Chars 8) (m : Summary) (s : State) :
    KeepsSound s (takeSiteSell tag hold h ref m s) := by
  unfold takeSiteSell
  dsimp only
  split
  · exact keepsSound_enterSale ..
  · exact (keepsSound_replySite ..).after ((keepsSound_writeFree ..).after (keepsSound_enterSale ..))

theorem keepsSound_siteSell (tag : Tag) (hold : Nat) (ref : Chars 8) (cats : List Nat) (snacks : List SnackLine) (s : State) :
    KeepsSound s (siteSell tag hold ref cats snacks s) := by
  unfold siteSell siteSellHold
  repeat' split
  all_goals simp [keepsSound_takeSiteSell]

theorem keepsSound_voidVoucher (serial : Nat) (s : State) : KeepsSound s (voidVoucher serial s) := by
  have voided {v : Voucher} (hv : s.voucher serial = some v) :
      KeepsSound s (putVoucher serial { v with state := .void, counted := false } s) :=
    keepsSound_putVoucher fun hs => (hs.voucher hv).closed rfl rfl rfl (hs.voucher hv).wrong (by simp)
  unfold voidVoucher
  split
  · exact .refl s
  · next v hv =>
    dsimp only
    split
    · exact .refl s
    · exact .refl s
    all_goals
      split
      · exact (voided hv).trans (.of_book (by simp))
      · exact voided hv

theorem keepsSound_takeRefund (tag : Tag) (n : Nat) (x : Sale) (s : State) : KeepsSound s (takeRefund tag n x s) := by
  have seats : KeepsSound s (x.seats.foldl (fun s l => mapSeats l.ref.slot [refPos l.ref] Seat.refund s) s) :=
    .foldl _ (fun _ _ => .of_book (voucherBook_mapSeats ..)) ..
  have vouchers (t : State) : KeepsSound t (x.serials.foldl (fun s v => voidVoucher v s) t) :=
    .foldl _ (fun s v => keepsSound_voidVoucher v s) ..
  exact (keepsSound_replySite ..).after ((keepsSound_modifySale ..).after ((keepsSound_writeFree ..).after
    (KeepsSound.after (.of_book (voucherBook_removeOrders ..)) ((vouchers _).after seats))))

theorem keepsSound_refund (tag : Tag) (n : Nat) (s : State) : KeepsSound s (refund tag n s) := by
  unfold refund
  repeat' split
  all_goals simp [keepsSound_takeRefund]

/-- A retirement frees vouchers, and changes none (R178). -/
theorem keepsSound_retireScreening (tag : Tag) (slot : Nat) (s : State) : KeepsSound s (retireScreening tag slot s) := by
  have taken : KeepsSound s (takeRetire tag slot s) :=
    (keepsSound_replySite ..).after (.of_subset rfl fun _ he => (List.mem_filter.mp he).1)
  have freed (c : Code) (vs : List Val) : KeepsSound s (replySite tag c vs (delScreening slot s)) := .of_book (by simp)
  unfold retireScreening
  repeat' split
  all_goals simp [taken, freed]

/-! ### The print channel -/

theorem keepsSound_completeSource (o : Order) (s : State) : KeepsSound s (completeSource o s) := by
  unfold completeSource
  split
  · split
    · exact .of_book (voucherBook_mapSeats ..)
    · exact keepsSound_modifyVoucher fun _ _ h => h.complete
    · exact .refl s
  · exact .refl s

theorem keepsSound_unsureSource (o : Order) (s : State) : KeepsSound s (unsureSource o s) := by
  unfold unsureSource
  split
  · split
    · exact .of_book (voucherBook_mapSeats ..)
    · exact keepsSound_modifyVoucher fun _ _ h => h.unsure
    · exact .refl s
  · exact .refl s

/-- An order that passes the checks of Table 8-3 has a source of a generation below 3 (R153). -/
theorem generation_of_dropReason {o : Order} {s : State} (h : dropReason s o = none) : s.generationOf o.item < 3 := by
  unfold dropReason at h
  split_ifs at h with _ _ hgen
  exact Nat.lt_of_not_le hgen

theorem keepsSound_raiseGeneration {o : Order} {s : State} (h : s.generationOf o.item < 3) :
    KeepsSound s (raiseGeneration o s) := by
  unfold raiseGeneration
  split
  · exact .of_book (voucherBook_mapSeats ..)
  · next n hitem =>
    refine keepsSound_modifyVoucher fun v hv hsound => hsound.raise ?_
    simpa [hitem, State.generationOf, hv] using h
  · exact .refl s

theorem keepsSound_startOrder (st : Station) {o : Order} {s : State} (h : dropReason s o = none) :
    KeepsSound s (startOrder st o s) := by
  unfold startOrder
  exact (keepsSound_modifyLane ..).after (keepsSound_raiseGeneration (generation_of_dropReason h))

theorem keepsSound_startNext (st : Station) : ∀ (fuel : Nat) (s : State), KeepsSound s (startNext st fuel s).1
  | 0, s => .refl s
  | fuel + 1, s => by
    have dropped (o : Order) (reason : Option LimitReason) : KeepsSound s (dropAtStart st o reason s) :=
      .of_book (by cases reason <;> simp [dropAtStart])
    unfold startNext
    split
    · exact .refl s
    · split
      · exact (keepsSound_startNext st fuel _).after (dropped ..)
      · next hpass => exact keepsSound_startOrder st hpass

theorem keepsSound_setMover (m : Mover) (s : State) : KeepsSound s (setMover m s) := .of_book (voucherBook_setMover ..)

theorem keepsSound_sendBurst (st : Station) (s : State) : KeepsSound s (sendBurst st s) :=
  (keepsSound_setMover ..).after (.foldl _ (fun s r => keepsSound_emit (.printer st) r s) _ s)

theorem keepsSound_grant (st : Station) (s : State) : KeepsSound s (grant st s).1 := by
  unfold grant
  split
  · exact keepsSound_sendBurst ..
  · dsimp only
    split
    · exact (keepsSound_sendBurst ..).after (keepsSound_startNext ..)
    · exact keepsSound_startNext ..

theorem keepsSound_arbitrate (out : Option Station) : ∀ (fuel : Nat) (s : State), KeepsSound s (arbitrate out fuel s)
  | 0, s => .refl s
  | fuel + 1, s => by
    unfold arbitrate
    split
    · exact .refl s
    · dsimp only
      split
      · exact keepsSound_grant ..
      · exact (keepsSound_arbitrate out fuel _).after (keepsSound_grant ..)

theorem keepsSound_endBurst (out : Option Station) (s : State) : KeepsSound s (endBurst out s) :=
  (keepsSound_arbitrate ..).after (keepsSound_setMover ..)

theorem keepsSound_laneComes (st : Station) (s : State) : KeepsSound s (laneComes st s) := by
  unfold laneComes
  split
  · dsimp only
    split
    · exact keepsSound_grant ..
    · exact (keepsSound_arbitrate ..).after (keepsSound_grant ..)
  · exact .refl s

theorem keepsSound_acceptRecord (st : Station) (k lvl : Nat) (s : State) : KeepsSound s (acceptRecord st k lvl s) := by
  unfold acceptRecord acceptBurst
  split
  · split
    · dsimp only
      split
      · exact (keepsSound_endBurst ..).after (.of_book (by simp [orderDone]))
      · exact (keepsSound_endBurst ..).after (keepsSound_modifyLane ..)
    · exact .refl s
  · exact .refl s

theorem keepsSound_levelRecord (st : Station) (lvl : Nat) (s : State) : KeepsSound s (levelRecord st lvl s) := by
  unfold levelRecord
  split
  · exact (keepsSound_laneComes ..).after (keepsSound_modifyLane ..)
  · exact .refl s

theorem keepsSound_cutDoneRecord (st : Station) (s : State) : KeepsSound s (cutDoneRecord st s) := by
  unfold cutDoneRecord
  split
  · split
    · exact (keepsSound_laneComes ..).after (KeepsSound.after (.of_book (voucherBook_ordersEnded ..))
        ((keepsSound_completeSource ..).after (keepsSound_modifyLane ..)))
    · exact .refl s
  · exact .refl s

theorem keepsSound_laneFault (st : Station) (k : FaultKind) (s : State) : KeepsSound s (laneFault st k s) := by
  have faulted (q : List Order) (t : State) : KeepsSound t (printFault st k (q.foldl (fun s o => unsureSource o s) t)) :=
    (keepsSound_emit ..).after (.foldl _ (fun s o => keepsSound_unsureSource o s) q t)
  unfold laneFault suspendLane
  split
  · dsimp only
    split
    · exact (keepsSound_endBurst ..).after ((faulted ..).after (keepsSound_modifyLane ..))
    · exact (faulted ..).after (keepsSound_modifyLane ..)
  · exact (keepsSound_emit ..).after (keepsSound_modifyLane ..)

theorem keepsSound_faultRecord (st : Station) (kind : PrinterFault) (k : Nat) (s : State) :
    KeepsSound s (faultRecord st kind k s) := by
  unfold faultRecord
  split
  · exact keepsSound_laneFault ..
  · exact .refl s

theorem keepsSound_burstDeadlineReached (s : State) : KeepsSound s (burstDeadlineReached s) := by
  unfold burstDeadlineReached
  split
  · split
    · exact keepsSound_laneFault ..
    · exact .refl s
  · exact .refl s

theorem keepsSound_cutDeadlineReached (st : Station) (s : State) : KeepsSound s (cutDeadlineReached st s) := by
  unfold cutDeadlineReached
  split
  · exact keepsSound_laneFault ..
  · exact .refl s

theorem keepsSound_settlingReached (st : Station) (s : State) : KeepsSound s (settlingReached st s) := by
  unfold settlingReached
  split
  · exact (keepsSound_laneComes ..).after (keepsSound_modifyLane ..)
  · exact .refl s

theorem keepsSound_resumeWith {answer : Code → List Val → State → State} (h : ∀ c vs s, KeepsSound s (answer c vs s))
    (st : Station) (s : State) : KeepsSound s (resumeWith answer st s) := by
  have suppressed (dropped : List Order) (t : State) (n : Nat) : KeepsSound t (suppressSale st dropped t n) :=
    .of_book (by simp [suppressSale])
  have resumed (k : FaultKind) : KeepsSound s (resumeLane st k s) := by
    unfold resumeLane
    dsimp only
    split
    · exact (KeepsSound.foldl _ (suppressed _) ..).after (keepsSound_modifyLane ..)
    · exact keepsSound_modifyLane ..
  unfold resumeWith
  split
  · exact h ..
  · split
    · exact (h ..).after ((keepsSound_laneComes ..).after (resumed _))
    · exact h ..

theorem keepsSound_resumePrint (sender : ResumeSender) (tag : Tag) (s : State) : KeepsSound s (resumePrint sender tag s) := by
  unfold resumePrint
  split
  · next st => exact keepsSound_stationRequest _ _ _ (keepsSound_resumeWith (keepsSound_replyStation st tag) st s)
  · split
    · exact keepsSound_resumeWith (keepsSound_replySite tag) _ s
    · exact keepsSound_replySite ..

theorem keepsSound_reprint (tag : Tag) (n : Nat) (item : ReprintItem) (station : Nat) (s : State) :
    KeepsSound s (reprint tag n item station s) := by
  have taken (o : OrderItem) (st : Station) : KeepsSound s (takeReprint tag n o st s) :=
    (keepsSound_replySite ..).after ((keepsSound_laneComes ..).after ((keepsSound_modifyLane ..).after (keepsSound_modifySale ..)))
  unfold reprint reprintOf
  dsimp only
  repeat' split
  all_goals simp [taken]

theorem keepsSound_collect (st : Station) (tag : Tag) (ref : Chars 8) (s : State) : KeepsSound s (collect st tag ref s) := by
  have taken (n : Nat) (x : Sale) : KeepsSound s (takeCollect st tag n x s) :=
    (keepsSound_replyStation ..).after ((keepsSound_laneComes ..).after
      ((keepsSound_modifyLane ..).after (keepsSound_modifySale ..)))
  unfold collect
  repeat' split
  all_goals simp [taken]

/-! ### Payments approved, and lines lost -/

theorem keepsSound_outcomeRecord (st : Station) (o : TermOutcome) (s : State) : KeepsSound s (outcomeRecord st o s) := by
  have approved (p : Payment) (auth : Auth) : KeepsSound s (approve st p auth s) :=
    (keepsSound_laneComes ..).after ((keepsSound_emit ..).after ((keepsSound_emit ..).after
      (KeepsSound.after (.of_book (voucherBook_setPayment ..)) (keepsSound_commit ..))))
  have ended (p : Payment) (out : Option PayOutcome) : KeepsSound s (endWithoutSale st p out s) :=
    .of_book (voucherBook_endWithoutSale ..)
  unfold outcomeRecord
  split
  · exact .refl s
  · split
    · split
      · exact approved ..
      all_goals exact ended ..
    · split
      · exact .of_book (by simp [reverseApproval])
      all_goals exact ended ..
    all_goals exact .refl s

theorem keepsSound_siteReset (tag : Tag) (s : State) : KeepsSound s (siteReset tag s) := by
  have answered (before t : State) (st : Station) : KeepsSound t (answerReset before t st) := by
    unfold answerReset
    split <;> exact .of_book (by simp)
  have aborted (before t : State) (st : Station) : KeepsSound t (abortReset before t st) := by
    unfold abortReset
    split <;> exact .of_book (by simp)
  exact (KeepsSound.foldl _ (aborted s) ..).after ((KeepsSound.foldl _ (answered s) ..).after
    ((keepsSound_replySite ..).after (.of_empty rfl)))

theorem keepsSound_lineLost (l : Line) (s : State) : KeepsSound s (lineLost l s) := by
  have reported (t : State) : KeepsSound t (reportLoss l t) := by
    unfold reportLoss
    split
    · exact .refl t
    · exact .of_book (voucherBook_stationLost ..)
    · exact .of_book (voucherBook_terminalLost ..)
    · unfold printerLost
      split
      · exact keepsSound_laneFault ..
      · exact .refl t
  unfold lineLost
  split
  · exact .refl s
  · exact KeepsSound.after (.of_book (voucherBook_noticeLine ..)) ((reported _).after (.of_book (voucherBook_modifyLine ..)))

/-! ### Every step -/

theorem KeepsSound.of_next {s t u : State} (h : (Host.Outcome.next u : Host.Outcome State Fault Refusal) = .next t)
    (m : KeepsSound s u) : KeepsSound s t := by cases h; exact m

/-- A command that leaves the voucher table and the seed as they are. -/
theorem KeepsSound.of_next_book {s t u : State} (h : (Host.Outcome.next u : Host.Outcome State Fault Refusal) = .next t)
    (m : u.voucherBook = s.voucherBook) : KeepsSound s t := .of_next h (.of_book m)

/-- Every command keeps the voucher records sound. -/
theorem keepsSound_exec {c : Instr} {s t : State} (h : exec c s = .next t) : KeepsSound s t :=
  match c, h with
  | .powerOn, h => .of_next h (.of_empty rfl)
  | .reset .., h => .of_next h (keepsSound_siteReset ..)
  | .beginScreening .., h => .of_next_book h (voucherBook_beginScreening ..)
  | .seatRow .., h => .of_next_book h (voucherBook_seatRow ..)
  | .endLoad .., h => .of_next_book h (voucherBook_endLoad ..)
  | .stopSales .., h => .of_next_book h (voucherBook_stopSales ..)
  | .retireScreening .., h => .of_next h (keepsSound_retireScreening ..)
  | .blockSeats .., h => .of_next_book h (voucherBook_treatSlot ..)
  | .unblockSeats .., h => .of_next_book h (voucherBook_treatSlot ..)
  | .querySeats .., h => .of_next_book h (voucherBook_querySeats ..)
  | .queryMap .., h => .of_next_book h (voucherBook_stationRequest _ _ _ (voucherBook_queryMap ..))
  | .holdSeat .., h => .of_next_book h (voucherBook_stationRequest _ _ _ (voucherBook_holdSeat ..))
  | .holdClose .., h => .of_next_book h (voucherBook_stationRequest _ _ _ (voucherBook_holdClose ..))
  | .gatheringWindowExpiry _, h => .of_next_book h (voucherBook_windowReached ..)
  | .dropHold .., h => .of_next_book h (voucherBook_stationRequest _ _ _ (voucherBook_dropHold ..))
  | .siteHold .., h => .of_next_book h (voucherBook_siteHold ..)
  | .ownDeadlineExpiry _, h => .of_next_book h (voucherBook_ownReached ..)
  | .siteRelease .., h => .of_next_book h (voucherBook_siteRelease ..)
  | .siteSell .., h => .of_next h (keepsSound_siteSell ..)
  | .setCategory .., h => .of_next_book h (voucherBook_stationRequest _ _ _ (voucherBook_setCategory ..))
  | .addSnack .., h => .of_next_book h (voucherBook_stationRequest _ _ _ (voucherBook_addSnack ..))
  | .removeSnack .., h => .of_next_book h (voucherBook_stationRequest _ _ _ (voucherBook_removeSnack ..))
  | .price .., h => .of_next_book h (voucherBook_stationRequest _ _ _ (voucherBook_price ..))
  | .abandon .., h => .of_next_book h (voucherBook_stationRequest _ _ _ (voucherBook_abandon ..))
  | .lapseDeadlineReached _, h => .of_next_book h (voucherBook_lapseReached ..)
  | .pay .., h => .of_next_book h (voucherBook_stationRequest _ _ _ (voucherBook_pay ..))
  | .cancelPay .., h => .of_next_book h (voucherBook_stationRequest _ _ _ (voucherBook_cancelPay ..))
  | .selected .., h => .of_next_book h (voucherBook_selectedRecord ..)
  | .selectStepDeadline _, h => .of_next_book h (voucherBook_selectStepReached ..)
  | .progress .., h => .of_next_book h (voucherBook_progressRecord ..)
  | .outcome .., h => .of_next h (keepsSound_outcomeRecord ..)
  | .timeLimit _, h => .of_next_book h (voucherBook_timeLimitReached ..)
  | .abortOutcome .., h => .of_next h (keepsSound_outcomeRecord ..)
  | .abortStepDeadline _, h => .of_next_book h (voucherBook_abortStepReached ..)
  | .reversed _, h => .of_next_book h (voucherBook_reversedRecord ..)
  | .reverseStepDeadline _, h => .of_next_book h (voucherBook_reverseStepReached ..)
  | .captured _, h => .of_next_book h (voucherBook_capturedRecord ..)
  | .captureStepDeadline _, h => .of_next_book h (voucherBook_captureStepReached ..)
  | .refund .., h => .of_next h (keepsSound_refund ..)
  | .querySale .., h => .of_next_book h (voucherBook_querySale ..)
  | .journalRead _, h => .of_next_book h (voucherBook_replySite ..)
  | .journalRelease .., h => .of_next_book h (voucherBook_journalRelease ..)
  | .loadTariff .., h => .of_next_book h (voucherBook_loadTariff ..)
  | .loadSnacks .., h => .of_next_book h (voucherBook_loadSnacks ..)
  | .setAllowance .., h => .of_next h (keepsSound_setAllowance ..)
  | .querySnacks .., h => .of_next_book h (voucherBook_querySnacks ..)
  | .loadSeed .., h => .of_next h (keepsSound_loadSeed ..)
  | .redeem .., h => .of_next h (keepsSound_stationRequest _ _ _ (keepsSound_redeem ..))
  | .unlockVoucher .., h => .of_next h (keepsSound_unlockVoucher ..)
  | .queryVoucher .., h => .of_next_book h (voucherBook_stationRequest _ _ _ (voucherBook_queryVoucher ..))
  | .reprint .., h => .of_next h (keepsSound_reprint ..)
  | .collect .., h => .of_next h (keepsSound_stationRequest _ _ _ (keepsSound_collect ..))
  | .resumePrint .., h => .of_next h (keepsSound_resumePrint ..)
  | .accept .., h => .of_next h (keepsSound_acceptRecord ..)
  | .level .., h => .of_next h (keepsSound_levelRecord ..)
  | .cutDone _, h => .of_next h (keepsSound_cutDoneRecord ..)
  | .fault .., h => .of_next h (keepsSound_faultRecord ..)
  | .clear _, h => .of_next_book h (voucherBook_clearRecord ..)
  | .burstDeadline, h => .of_next h (keepsSound_burstDeadlineReached ..)
  | .cutDeadline _, h => .of_next h (keepsSound_cutDeadlineReached ..)
  | .settlingDeadline _, h => .of_next h (keepsSound_settlingReached ..)
  | .configStation .., h => .of_next_book h (voucherBook_configStation ..)
  | .setLimits .., h => .of_next_book h (voucherBook_changeLimits ..)
  | .siteStatus _, h => .of_next_book h (voucherBook_replySite ..)
  | .status .., h => .of_next_book h (voucherBook_stationRequest _ _ _ (voucherBook_replyStation ..))
  | .reject .., h => .of_next_book h (voucherBook_emit ..)
  | .lineLost _, h => .of_next h (keepsSound_lineLost ..)
  | .lineRegained _, h => .of_next_book h (voucherBook_lineRegained ..)
  | .frameError .., h => .of_next_book h (voucherBook_frameError ..)
  | .frameTimeout _, h => .of_next_book h (voucherBook_modifyLine ..)
  | .trainTimeout _, h => .of_next_book h (voucherBook_trainTimeout ..)
  | .trainInterrupted .., h => .of_next_book h (voucherBook_trainInterrupted ..)
  | .recordSent _, h => .of_next_book h (voucherBook_recordSent ..)
  | .breakBegins _, h => .of_next_book h (voucherBook_breakBegins ..)
  | .breakEnds _, h => .of_next_book h (voucherBook_breakEnds ..)

/-- Settles O7: a record is made sound, each change of it keeps it sound, and the seed changes with no record held. -/
theorem vouchersStaySound : Obligations.VouchersStaySound := by
  intro s t hs h
  unfold step at h
  split at h
  · next c rest _ =>
    have popped : VouchersSound { s with pending := rest } := hs
    exact (keepsSound_exec h).sound popped
  · exact (KeepsSound.of_next_book h (voucherBook_idle s)).sound hs

end Sys2Proof.Machine
end

section
/-! The requests of the voucher table past their checks: SET-ALLOWANCE and the low notice (R165, R167): O49; LOAD-SEED and
UNLOCK-VOUCHER (R172, R176): O50; and REDEEM (R173 to R175): O51. -/

namespace Sys2Proof.Machine

/-! ### SET-ALLOWANCE and the low notice (R165, R167) -/

/-- The counts of an item and the marks of its vouchers before SET-ALLOWANCE applies its figures: as they are, or restarted. -/
def allowanceBase (code : Nat) (restart : Bool) (s : State) : State :=
  if restart then
    { modifyItem code (fun x => { x with issued := 0 }) s with
      vouchers := s.vouchers.map (fun e => if e.2.item = code then (e.1, { e.2 with counted := false }) else e) }
  else s

/-- The item a SET-ALLOWANCE leaves, before the low notice is judged. -/
def Item.allowed (allowance lowMark : Nat) (x : Item) : Item :=
  { x with allowance := max allowance (x.issued + x.reserved), lowMark := lowMark }

section

variable {code : Nat} {restart : Bool} {s : State}

theorem allowanceBase_frame : allowanceBase code restart s = { s with
    items := (allowanceBase code restart s).items, vouchers := (allowanceBase code restart s).vouchers } := by
  unfold allowanceBase
  split
  · rw [modifyItem_frame]
  · rfl

theorem vouchers_allowanceBase : (allowanceBase code restart s).vouchers = if restart then
    s.vouchers.map (fun e => if e.2.item = code then (e.1, { e.2 with counted := false }) else e) else s.vouchers := by
  unfold allowanceBase
  split <;> rfl

theorem item_allowanceBase (c : Nat) : (allowanceBase code restart s).item c = if c = code then
    (s.item c).map (fun x => { x with issued := if restart then 0 else x.issued }) else s.item c := by
  unfold allowanceBase
  split
  · exact item_modifyItem ..
  · simp

/-- SET-ALLOWANCE with its fields in range (R165). -/
theorem setAllowance_of_range {a low : Nat} {y : Item} (hy : (allowanceBase code restart s).item code = some y) (ha : a ≤ 9999)
    (hlow : low ≤ 9999) (tag : Tag) : ∃ vs, setAllowance tag code a low restart s =
      replySite tag .ok vs (judgeLow code (setItem code (y.allowed a low) (allowanceBase code restart s))) := by
  have hcode : itemOk code = true := within_iff.mpr (item_code_range hy)
  unfold setAllowance
  rw [if_pos (by simp [hcode, ha, hlow])]
  dsimp only
  generalize hbase : (if restart then _ else s) = base
  obtain rfl : allowanceBase code restart s = base := hbase
  rw [hy]
  exact ⟨_, rfl⟩

/-- What a SET-ALLOWANCE leaves of the items: the figures applied, and the armed flag as the low notice is judged. -/
theorem item_judgeLow_allowed {a low c : Nat} {y : Item} (hy : s.item code = some y) :
    (judgeLow code (setItem code (y.allowed a low) s)).item c = if c = code then
      some { y.allowed a low with armed := decide (low < (y.allowed a low).available) } else s.item c := by
  rw [item_judgeLow]
  split
  · next e => rw [e, item_setItem (item_code_range hy)]; rfl
  · next e => exact item_setItem_ne e ..

/-- The low notice is sent and disarmed (R167). -/
theorem judgeLow_of_low {x : Item} (hx : s.item code = some x) (hlow : x.available ≤ x.lowMark) (harmed : x.armed = true) :
    judgeLow code s = emit .site (.lowStock code x.name x.allowance x.issued x.reserved x.available)
      (setItem code { x with armed := false } s) := by simp [judgeLow, hx, hlow, harmed]

theorem judgeLow_of_disarmed {x : Item} (hx : s.item code = some x) (hlow : x.available ≤ x.lowMark) (harmed : x.armed = false) :
    judgeLow code s = s := by simp [judgeLow, hx, hlow, harmed]

/-- The low notice is armed again (R167). -/
theorem judgeLow_of_above {x : Item} (hx : s.item code = some x) (habove : x.lowMark < x.available) :
    judgeLow code s = setItem code { x with armed := true } s := by simp [judgeLow, hx, Nat.not_le.mpr habove]

end

/-- Settles O49: SET-ALLOWANCE writes one item of the base it starts from, and the low notice is judged on that item. -/
theorem allowanceAndLowNotice : Obligations.AllowanceAndLowNotice := by
  unfold Obligations.AllowanceAndLowNotice
  refine ⟨fun tag code a low restart x s hx ha hlow => ?_, fun code x s hx =>
    ⟨judgeLow_of_low hx, judgeLow_of_disarmed hx, judgeLow_of_above hx⟩⟩
  have hbase : (allowanceBase code restart s).item code = some { x with issued := if restart then 0 else x.issued } := by
    rw [item_allowanceBase, if_pos rfl, hx]; rfl
  obtain ⟨vs, htaken⟩ := setAllowance_of_range hbase ha hlow tag
  refine ⟨_, _, congrArg Host.Outcome.next htaken, ?_,
    (item_emit ..).trans ((item_judgeLow_allowed hbase).trans (if_pos rfl)), fun c hc => ?_, ?_⟩
  · rw [replySite, emit_frame, judgeLow_frame, setItem_frame, allowanceBase_frame]
  · rw [replySite, item_emit, item_judgeLow_allowed hbase, if_neg hc, item_allowanceBase, if_neg hc]
  · rw [replySite, emit_vouchers, judgeLow_frame, setItem_frame, ← vouchers_allowanceBase]

/-! ### LOAD-SEED (R172) -/

section

variable (tag : Tag) {seed : Nat} {s : State}

theorem loadSeed_of_bad (h : 65535 < seed) : loadSeed tag seed s = replySite tag .badField [] s := if_pos h

theorem loadSeed_of_held (h : seed ≤ 65535) (hheld : s.vouchers ≠ []) :
    loadSeed tag seed s = replySite tag .busy [.recordsHeld s.vouchers.length] s := by
  simp [loadSeed, Nat.not_lt.mpr h, hheld]

theorem loadSeed_of_empty (h : seed ≤ 65535) (hnone : s.vouchers = []) :
    loadSeed tag seed s = replySite tag .ok [] { s with seed := seed } := by
  simp [loadSeed, Nat.not_lt.mpr h, hnone]

end

/-! ### UNLOCK-VOUCHER (R176) -/

section

variable {serial : Nat} {v : Voucher} {s : State} (hserial : serialOk serial = true) (hv : s.voucher serial = some v)

include hserial hv

theorem unlockVoucher_of_locked (hlocked : v.state = .locked)
    (hfree : s.laneWith (fun o => decide (o.item = .stub serial)) = none) (tag : Tag) :
    unlockVoucher tag serial s =
      replySite tag .ok [.generation v.gen] (putVoucher serial { v with state := .issued, wrong := 0 } s) := by
  simp [unlockVoucher, hserial, hv, hlocked, hfree]

theorem unlockVoucher_of_unlocked (hstate : v.state ≠ .locked) (tag : Tag) :
    unlockVoucher tag serial s = replySite tag .notLocked [.voucherStateName v.state.name] s := by
  simp [unlockVoucher, hserial, hv, hstate]

end

/-- Settles O50: each request past its checks. -/
theorem seedAndUnlock : Obligations.SeedAndUnlock := by
  unfold Obligations.SeedAndUnlock
  refine ⟨fun tag seed s => ⟨fun h => ?_, fun h hheld => ?_, fun h hnone => ?_⟩, fun tag serial v s hlow hhigh hv => ?_⟩
  · exact congrArg Host.Outcome.next (loadSeed_of_bad tag h)
  · exact congrArg Host.Outcome.next (loadSeed_of_held tag h hheld)
  · exact congrArg Host.Outcome.next (loadSeed_of_empty tag h hnone)
  · have hserial : serialOk serial = true := within_iff.mpr ⟨hlow, hhigh⟩
    refine ⟨fun hlocked hlanes => ?_, fun hstate => ?_⟩
    · have hfree : s.laneWith (fun o => decide (o.item = .stub serial)) = none :=
        laneWith_eq_none.mpr fun st o ho => by simpa using hlanes st o ho
      exact congrArg Host.Outcome.next (unlockVoucher_of_locked hserial hv hlocked hfree tag)
    · exact congrArg Host.Outcome.next (unlockVoucher_of_unlocked hserial hv hstate tag)

/-! ### REDEEM (R173 to R175) -/

/-- A record written to the journal is told to the site server at most (R125). -/
theorem line_writeFree_ne {l : Line} (h : l ≠ .site) (sale : Option Nat) (amount : Nat) (body : JournalBody) (s : State) :
    (writeFree sale amount body s).line l = s.line l := line_judgeJournal_ne h _

section

variable {st : Station} {serial : Nat} {v : Voucher} {s : State} (hserial : serialOk serial = true)
  (hv : s.voucher serial = some v) (hissued : v.state = .issued) (tag : Tag)

include hserial hv hissued

theorem redeem_of_code (hcode : codeOk v.code = true) (hfree : s.journalFree ≠ 0) :
    redeem st tag serial v.code s = takeRedeem st tag serial v s := by
  simp [redeem, hserial, hcode, hv, hissued, hfree]

theorem redeem_of_wrong {code : Nat} (hcode : codeOk code = true) (hne : code ≠ v.code) :
    redeem st tag serial code s = wrongCode st tag serial v s := by
  simp [redeem, hserial, hcode, hv, hissued, hne]

end

section

variable (st : Station) (tag : Tag) (serial : Nat) (v : Voucher) (s : State)

/-- Every field that a redemption can change (R173). -/
theorem takeRedeem_frame : takeRedeem st tag serial v s = { s with
    vouchers := s.vouchers.put serial { v with state := .redeemed st s.timeBase },
    journal := s.journal ++ [⟨s.nextSeq, s.timeBase, some v.sale, v.value, .redemption serial v.item st⟩],
    nextSeq := succWrap Config.maxSequence s.nextSeq,
    journalArmed := (takeRedeem st tag serial v s).journalArmed, lines := (takeRedeem st tag serial v s).lines } := by
  unfold takeRedeem replyStation
  rw [emit_frame, writeFree_frame]
  rfl

/-- The till is told of the redemption behind what waits on its link. -/
theorem out_takeRedeem (hup : s.isLost (.station st) = false) : ((takeRedeem st tag serial v s).line (.station st)).out =
    (s.line (.station st)).out ++ [.reply tag .ok [.serial serial, .itemCode v.item,
      .itemName ((s.item v.item).map (·.name)), .startTime (s.startOf v.slot)]] := by
  have hline : (writeFree (some v.sale) v.value (.redemption serial v.item st)
      (putVoucher serial { v with state := .redeemed st s.timeBase } s)).line (.station st) = s.line (.station st) :=
    line_writeFree_ne (by simp) ..
  unfold takeRedeem replyStation
  rw [out_emit_of_line hline hup]

variable {v}

theorem wrongCode_of_first (h : v.wrong + 1 < 3) : wrongCode st tag serial v s =
    emit (.station st) (.reply tag .badCode [.wrongCount (v.wrong + 1)])
      (putVoucher serial { v with wrong := v.wrong + 1 } s) := if_pos h

theorem wrongCode_of_third (h : v.wrong + 1 = 3) : wrongCode st tag serial v s =
    emit .site (.voucherLocked serial v.item v.sale st)
      (emit (.station st) (.reply tag .badCode [.wrongCount 3, .nowLocked])
        (putVoucher serial { v with wrong := 3, state := .locked } s)) := by
  unfold wrongCode
  rw [h]
  rfl

end

/-- Settles O51: the checks of REDEEM lead to the redemption, or to the judging of a wrong code. -/
theorem redeemJudged : Obligations.RedeemJudged := by
  unfold Obligations.RedeemJudged
  refine ⟨fun st tag serial v s htakes hlow hhigh hcode hv hissued hfree => ?_,
    fun st tag serial code v s htakes hlow hhigh hcode hv hissued hne => ?_⟩
  · have htaken := redeem_of_code (st := st) (within_iff.mpr ⟨hlow, hhigh⟩) hv hissued tag (decide_eq_true hcode)
      ((journalFree_iff s).mpr hfree)
    exact ⟨takeRedeem st tag serial v s, congrArg Host.Outcome.next ((stationRequest_of_takes htakes tag _).trans htaken),
      takeRedeem_frame .., fun hup => out_takeRedeem st tag serial v s hup⟩
  · have hjudged := (stationRequest_of_takes htakes tag _).trans
      (redeem_of_wrong (st := st) (within_iff.mpr ⟨hlow, hhigh⟩) hv hissued tag (decide_eq_true hcode) hne)
    exact ⟨fun h => congrArg Host.Outcome.next (hjudged.trans (wrongCode_of_first st tag serial s h)),
      fun h => congrArg Host.Outcome.next (hjudged.trans (wrongCode_of_third st tag serial s h))⟩

end Sys2Proof.Machine
end

section
/-! What the link unit keeps beside the records that wait: requests in progress, selections, configuration, limits, time and the gear of
the lines; and the operations that leave all of it. -/

namespace Sys2Proof.Machine

/-! ### The link unit's book -/

/-- A line beside the records that wait on it: its state, watch, check-error count, receiver and train. -/
def LineRec.gear (r : LineRec) : LineRec := { r with out := [] }

/-- Is the payment of a station SELECTING? -/
def State.selecting (s : State) (st : Station) : Bool := (s.payment st).any (fun p => decide (p.phase = .selecting))

/-- What the rules of the link unit read beside the records that wait. -/
structure LinkBook where
  requests : Vector (Option Request) 8
  selecting : Station → Bool
  stations : Vector StationConfig 8
  limits : Limits
  timeBase : Time
  gear : Line → LineRec

/-- The link unit's book of a state. -/
def State.linkBook (s : State) : LinkBook :=
  { requests := s.requests, selecting := s.selecting, stations := s.stations, limits := s.limits, timeBase := s.timeBase,
    gear := fun l => (s.line l).gear }

/-- A change of lines that keeps their gear. -/
theorem linkBook_of_gear {s t : State} (h : ∀ l, (t.line l).gear = (s.line l).gear)
    (hrest : { t with lines := s.lines }.linkBook = s.linkBook) : t.linkBook = s.linkBook := by
  obtain ⟨h1, h2, h3, h4, h5, -⟩ := LinkBook.mk.inj hrest
  exact LinkBook.mk.injEq .. ▸ ⟨h1, h2, h3, h4, h5, funext h⟩

/-- A payment context changed at one station changes the selections of that station alone. -/
theorem selecting_setPay (st : Station) (c : PayContext) (s : State) : (setPay st c s).selecting =
    Function.update s.selecting st (c.current.any (fun p => decide (p.phase = .selecting))) := by
  funext m
  by_cases h : m = st
  · subst h; simp [State.selecting, State.payment]
  · have other : (setPay st c s).pay m = s.pay m := by
      simp only [State.pay, setPay_pays, Fin.getElem_fin]
      exact Vector.getElem_set_ne _ _ fun e => h (Fin.ext e.symm)
    simp [State.selecting, State.payment, other, h]

/-! ### Operations that leave the book -/

@[simp] theorem gear_line_emit (l m : Line) (r : OutRec) (s : State) : ((emit l r s).line m).gear = (s.line m).gear := by
  by_cases h : m = l
  · subst h
    unfold emit modifyLine
    split
    · rfl
    · rw [line_setLine]; rfl
  · rw [line_emit_ne h]

@[simp] theorem linkBook_emit (l : Line) (r : OutRec) (s : State) : (emit l r s).linkBook = s.linkBook :=
  linkBook_of_gear (fun m => gear_line_emit l m r s) (by rw [emit_frame])

@[simp] theorem linkBook_replySite (tag : Tag) (c : Code) (vs : List Val) (s : State) :
    (replySite tag c vs s).linkBook = s.linkBook := linkBook_emit ..

@[simp] theorem linkBook_replyStation (st : Station) (tag : Tag) (c : Code) (vs : List Val) (s : State) :
    (replyStation st tag c vs s).linkBook = s.linkBook := linkBook_emit ..

@[simp] theorem linkBook_modifyBasket (st : Station) (f : Basket → Basket) (s : State) :
    (modifyBasket st f s).linkBook = s.linkBook := rfl

@[simp] theorem linkBook_modifyLane (st : Station) (f : Lane → Lane) (s : State) :
    (modifyLane st f s).linkBook = s.linkBook := rfl

@[simp] theorem linkBook_setMover (m : Mover) (s : State) : (setMover m s).linkBook = s.linkBook := rfl

@[simp] theorem linkBook_setSent (l : Line) (fs : List (List Byte)) (s : State) : (setSent l fs s).linkBook = s.linkBook := rfl

@[simp] theorem linkBook_putScreening (slot : Nat) (x : Screening) (s : State) :
    (putScreening slot x s).linkBook = s.linkBook := rfl

@[simp] theorem linkBook_delScreening (slot : Nat) (s : State) : (delScreening slot s).linkBook = s.linkBook := rfl

@[simp] theorem linkBook_putHold (n : Nat) (x : Hold) (s : State) : (putHold n x s).linkBook = s.linkBook := rfl

@[simp] theorem linkBook_putVoucher (n : Nat) (x : Voucher) (s : State) : (putVoucher n x s).linkBook = s.linkBook := rfl

@[simp] theorem linkBook_mapSeats (slot : Nat) (ps : List SeatPos) (f : Seat → Seat) (s : State) :
    (mapSeats slot ps f s).linkBook = s.linkBook := by rw [mapSeats_frame]; rfl

@[simp] theorem linkBook_modifySale (n : Nat) (f : Sale → Sale) (s : State) :
    (modifySale n f s).linkBook = s.linkBook := by rw [modifySale_frame]; rfl

@[simp] theorem linkBook_modifyVoucher (n : Nat) (f : Voucher → Voucher) (s : State) :
    (modifyVoucher n f s).linkBook = s.linkBook := by rw [modifyVoucher_frame]; rfl

@[simp] theorem linkBook_setItem (code : Nat) (x : Item) (s : State) : (setItem code x s).linkBook = s.linkBook := by
  rw [setItem_frame]; rfl

@[simp] theorem linkBook_modifyItem (code : Nat) (f : Item → Item) (s : State) :
    (modifyItem code f s).linkBook = s.linkBook := by rw [modifyItem_frame]; rfl

@[simp] theorem linkBook_releaseHold (n : Nat) (s : State) : (releaseHold n s).linkBook = s.linkBook := by
  rw [releaseHold_frame]; rfl

@[simp] theorem linkBook_setHoldPhases (st : Station) (ph : HoldPhase) (s : State) :
    (setHoldPhases st ph s).linkBook = s.linkBook := by rw [setHoldPhases_frame]; rfl

@[simp] theorem linkBook_judgeLow (code : Nat) (s : State) : (judgeLow code s).linkBook = s.linkBook := by
  unfold judgeLow
  repeat' split
  all_goals simp

@[simp] theorem linkBook_judgeJournal (s : State) : (judgeJournal s).linkBook = s.linkBook := by
  unfold judgeJournal
  split
  · split
    · rw [linkBook_emit]; rfl
    · rfl
  · rfl

@[simp] theorem linkBook_reserveUnits (code qty : Nat) (s : State) : (reserveUnits code qty s).linkBook = s.linkBook := by
  simp [reserveUnits]

@[simp] theorem linkBook_returnUnits (code qty : Nat) (s : State) : (returnUnits code qty s).linkBook = s.linkBook := by
  simp [returnUnits]

@[simp] theorem linkBook_writeReserved (sale : Option Nat) (amount : Nat) (body : JournalBody) (s : State) :
    (writeReserved sale amount body s).linkBook = s.linkBook := rfl

@[simp] theorem linkBook_writeFree (sale : Option Nat) (amount : Nat) (body : JournalBody) (s : State) :
    (writeFree sale amount body s).linkBook = s.linkBook := linkBook_judgeJournal _

/-! ### Baskets, sales and printing leave the book -/

@[simp] theorem linkBook_basketChange (st : Station) (s : State) : (basketChange st s).linkBook = s.linkBook := rfl

@[simp] theorem linkBook_basketGains (st : Station) (f : Basket → Basket) (s : State) :
    (basketGains st f s).linkBook = s.linkBook := by rw [basketGains_frame]; rfl

@[simp] theorem linkBook_emptyBasket (st : Station) (s : State) : (emptyBasket st s).linkBook = s.linkBook :=
  (foldl_keeps State.linkBook _ (fun s (x : SnackLine) => linkBook_returnUnits x.item x.qty s) _ _).trans
    (foldl_keeps State.linkBook _ (fun s n => linkBook_releaseHold n s) _ s)

@[simp] theorem linkBook_basketLoses (st : Station) (s : State) : (basketLoses st s).linkBook = s.linkBook := by
  unfold basketLoses
  split <;> simp

@[simp] theorem linkBook_settleBasket (st : Station) (s : State) : (settleBasket st s).linkBook = s.linkBook := by
  unfold settleBasket
  dsimp only
  repeat' split
  all_goals simp

@[simp] theorem linkBook_treatBaskets (k : LoadKind) (s : State) : (treatBaskets k s).linkBook = s.linkBook := by
  refine foldl_keeps State.linkBook _ (fun s st => ?_) _ s
  unfold treatBasket
  repeat' split
  all_goals simp

@[simp] theorem linkBook_closeHold (st : Station) (n : Nat) (h : Hold) (s : State) :
    (closeHold st n h s).linkBook = s.linkBook := by
  unfold closeHold
  repeat' split
  all_goals simp [closePasses, closeFails, joinBasket]

@[simp] theorem linkBook_issueUnit (code : Nat) (fromReserved : Bool) (s : State) :
    (issueUnit code fromReserved s).linkBook = s.linkBook := by
  unfold issueUnit
  split <;> simp

@[simp] theorem linkBook_createVouchers (sale : Nat) (slot : Option Nat) (fromReserved : Bool) : ∀ (l : List (Nat × Nat)) (s : State),
    (createVouchers sale slot fromReserved l s).1.linkBook = s.linkBook
  | [], _ => rfl
  | (_, _) :: l, _ => (linkBook_createVouchers sale slot fromReserved l _).trans (linkBook_issueUnit ..)

@[simp] theorem linkBook_enterSale (n : Nat) (x : Sale) (m : Summary) (holds : List Nat) (fromReserved : Bool) (s : State) :
    (enterSale n x m holds fromReserved s).linkBook = s.linkBook := by
  unfold enterSale
  rw [linkBook_modifySale, linkBook_createVouchers, sellHolds_frame]
  rfl

@[simp] theorem linkBook_commit (st : Station) (auth : Auth) (room : Nat) (s : State) : (commit st auth room s).linkBook = s.linkBook := by
  have queued (n : Nat) (t : State) : (queueSale st n room t).linkBook = t.linkBook := by
    unfold queueSale
    split <;> rfl
  exact (queued ..).trans (linkBook_enterSale ..)

@[simp] theorem linkBook_voidVoucher (serial : Nat) (s : State) : (voidVoucher serial s).linkBook = s.linkBook := by
  unfold voidVoucher
  dsimp only
  repeat' split
  all_goals simp

@[simp] theorem linkBook_removeOrders (n : Nat) (s : State) : (removeOrders n s).linkBook = s.linkBook := by
  rw [removeOrders_frame]; rfl

@[simp] theorem linkBook_ordersEnded (st : Station) (n k : Nat) (s : State) : (ordersEnded st n k s).linkBook = s.linkBook := by
  unfold ordersEnded
  split
  · rfl
  · dsimp only
    split
    · exact linkBook_emit ..
    · rfl

@[simp] theorem linkBook_completeSource (o : Order) (s : State) : (completeSource o s).linkBook = s.linkBook := by
  unfold completeSource
  repeat' split
  all_goals simp

@[simp] theorem linkBook_unsureSource (o : Order) (s : State) : (unsureSource o s).linkBook = s.linkBook := by
  unfold unsureSource
  repeat' split
  all_goals simp

@[simp] theorem linkBook_raiseGeneration (o : Order) (s : State) : (raiseGeneration o s).linkBook = s.linkBook := by
  unfold raiseGeneration
  split <;> simp

@[simp] theorem linkBook_dropAtStart (st : Station) (o : Order) (reason : Option LimitReason) (s : State) :
    (dropAtStart st o reason s).linkBook = s.linkBook := by
  cases reason <;> simp [dropAtStart]

@[simp] theorem linkBook_startNext (st : Station) : ∀ (fuel : Nat) (s : State), (startNext st fuel s).1.linkBook = s.linkBook
  | 0, _ => rfl
  | fuel + 1, s => by
    unfold startNext
    split
    · rfl
    · split
      · exact (linkBook_startNext st fuel _).trans (linkBook_dropAtStart ..)
      · simp [startOrder]

@[simp] theorem linkBook_sendBurst (st : Station) (s : State) : (sendBurst st s).linkBook = s.linkBook :=
  foldl_keeps State.linkBook _ (fun s r => linkBook_emit (.printer st) r s) _ s

@[simp] theorem linkBook_grant (st : Station) (s : State) : (grant st s).1.linkBook = s.linkBook := by
  unfold grant
  dsimp only
  repeat' split
  all_goals simp

@[simp] theorem linkBook_arbitrate (out : Option Station) : ∀ (fuel : Nat) (s : State), (arbitrate out fuel s).linkBook = s.linkBook
  | 0, _ => rfl
  | fuel + 1, s => by
    unfold arbitrate
    dsimp only
    repeat' split
    all_goals simp [linkBook_arbitrate out fuel]

@[simp] theorem linkBook_endBurst (out : Option Station) (s : State) : (endBurst out s).linkBook = s.linkBook :=
  linkBook_arbitrate ..

@[simp] theorem linkBook_laneComes (st : Station) (s : State) : (laneComes st s).linkBook = s.linkBook := by
  unfold laneComes
  dsimp only
  repeat' split
  all_goals simp

@[simp] theorem linkBook_laneFault (st : Station) (k : FaultKind) (s : State) : (laneFault st k s).linkBook = s.linkBook := by
  have unsure (q : List Order) (t : State) : (q.foldl (fun s o => unsureSource o s) t).linkBook = t.linkBook :=
    foldl_keeps State.linkBook _ (fun s o => linkBook_unsureSource o s) q t
  unfold laneFault suspendLane refault printFault
  dsimp only
  repeat' split
  all_goals simp [unsure]

@[simp] theorem linkBook_tellOutcome (st : Station) (p : Payment) (o : Option PayOutcome) (s : State) :
    (tellOutcome st p o s).linkBook = s.linkBook := by
  unfold tellOutcome
  repeat' split
  all_goals simp

@[simp] theorem linkBook_releaseReservations (st : Station) (p : Payment) (s : State) :
    (releaseReservations st p s).linkBook = s.linkBook := by
  have freed : (if p.resSale then { s with salesReserved := s.salesReserved - 1 } else s).linkBook = s.linkBook := by
    split <;> rfl
  unfold releaseReservations
  dsimp only
  split
  · exact (linkBook_judgeJournal _).trans freed
  · exact freed

end Sys2Proof.Machine
end

section
/-! The commands that leave the link unit's book: requests of the seat store, hold table, basket unit, sale table, journal, voucher
table and print channel. -/

namespace Sys2Proof.Machine

/-- A request of a station link is refused, or its block acts (R182). -/
theorem linkBook_stationRequest {act : State → State} (st : Station) (tag : Tag) (k : ReqKind) {s : State}
    (h : (act s).linkBook = s.linkBook) : (stationRequest st tag k act s).linkBook = s.linkBook := by
  unfold stationRequest
  repeat' split
  all_goals simp [h]

/-! ### Screenings and holds -/

theorem linkBook_beginScreening (tag : Tag) (f : BeginFields) (s : State) : (beginScreening tag f s).linkBook = s.linkBook := by
  unfold beginScreening
  repeat' split
  all_goals simp

theorem linkBook_seatRow (tag : Tag) (slot row : Nat) (runs : List RunSpec) (s : State) :
    (seatRow tag slot row runs s).linkBook = s.linkBook := by
  unfold seatRow
  repeat' split
  all_goals simp [takeSeatRow]

theorem linkBook_endLoad (tag : Tag) (slot : Nat) (s : State) : (endLoad tag slot s).linkBook = s.linkBook := by
  unfold endLoad
  repeat' split
  all_goals simp

theorem linkBook_stopSales (tag : Tag) (slot : Nat) (s : State) : (stopSales tag slot s).linkBook = s.linkBook := by
  unfold stopSales
  repeat' split
  all_goals simp

theorem linkBook_retireScreening (tag : Tag) (slot : Nat) (s : State) : (retireScreening tag slot s).linkBook = s.linkBook := by
  have taken : (takeRetire tag slot s).linkBook = s.linkBook := linkBook_replySite ..
  unfold retireScreening
  repeat' split
  all_goals simp [taken]

theorem linkBook_treatSeats (act : Seat → Seat × SeatResult) (slot : Nat) : ∀ (ps : List SeatPos) (s : State),
    (treatSeats act slot ps s).1.linkBook = s.linkBook
  | [], _ => rfl
  | p :: ps, s => by
    unfold treatSeats
    split <;> simp [linkBook_treatSeats act slot ps]

theorem linkBook_treatSlot (act : Seat → Seat × SeatResult) (tag : Tag) (slot : Nat) (ps : List SeatPos) (s : State) :
    (treatSlot act tag slot ps s).linkBook = s.linkBook := by
  unfold treatSlot
  repeat' split
  all_goals simp [linkBook_treatSeats]

theorem linkBook_querySeats (tag : Tag) (slot row first last : Nat) (s : State) :
    (querySeats tag slot row first last s).linkBook = s.linkBook := by
  unfold querySeats
  repeat' split
  all_goals simp

theorem linkBook_queryMap (st : Station) (tag : Tag) (slot first last : Nat) (s : State) :
    (queryMap st tag slot first last s).linkBook = s.linkBook := by
  unfold queryMap
  repeat' split
  all_goals simp

theorem linkBook_holdSeat (st : Station) (tag : Tag) (r : SeatRef) (s : State) : (holdSeat st tag r s).linkBook = s.linkBook := by
  unfold holdSeat
  repeat' split
  all_goals simp [claimSeat]

theorem linkBook_holdClose (st : Station) (tag : Tag) (s : State) : (holdClose st tag s).linkBook = s.linkBook := by
  unfold holdClose
  split <;> simp

theorem linkBook_windowReached (n : Nat) (s : State) : (windowReached n s).linkBook = s.linkBook := by
  unfold windowReached
  repeat' split
  all_goals simp

theorem linkBook_dropHold (st : Station) (tag : Tag) (n : Nat) (s : State) : (dropHold st tag n s).linkBook = s.linkBook := by
  unfold dropHold
  dsimp only
  repeat' split
  all_goals simp [leaveBasket]

theorem linkBook_siteHold (tag : Tag) (slot : Nat) (ps : List SeatPos) (seconds : Nat) (ref : Chars 8) (s : State) :
    (siteHold tag slot ps seconds ref s).linkBook = s.linkBook := by
  unfold siteHold
  repeat' split
  all_goals simp [takeSiteHold]

theorem linkBook_ownReached (n : Nat) (s : State) : (ownReached n s).linkBook = s.linkBook := by
  unfold ownReached
  repeat' split
  all_goals simp

theorem linkBook_siteRelease (tag : Tag) (n : Nat) (ref : Chars 8) (s : State) : (siteRelease tag n ref s).linkBook = s.linkBook := by
  unfold siteRelease
  repeat' split
  all_goals simp

/-! ### Baskets and loads -/

theorem linkBook_setCategory (st : Station) (tag : Tag) (ref : SeatRef) (cat : Nat) (s : State) :
    (setCategory st tag ref cat s).linkBook = s.linkBook := by
  unfold setCategory
  repeat' split
  all_goals simp

theorem linkBook_addSnack (st : Station) (tag : Tag) (item qty : Nat) (s : State) :
    (addSnack st tag item qty s).linkBook = s.linkBook := by
  unfold addSnack
  dsimp only
  repeat' split
  all_goals simp

theorem linkBook_removeSnack (st : Station) (tag : Tag) (item qty : Nat) (s : State) :
    (removeSnack st tag item qty s).linkBook = s.linkBook := by
  unfold removeSnack
  dsimp only
  repeat' split
  all_goals simp

theorem linkBook_price (st : Station) (tag : Tag) (s : State) : (price st tag s).linkBook = s.linkBook := by
  unfold price
  dsimp only
  repeat' split
  all_goals simp

theorem linkBook_abandon (st : Station) (tag : Tag) (s : State) : (abandon st tag s).linkBook = s.linkBook := by
  unfold abandon
  split <;> simp

theorem linkBook_lapseReached (st : Station) (s : State) : (lapseReached st s).linkBook = s.linkBook := by
  unfold lapseReached
  dsimp only
  repeat' split
  all_goals simp

theorem linkBook_loadTariff (tag : Tag) (f : Tariff) (s : State) : (loadTariff tag f s).linkBook = s.linkBook := by
  unfold loadTariff
  split
  · exact linkBook_replySite ..
  · exact linkBook_replySite ..
  · exact (linkBook_replySite ..).trans (linkBook_treatBaskets ..)

theorem linkBook_loadSnacks (tag : Tag) (entries : List SnackEntry) (s : State) : (loadSnacks tag entries s).linkBook = s.linkBook := by
  have taken : (takeSnacks entries s).linkBook = s.linkBook := by rw [takeSnacks_frame]; rfl
  unfold loadSnacks
  repeat' split
  all_goals simp [taken]

/-! ### Voucher table -/

theorem linkBook_setAllowance (tag : Tag) (code allowance lowMark : Nat) (restart : Bool) (s : State) :
    (setAllowance tag code allowance lowMark restart s).linkBook = s.linkBook := by
  have based : (allowanceBase code restart s).linkBook = s.linkBook := by rw [allowanceBase_frame]; rfl
  unfold setAllowance
  split
  · dsimp only
    split
    · rfl
    · rw [linkBook_replySite, linkBook_judgeLow, linkBook_setItem]; exact based
  · exact linkBook_replySite ..

theorem linkBook_querySnacks (tag : Tag) (first last : Nat) (s : State) : (querySnacks tag first last s).linkBook = s.linkBook := by
  unfold querySnacks
  split <;> simp

theorem linkBook_loadSeed (tag : Tag) (seed : Nat) (s : State) : (loadSeed tag seed s).linkBook = s.linkBook := by
  unfold loadSeed
  repeat' split
  all_goals exact linkBook_replySite ..

theorem linkBook_unlockVoucher (tag : Tag) (serial : Nat) (s : State) : (unlockVoucher tag serial s).linkBook = s.linkBook := by
  unfold unlockVoucher
  repeat' split
  all_goals simp

theorem linkBook_queryVoucher (st : Station) (tag : Tag) (serial : Nat) (s : State) :
    (queryVoucher st tag serial s).linkBook = s.linkBook := by
  unfold queryVoucher
  repeat' split
  all_goals simp

theorem linkBook_redeem (st : Station) (tag : Tag) (serial code : Nat) (s : State) :
    (redeem st tag serial code s).linkBook = s.linkBook := by
  have wrong (v : Voucher) : (wrongCode st tag serial v s).linkBook = s.linkBook := by
    unfold wrongCode
    dsimp only
    split <;> simp
  unfold redeem
  repeat' split
  all_goals simp [wrong, takeRedeem]

/-! ### Sales and the journal -/

theorem linkBook_siteSell (tag : Tag) (hold : Nat) (ref : Chars 8) (cats : List Nat) (snacks : List SnackLine) (s : State) :
    (siteSell tag hold ref cats snacks s).linkBook = s.linkBook := by
  have taken (h : Hold) (m : Summary) : (takeSiteSell tag hold h ref m s).linkBook = s.linkBook := by
    unfold takeSiteSell
    dsimp only
    split <;> simp
  unfold siteSell siteSellHold
  repeat' split
  all_goals simp [taken]

theorem linkBook_refund (tag : Tag) (n : Nat) (s : State) : (refund tag n s).linkBook = s.linkBook := by
  have seats (l : List SaleSeat) (t : State) :
      (l.foldl (fun s l => mapSeats l.ref.slot [refPos l.ref] Seat.refund s) t).linkBook = t.linkBook :=
    foldl_keeps State.linkBook _ (fun s l => linkBook_mapSeats ..) l t
  have vouchers (l : List Nat) (t : State) : (l.foldl (fun s v => voidVoucher v s) t).linkBook = t.linkBook :=
    foldl_keeps State.linkBook _ (fun s v => linkBook_voidVoucher v s) l t
  unfold refund
  repeat' split
  all_goals simp [takeRefund, seats, vouchers]

theorem linkBook_querySale (tag : Tag) (n : Nat) (s : State) : (querySale tag n s).linkBook = s.linkBook := by
  unfold querySale
  repeat' split
  all_goals simp

theorem linkBook_journalRelease (tag : Tag) (seq : Nat) (s : State) : (journalRelease tag seq s).linkBook = s.linkBook := by
  unfold journalRelease
  split
  · exact linkBook_replySite ..
  · exact (linkBook_replySite ..).trans (linkBook_judgeJournal ..)

/-! ### Print channel -/

theorem linkBook_acceptRecord (st : Station) (k lvl : Nat) (s : State) : (acceptRecord st k lvl s).linkBook = s.linkBook := by
  unfold acceptRecord acceptBurst
  dsimp only
  repeat' split
  all_goals simp [orderDone]

theorem linkBook_levelRecord (st : Station) (lvl : Nat) (s : State) : (levelRecord st lvl s).linkBook = s.linkBook := by
  unfold levelRecord
  split <;> simp

theorem linkBook_cutDoneRecord (st : Station) (s : State) : (cutDoneRecord st s).linkBook = s.linkBook := by
  unfold cutDoneRecord cutReported
  repeat' split
  all_goals simp

theorem linkBook_faultRecord (st : Station) (kind : PrinterFault) (k : Nat) (s : State) :
    (faultRecord st kind k s).linkBook = s.linkBook := by
  unfold faultRecord
  split <;> simp

theorem linkBook_clearRecord (st : Station) (s : State) : (clearRecord st s).linkBook = s.linkBook := by
  unfold clearRecord
  split <;> simp

theorem linkBook_burstDeadlineReached (s : State) : (burstDeadlineReached s).linkBook = s.linkBook := by
  unfold burstDeadlineReached
  repeat' split
  all_goals simp

theorem linkBook_cutDeadlineReached (st : Station) (s : State) : (cutDeadlineReached st s).linkBook = s.linkBook := by
  unfold cutDeadlineReached
  split <;> simp

theorem linkBook_settlingReached (st : Station) (s : State) : (settlingReached st s).linkBook = s.linkBook := by
  unfold settlingReached
  split <;> simp

theorem linkBook_resumeWith {answer : Code → List Val → State → State} (h : ∀ c vs s, (answer c vs s).linkBook = s.linkBook)
    (st : Station) (s : State) : (resumeWith answer st s).linkBook = s.linkBook := by
  have resumed (k : FaultKind) : (resumeLane st k s).linkBook = s.linkBook := by
    unfold resumeLane
    dsimp only
    split
    · exact foldl_keeps State.linkBook _ (fun s n => by simp [suppressSale]) _ _
    · rfl
  unfold resumeWith
  repeat' split
  all_goals simp [h, resumed]

theorem linkBook_resumePrint (sender : ResumeSender) (tag : Tag) (s : State) : (resumePrint sender tag s).linkBook = s.linkBook := by
  unfold resumePrint
  split
  · next st => exact linkBook_stationRequest _ _ _ (linkBook_resumeWith (linkBook_replyStation st tag) st s)
  · split
    · exact linkBook_resumeWith (linkBook_replySite tag) _ s
    · exact linkBook_replySite ..

theorem linkBook_reprint (tag : Tag) (n : Nat) (item : ReprintItem) (station : Nat) (s : State) :
    (reprint tag n item station s).linkBook = s.linkBook := by
  unfold reprint reprintOf
  dsimp only
  repeat' split
  all_goals simp [takeReprint, appendOrders]

theorem linkBook_collect (st : Station) (tag : Tag) (ref : Chars 8) (s : State) : (collect st tag ref s).linkBook = s.linkBook := by
  unfold collect
  repeat' split
  all_goals simp [takeCollect, appendOrders]

end Sys2Proof.Machine
end

section
/-! Payments, RESET and the lines in the link unit's book, and with them every step: the request in progress stays the PAY of a
selection (R183), and limits and check-error counts stay in range (R180, R186). -/

namespace Sys2Proof.Machine

/-! ### Payments in the book -/

theorem linkBook_setPay (st : Station) (c : PayContext) (s : State) : (setPay st c s).linkBook =
    { s.linkBook with selecting := Function.update s.selecting st (c.current.any (fun p => decide (p.phase = .selecting))) } := by
  rw [← selecting_setPay]; rfl

theorem linkBook_setPayment (st : Station) (p : Option Payment) (s : State) : (setPayment st p s).linkBook =
    { s.linkBook with selecting := Function.update s.selecting st (p.any (fun p => decide (p.phase = .selecting))) } := linkBook_setPay ..

/-- A payment that is SELECTING neither before nor after a change, or both, leaves the book. -/
theorem linkBook_setPayment_of_same {st : Station} {p : Option Payment} {s : State}
    (h : p.any (fun p => decide (p.phase = .selecting)) = s.selecting st) : (setPayment st p s).linkBook = s.linkBook := by
  rw [linkBook_setPayment, h, Function.update_eq_self]; rfl

theorem selecting_of_payment {st : Station} {p : Payment} {s : State} (hp : s.payment st = some p) :
    s.selecting st = decide (p.phase = .selecting) := by simp [State.selecting, hp]

@[simp] theorem selecting_emit (l : Line) (r : OutRec) (s : State) : (emit l r s).selecting = s.selecting :=
  congrArg LinkBook.selecting (linkBook_emit l r s)

/-- The book once a payment is no longer SELECTING. -/
def State.deselected (s : State) (st : Station) : LinkBook :=
  { s.linkBook with selecting := Function.update s.selecting st false }

theorem deselected_of_book {s t : State} (h : t.linkBook = s.linkBook) (st : Station) : t.deselected st = s.deselected st := by
  have hsel : t.selecting = s.selecting := congrArg LinkBook.selecting h
  unfold State.deselected
  rw [h, hsel]

/-- Of a payment that was not SELECTING the book keeps all. -/
theorem deselected_of_not_selecting {s : State} {st : Station} (h : s.selecting st = false) : s.deselected st = s.linkBook := by
  unfold State.deselected
  rw [← h, Function.update_eq_self]
  rfl

theorem deselected_deselected {s t : State} {st : Station} (h : t.linkBook = s.deselected st) :
    t.deselected st = s.deselected st := by
  have hsel : t.selecting = Function.update s.selecting st false := congrArg LinkBook.selecting h
  unfold State.deselected at h ⊢
  rw [h, hsel, Function.update_idem]

theorem linkBook_endWithoutSale (st : Station) (p : Payment) (o : Option PayOutcome) (s : State) :
    (endWithoutSale st p o s).linkBook = s.deselected st := by
  unfold endWithoutSale
  dsimp only
  rw [linkBook_setPayment]
  exact deselected_of_book (by split <;> simp) st

theorem linkBook_reverseAndEnd (st : Station) (p : Payment) (confirmed : Bool) (reason : ReversalReason) (o : Option PayOutcome)
    (s : State) : (reverseAndEnd st p confirmed reason o s).linkBook = s.deselected st := linkBook_endWithoutSale ..

theorem linkBook_endCapture (st : Station) (p : Payment) (c : CaptureState) (s : State) :
    (endCapture st p c s).linkBook = s.deselected st := by
  unfold endCapture
  dsimp only
  split
  · rw [linkBook_setPayment]
    exact deselected_of_book (linkBook_releaseReservations ..) st
  · exact linkBook_setPayment ..

theorem linkBook_sendAbort (st : Station) (cause : AbortCause) (s : State) : (sendAbort st cause s).linkBook = s.deselected st := by
  unfold sendAbort modifyPayment
  rw [linkBook_emit, linkBook_setPayment]
  cases s.payment st <;> rfl

/-- A payment told of its end is no more SELECTING than before. -/
theorem linkBook_reported (st : Station) (s : State) :
    (modifyPayment st (fun p => { p with reported := true }) s).linkBook = s.linkBook := by
  refine linkBook_setPayment_of_same ?_
  unfold State.selecting
  cases s.payment st <;> rfl

/-! ### Steps of the book -/

/-- The rule of R183 and the ranges of R180 and R186, as far as the book says them. -/
theorem requestIsSelection_iff (s : State) : RequestIsSelection s ↔
    ∀ st, (∀ r, s.request st = some r → r.kind = .pay) ∧ (s.request st).isSome = s.selecting st := by
  have selected (st : Station) : s.selecting st = true ↔ ∃ p, s.payment st = some p ∧ p.phase = .selecting := by
    simp [State.selecting, Option.any_eq_true]
  exact forall_congr' fun st => and_congr_right fun _ => (iff_congr Iff.rfl (selected st).symm).trans Bool.eq_iff_iff.symm

/-- From `s` to `t` the request in progress stays the PAY of a selection, and limits and check-error counts stay in range. -/
structure KeepsLinks (s t : State) : Prop where
  selection : RequestIsSelection s → RequestIsSelection t
  ranges : LinkRanges s → LinkRanges t

theorem KeepsLinks.refl (s : State) : KeepsLinks s s := ⟨id, id⟩

theorem KeepsLinks.trans {s t u : State} (h : KeepsLinks s t) (k : KeepsLinks t u) : KeepsLinks s u :=
  ⟨k.selection ∘ h.selection, k.ranges ∘ h.ranges⟩

/-- `KeepsLinks.trans` read from the last operation inward, as a composed operation is written. -/
theorem KeepsLinks.after {s t u : State} (k : KeepsLinks t u) (h : KeepsLinks s t) : KeepsLinks s u := h.trans k

theorem errors_of_gear {s t : State} {l : Line} (h : (t.line l).gear = (s.line l).gear) : (t.line l).errors = (s.line l).errors := by
  have := congrArg LineRec.errors h
  exact this

/-- Limits in range, and every check-error count as before or in range. -/
theorem LinkRanges.of_errors {s t : State} (hlimits : t.limits = s.limits)
    (herrors : ∀ l, (s.line l).errors ≤ 65535 → (t.line l).errors ≤ 65535) (hs : LinkRanges s) : LinkRanges t := by
  obtain ⟨hwindow, hhold, hpay, hcounts⟩ := hs
  unfold LinkRanges
  rw [hlimits]
  exact ⟨hwindow, hhold, hpay, fun l => herrors l (hcounts l)⟩

/-- Requests and selections as before, limits as before, and check-error counts that stay in range. -/
theorem KeepsLinks.of_counts {s t : State} (hrequests : t.requests = s.requests) (hselecting : t.selecting = s.selecting)
    (hlimits : t.limits = s.limits) (herrors : ∀ l, (s.line l).errors ≤ 65535 → (t.line l).errors ≤ 65535) : KeepsLinks s t where
  selection hs := by
    rw [requestIsSelection_iff] at hs ⊢
    unfold State.request at hs ⊢
    rw [hrequests, hselecting]
    exact hs
  ranges := .of_errors hlimits herrors

theorem KeepsLinks.of_book {s t : State} (h : t.linkBook = s.linkBook) : KeepsLinks s t := by
  obtain ⟨hrequests, hselecting, -, hlimits, -, hgear⟩ := LinkBook.mk.inj h
  exact .of_counts hrequests hselecting hlimits fun l hl => (errors_of_gear (congrFun hgear l)).trans_le hl

/-- The request in progress and the selection of one station change together. -/
theorem KeepsLinks.of_station {s t : State} {st : Station} {r : Option Request} (h : t.linkBook = { s.linkBook with
      requests := s.requests.set st r, selecting := Function.update s.selecting st r.isSome })
    (hkind : ∀ x, r = some x → x.kind = .pay) : KeepsLinks s t := by
  obtain ⟨hrequests, hselecting, -, hlimits, -, hgear⟩ := LinkBook.mk.inj h
  refine ⟨fun hs => (requestIsSelection_iff t).mpr fun m => ?_,
    .of_errors hlimits fun l hl => (errors_of_gear (congrFun hgear l)).trans_le hl⟩
  have hreq (m : Station) : t.request m = (setRequest st r s).request m := by unfold State.request; rw [hrequests]; rfl
  have hsel : t.selecting = Function.update s.selecting st r.isSome := hselecting
  rw [hreq m, hsel]
  by_cases hm : m = st
  · subst hm
    rw [request_setRequest, Function.update_self]
    exact ⟨hkind, rfl⟩
  · rw [request_setRequest_ne hm, Function.update_of_ne hm]
    exact (requestIsSelection_iff s).mp hs m

/-- A PAY is answered, and its selection has ended (R90, R91). -/
theorem KeepsLinks.of_answered {s t : State} {st : Station} (h : t.linkBook = { s.deselected st with
      requests := s.requests.set st none }) : KeepsLinks s t := .of_station (st := st) (r := none) h nofun

/-- A restart: no request in progress, no payment, the limits of R186, and no check errors. -/
theorem KeepsLinks.of_restart {s t : State} (hrequests : ∀ st, t.request st = none) (hpayments : ∀ st, t.payment st = none)
    (hlimits : t.limits = Limits.initial) (herrors : ∀ l, (t.line l).errors = 0) : KeepsLinks s t := by
  refine ⟨fun _ => (requestIsSelection_iff t).mpr fun st => ?_, fun _ => ?_⟩
  · simp [hrequests st, State.selecting, hpayments st]
  · unfold LinkRanges
    rw [hlimits]
    exact ⟨by decide, by decide, by decide, fun l => by simp [herrors l]⟩

theorem errors_countError_le {r : LineRec} (h : r.errors ≤ 65535) : r.countError.errors ≤ 65535 := by
  show (if r.errors < 65535 then r.errors + 1 else r.errors) ≤ 65535
  split <;> omega

/-- One line changes, its check-error count as before or raised by a count (R180). -/
theorem keepsLinks_modifyLine {l : Line} {f : LineRec → LineRec} {s : State}
    (h : ∀ r, (f r).errors = r.errors ∨ (f r).errors = r.countError.errors) : KeepsLinks s (modifyLine l f s) := by
  refine .of_counts rfl rfl rfl fun m hm => ?_
  unfold modifyLine
  by_cases e : m = l
  · subst e
    rw [line_setLine]
    rcases h (s.line m) with h | h
    · rw [h]; exact hm
    · rw [h]; exact errors_countError_le hm
  · rwa [line_setLine_ne e]

/-! ### Payments -/

theorem keepsLinks_stationRequest {act : State → State} (st : Station) (tag : Tag) (k : ReqKind) {s : State}
    (h : KeepsLinks s (act s)) : KeepsLinks s (stationRequest st tag k act s) := by
  have replied (c : Code) (vs : List Val) : KeepsLinks s (replyStation st tag c vs s) := .of_book (linkBook_replyStation ..)
  unfold stationRequest
  split
  · split
    · split
      · exact h
      · exact replied ..
    · exact replied ..
  · split
    · exact h
    · exact replied ..

/-- A PAY accepted is in progress, and its payment SELECTING (R88, R183). -/
theorem linkBook_acceptPay (st : Station) (tag : Tag) (s : State) : (acceptPay st tag s).linkBook = { s.linkBook with
    requests := s.requests.set st (some ⟨.pay, tag⟩), selecting := Function.update s.selecting st true } := by
  have requested (r : Option Request) (t : State) :
      (setRequest st r t).linkBook = { t.linkBook with requests := t.linkBook.requests.set st r } := rfl
  have started (c : PayContext) (t : State) : (setPay st c t).linkBook = { t.linkBook with
      selecting := Function.update t.linkBook.selecting st (c.current.any (fun p => decide (p.phase = .selecting))) } :=
    linkBook_setPay ..
  have reserved : (judgeJournal { s with
      salesReserved := s.salesReserved + 1, journalReserved := s.journalReserved + 1 }).linkBook = s.linkBook :=
    linkBook_judgeJournal ..
  unfold acceptPay
  dsimp only
  rw [requested, linkBook_emit, linkBook_setHoldPhases, started, linkBook_modifyLane, reserved]
  rfl

theorem keepsLinks_pay (st : Station) (tag : Tag) (s : State) : KeepsLinks s (pay st tag s) := by
  unfold pay
  split
  · exact .of_book (linkBook_replyStation ..)
  · exact .of_station (r := some ⟨.pay, tag⟩) (linkBook_acceptPay ..) (by rintro x ⟨⟩; rfl)

/-- A payment that is not SELECTING goes on or ends. -/
theorem KeepsLinks.of_deselected {s t : State} {st : Station} {p : Payment} (hp : s.payment st = some p) (hph : p.phase ≠ .selecting)
    (h : t.linkBook = s.deselected st) : KeepsLinks s t :=
  .of_book (h.trans (deselected_of_not_selecting (by simpa [selecting_of_payment hp] using hph)))

theorem keepsLinks_cancelPay (st : Station) (tag : Tag) (s : State) : KeepsLinks s (cancelPay st tag s) := by
  have replied (c : Code) (vs : List Val) (t : State) : KeepsLinks t (replyStation st tag c vs t) := .of_book (linkBook_replyStation ..)
  unfold cancelPay
  split
  · exact replied ..
  · next p hp =>
    split
    · next hph =>
      refine (replied ..).after (.of_book (linkBook_setPayment_of_same ?_))
      rw [selecting_of_payment hp, hp]
      rfl
    · next hph => exact (replied ..).after (.of_deselected hp (by simp [hph]) (linkBook_sendAbort ..))
    all_goals exact replied ..

theorem linkBook_answerPay (st : Station) (c : Code) (vs : List Val) (s : State) :
    (answerPay st c vs s).linkBook = { s.linkBook with requests := s.requests.set st none } := by
  unfold answerPay
  split
  · next r hr =>
    have replied := linkBook_replyStation st r.tag c vs s
    have requests : (replyStation st r.tag c vs s).requests = s.requests := congrArg LinkBook.requests replied
    exact (congrArg (fun b : LinkBook => { b with requests := b.requests.set st none }) replied)
  · next hr =>
    have : s.requests.set st none = s.requests := by
      rw [← (show s.requests[st] = none from hr)]; exact set_self _ _
    rw [this]; rfl

theorem keepsLinks_selectionFails (st : Station) (p : Payment) (c : Code) (vs : List Val) (s : State) :
    KeepsLinks s (selectionFails st p c vs s) := by
  refine .of_answered (st := st) ?_
  unfold selectionFails
  rw [linkBook_endWithoutSale]
  have hbook := linkBook_answerPay st c (.saleRef (s.saleRef st) :: vs) s
  have hsel : (answerPay st c (.saleRef (s.saleRef st) :: vs) s).selecting = s.selecting := congrArg LinkBook.selecting hbook
  unfold State.deselected
  rw [hbook, hsel]

theorem keepsLinks_selectedRecord (st : Station) (echo : Chars 4) (status : SelectStatus) (s : State) :
    KeepsLinks s (selectedRecord st echo status s) := by
  unfold selectedRecord
  split
  · exact .refl s
  · next p hp =>
    split
    · split
      · exact keepsLinks_selectionFails ..
      · split
        · exact keepsLinks_selectionFails ..
        · have answered (c : Code) (vs : List Val) {t : State} (h : t.linkBook = s.deselected st) :
              KeepsLinks s (answerPay st c vs t) := by
            have hreq : t.requests = s.requests := congrArg LinkBook.requests h
            exact .of_answered (by rw [linkBook_answerPay, h, hreq])
          split
          · exact answered _ _ ((linkBook_emit ..).trans (linkBook_setPayment ..))
          · exact answered _ _ ((linkBook_reported ..).trans (linkBook_sendAbort ..))
    · exact .refl s

theorem keepsLinks_selectStepReached (st : Station) (s : State) : KeepsLinks s (selectStepReached st s) := by
  unfold selectStepReached
  split
  · exact .refl s
  · split
    · exact keepsLinks_selectionFails ..
    · exact .refl s

theorem linkBook_progressRecord (st : Station) (stage : PayStage) (s : State) : (progressRecord st stage s).linkBook = s.linkBook := by
  unfold progressRecord
  repeat' split
  all_goals simp

/-- An approval taken: the payment is then CAPTURING (R93). -/
theorem linkBook_approve (st : Station) (p : Payment) (auth : Auth) (s : State) : (approve st p auth s).linkBook = s.deselected st := by
  unfold approve
  dsimp only
  rw [linkBook_laneComes, linkBook_emit, linkBook_emit, linkBook_setPayment]
  exact deselected_of_book (linkBook_commit ..) st

theorem keepsLinks_outcomeRecord (st : Station) (o : TermOutcome) (s : State) : KeepsLinks s (outcomeRecord st o s) := by
  unfold outcomeRecord
  split
  · exact .refl s
  · next p hp =>
    split
    · next hph =>
      split
      · exact .of_deselected hp (by simp [hph]) (linkBook_approve ..)
      all_goals exact .of_deselected hp (by simp [hph]) (linkBook_endWithoutSale ..)
    · next hph =>
      split
      · exact .of_deselected hp (by simp [hph]) ((linkBook_emit ..).trans (linkBook_setPayment ..))
      all_goals exact .of_deselected hp (by simp [hph]) (linkBook_endWithoutSale ..)
    all_goals exact .refl s

theorem keepsLinks_timeLimitReached (st : Station) (s : State) : KeepsLinks s (timeLimitReached st s) := by
  unfold timeLimitReached
  split
  · exact .refl s
  · next p hp =>
    split
    · next h =>
      exact .of_deselected hp (by simp [h.1]) ((linkBook_emit ..).trans ((linkBook_reported ..).trans (linkBook_sendAbort ..)))
    · exact .refl s

theorem keepsLinks_abortStepReached (st : Station) (s : State) : KeepsLinks s (abortStepReached st s) := by
  unfold abortStepReached
  split
  · exact .refl s
  · next p hp =>
    split
    · next h =>
      split
      · exact .of_deselected hp (by simp [h.1]) (linkBook_reverseAndEnd ..)
      · exact .of_deselected hp (by simp [h.1]) (linkBook_endWithoutSale ..)
    · exact .refl s

theorem keepsLinks_reversedRecord (st : Station) (s : State) : KeepsLinks s (reversedRecord st s) := by
  unfold reversedRecord
  split
  · exact .refl s
  · next p hp =>
    split
    · next h => exact .of_deselected hp (by simp [h]) (linkBook_reverseAndEnd ..)
    · exact .refl s

theorem keepsLinks_reverseStepReached (st : Station) (s : State) : KeepsLinks s (reverseStepReached st s) := by
  unfold reverseStepReached
  split
  · exact .refl s
  · next p hp =>
    split
    · next h => exact .of_deselected hp (by simp [h.1]) (linkBook_reverseAndEnd ..)
    · exact .refl s

theorem keepsLinks_capturedRecord (st : Station) (s : State) : KeepsLinks s (capturedRecord st s) := by
  unfold capturedRecord
  split
  · exact .refl s
  · next p hp =>
    split
    · next h => exact .of_deselected hp (by simp [h]) (linkBook_endCapture ..)
    · exact .refl s

theorem keepsLinks_captureStepReached (st : Station) (s : State) : KeepsLinks s (captureStepReached st s) := by
  unfold captureStepReached
  split
  · exact .refl s
  · next p hp =>
    split
    · next h => exact .of_deselected hp (by simp [h.1]) (linkBook_endCapture ..)
    · exact .refl s

theorem keepsLinks_terminalLost (st : Station) (s : State) : KeepsLinks s (terminalLost st s) := by
  unfold terminalLost
  split
  · exact .refl s
  · next p hp =>
    split
    · exact keepsLinks_selectionFails ..
    · next h => exact .of_deselected hp (by simp [h]) (linkBook_reverseAndEnd ..)
    · next h =>
      split
      · exact .of_deselected hp (by simp [h]) (linkBook_reverseAndEnd ..)
      · exact .of_deselected hp (by simp [h]) (linkBook_endWithoutSale ..)
    · next h => exact .of_deselected hp (by simp [h]) (linkBook_reverseAndEnd ..)
    · next h => exact .of_deselected hp (by simp [h]) (linkBook_endCapture ..)

/-! ### Links -/

@[simp] theorem linkBook_noticeLine (l : Line) (x : LineState) (s : State) : (noticeLine l x s).linkBook = s.linkBook := by
  unfold noticeLine
  split <;> simp

@[simp] theorem linkBook_stationLost (st : Station) (s : State) : (stationLost st s).linkBook = s.linkBook := by
  unfold stationLost
  dsimp only
  repeat' split
  all_goals simp

@[simp] theorem linkBook_printerLost (st : Station) (s : State) : (printerLost st s).linkBook = s.linkBook := by
  unfold printerLost
  split <;> simp

theorem linkBook_reportRegain (l : Line) (s : State) : (reportRegain l s).linkBook = s.linkBook := by
  unfold reportRegain printerRegained
  repeat' split
  all_goals simp

theorem linkBook_answerReset (before s : State) (st : Station) : (answerReset before s st).linkBook = s.linkBook := by
  unfold answerReset
  split <;> simp

theorem linkBook_abortReset (before s : State) (st : Station) : (abortReset before s st).linkBook = s.linkBook := by
  unfold abortReset
  split <;> simp

/-- What a RESET leaves in the book: the blocks' values after RESET (R190). -/
theorem linkBook_siteReset (tag : Tag) (s : State) : (siteReset tag s).linkBook = (resetBlocks s).linkBook :=
  (foldl_keeps State.linkBook _ (linkBook_abortReset s) _ _).trans
    ((foldl_keeps State.linkBook _ (linkBook_answerReset s) _ _).trans (linkBook_replySite ..))

theorem line_resetBlocks (l : Line) (s : State) : (resetBlocks s).line l = { s.line l with errors := 0, out := [] } := by
  simp [State.line, resetBlocks]

theorem keepsLinks_siteReset (tag : Tag) (s : State) : KeepsLinks s (siteReset tag s) := by
  refine KeepsLinks.after (.of_book (linkBook_siteReset tag s)) (.of_restart (fun st => ?_) (fun st => ?_) rfl fun l => ?_)
  · simp [State.request, resetBlocks, State.reset]
  · simp [State.payment, State.pay, resetBlocks, State.reset]
  · rw [line_resetBlocks]

theorem keepsLinks_powerOn (s : State) : KeepsLinks s (powerOn s) := by
  refine .of_restart (fun st => ?_) (fun st => ?_) rfl fun l => ?_
  · simp [State.request, powerOn, State.reset]
  · simp [State.payment, State.pay, powerOn, State.reset]
  · simp [State.line, powerOn, State.reset, LineRec.initial]

theorem keepsLinks_configStation (tag : Tag) (station : Nat) (role : Option Role) (addr : Chars 4) (printer : Bool) (s : State) :
    KeepsLinks s (configStation tag station role addr printer s) := by
  have replied (c : Code) (vs : List Val) (t : State) : KeepsLinks t (replySite tag c vs t) := .of_book (linkBook_replySite ..)
  have taken (st : Station) (r : Role) : KeepsLinks s (takeConfig tag st r addr printer s) :=
    (replied ..).after (.of_counts rfl rfl rfl fun _ => id)
  unfold configStation
  split
  · exact replied ..
  · split
    · exact replied ..
    · exact taken ..
  · exact replied ..
  · exact replied ..

theorem clampTo_mem {lo hi : Nat} (h : lo ≤ hi) (n : Nat) : lo ≤ clampTo lo hi n ∧ clampTo lo hi n ≤ hi := by
  unfold clampTo
  split_ifs <;> omega

/-- SET-LIMITS applies limits in their ranges (R186). -/
theorem keepsLinks_changeLimits (tag : Tag) (window hold payment : Nat) (s : State) :
    KeepsLinks s (changeLimits tag window hold payment s) := by
  refine KeepsLinks.after (.of_book (linkBook_replySite ..)) ⟨id, fun hs => ?_⟩
  exact ⟨clampTo_mem (by decide) window, clampTo_mem (by decide) hold, clampTo_mem (by decide) payment, hs.2.2.2⟩

theorem keepsLinks_lineLost (l : Line) (s : State) : KeepsLinks s (lineLost l s) := by
  have reported (t : State) : KeepsLinks t (reportLoss l t) := by
    unfold reportLoss
    split
    · exact .refl t
    · exact .of_book (linkBook_stationLost ..)
    · exact keepsLinks_terminalLost ..
    · exact .of_book (linkBook_printerLost ..)
  unfold lineLost
  split
  · exact .refl s
  · exact KeepsLinks.after (.of_book (linkBook_noticeLine ..)) ((reported _).after (keepsLinks_modifyLine fun _ => .inl rfl))

theorem keepsLinks_lineRegained (l : Line) (s : State) : KeepsLinks s (lineRegained l s) := by
  unfold lineRegained
  split
  · exact KeepsLinks.after (.of_book (linkBook_noticeLine ..))
      (KeepsLinks.after (.of_book (linkBook_reportRegain ..)) (keepsLinks_modifyLine fun _ => .inl rfl))
  · exact .refl s

theorem keepsLinks_breakBegins (l : Line) (s : State) : KeepsLinks s (breakBegins l s) := by
  unfold breakBegins
  split
  · exact .refl s
  · refine keepsLinks_modifyLine fun r => ?_
    unfold LineRec.goBreak
    split
    · exact .inr rfl
    · exact .inl rfl

theorem keepsLinks_breakEnds (l : Line) (s : State) : KeepsLinks s (breakEnds l s) := by
  unfold breakEnds
  split
  · exact .refl s
  · exact keepsLinks_modifyLine fun _ => .inl rfl

theorem keepsLinks_frameError (l : Line) (cause : FrameFault) (s : State) : KeepsLinks s (frameError l cause s) := by
  unfold frameError
  split
  · exact keepsLinks_modifyLine fun _ => .inr rfl
  · exact .refl s

theorem keepsLinks_trainTimeout (l : Line) (s : State) : KeepsLinks s (trainTimeout l s) := by
  unfold trainTimeout
  split
  · exact keepsLinks_modifyLine fun _ => .inr rfl
  · exact .refl s

theorem keepsLinks_trainInterrupted (l : Line) (kind : Byte) (tag : Tag) (body : List Byte) (s : State) :
    KeepsLinks s (trainInterrupted l kind tag body s) := by
  unfold trainInterrupted
  split
  · exact keepsLinks_modifyLine fun _ => .inr rfl
  · exact .refl s

theorem keepsLinks_recordSent (l : Line) (s : State) : KeepsLinks s (recordSent l s) := by
  have left (rest : List OutRec) (t : State) : (burstLeft l rest t).linkBook = t.linkBook := by
    unfold burstLeft
    repeat' split
    all_goals rfl
  unfold recordSent
  split
  · exact .refl s
  · next r rest _ =>
    have popped : KeepsLinks s (modifyLine l (fun x => { x with out := rest }) s) := keepsLinks_modifyLine fun _ => .inl rfl
    have sent : KeepsLinks s (setSent l (framesOf l r) (modifyLine l (fun x => { x with out := rest }) s)) :=
      KeepsLinks.after (.of_book (linkBook_setSent ..)) popped
    dsimp only
    split
    · exact KeepsLinks.after (.of_book (left rest _)) sent
    · exact sent

/-- An idle step touches no check-error count (R180). -/
theorem errors_idle (l : Line) (s : State) : ((idle s).line l).errors = (s.line l).errors := by
  have received (m : Line) : ((receiveByte m s).line l).errors = (s.line l).errors := by
    unfold receiveByte
    split
    · rfl
    · next w rest _ =>
      show ((setLine m ((s.line m).takeByte m w.byte).1 s).line l).errors = _
      by_cases e : l = m
      · subst e; rw [line_setLine, errors_takeByte]
      · rw [line_setLine_ne e]
  unfold idle
  split
  · rfl
  · split
    · exact received _
    · simp [advance, State.line, LineRec.tick]

theorem keepsLinks_idle (s : State) : KeepsLinks s (idle s) := by
  refine .of_counts ?_ ?_ ?_ fun l hl => (errors_idle l s).trans_le hl
  all_goals rw [idle_frame]
  rfl

/-! ### Every step -/

theorem KeepsLinks.of_next {s t u : State} (h : (Host.Outcome.next u : Host.Outcome State Fault Refusal) = .next t)
    (m : KeepsLinks s u) : KeepsLinks s t := by cases h; exact m

/-- A command that leaves the link unit's book. -/
theorem KeepsLinks.of_next_book {s t u : State} (h : (Host.Outcome.next u : Host.Outcome State Fault Refusal) = .next t)
    (m : u.linkBook = s.linkBook) : KeepsLinks s t := .of_next h (.of_book m)

/-- Every command keeps the link unit's invariants. -/
theorem keepsLinks_exec {c : Instr} {s t : State} (h : exec c s = .next t) : KeepsLinks s t :=
  match c, h with
  | .powerOn, h => .of_next h (keepsLinks_powerOn s)
  | .reset .., h => .of_next h (keepsLinks_siteReset ..)
  | .beginScreening .., h => .of_next_book h (linkBook_beginScreening ..)
  | .seatRow .., h => .of_next_book h (linkBook_seatRow ..)
  | .endLoad .., h => .of_next_book h (linkBook_endLoad ..)
  | .stopSales .., h => .of_next_book h (linkBook_stopSales ..)
  | .retireScreening .., h => .of_next_book h (linkBook_retireScreening ..)
  | .blockSeats .., h => .of_next_book h (linkBook_treatSlot ..)
  | .unblockSeats .., h => .of_next_book h (linkBook_treatSlot ..)
  | .querySeats .., h => .of_next_book h (linkBook_querySeats ..)
  | .queryMap .., h => .of_next_book h (linkBook_stationRequest _ _ _ (linkBook_queryMap ..))
  | .holdSeat .., h => .of_next_book h (linkBook_stationRequest _ _ _ (linkBook_holdSeat ..))
  | .holdClose .., h => .of_next_book h (linkBook_stationRequest _ _ _ (linkBook_holdClose ..))
  | .gatheringWindowExpiry _, h => .of_next_book h (linkBook_windowReached ..)
  | .dropHold .., h => .of_next_book h (linkBook_stationRequest _ _ _ (linkBook_dropHold ..))
  | .siteHold .., h => .of_next_book h (linkBook_siteHold ..)
  | .ownDeadlineExpiry _, h => .of_next_book h (linkBook_ownReached ..)
  | .siteRelease .., h => .of_next_book h (linkBook_siteRelease ..)
  | .siteSell .., h => .of_next_book h (linkBook_siteSell ..)
  | .setCategory .., h => .of_next_book h (linkBook_stationRequest _ _ _ (linkBook_setCategory ..))
  | .addSnack .., h => .of_next_book h (linkBook_stationRequest _ _ _ (linkBook_addSnack ..))
  | .removeSnack .., h => .of_next_book h (linkBook_stationRequest _ _ _ (linkBook_removeSnack ..))
  | .price .., h => .of_next_book h (linkBook_stationRequest _ _ _ (linkBook_price ..))
  | .abandon .., h => .of_next_book h (linkBook_stationRequest _ _ _ (linkBook_abandon ..))
  | .lapseDeadlineReached _, h => .of_next_book h (linkBook_lapseReached ..)
  | .pay .., h => .of_next h (keepsLinks_stationRequest _ _ _ (keepsLinks_pay ..))
  | .cancelPay .., h => .of_next h (keepsLinks_stationRequest _ _ _ (keepsLinks_cancelPay ..))
  | .selected .., h => .of_next h (keepsLinks_selectedRecord ..)
  | .selectStepDeadline _, h => .of_next h (keepsLinks_selectStepReached ..)
  | .progress .., h => .of_next_book h (linkBook_progressRecord ..)
  | .outcome .., h => .of_next h (keepsLinks_outcomeRecord ..)
  | .timeLimit _, h => .of_next h (keepsLinks_timeLimitReached ..)
  | .abortOutcome .., h => .of_next h (keepsLinks_outcomeRecord ..)
  | .abortStepDeadline _, h => .of_next h (keepsLinks_abortStepReached ..)
  | .reversed _, h => .of_next h (keepsLinks_reversedRecord ..)
  | .reverseStepDeadline _, h => .of_next h (keepsLinks_reverseStepReached ..)
  | .captured _, h => .of_next h (keepsLinks_capturedRecord ..)
  | .captureStepDeadline _, h => .of_next h (keepsLinks_captureStepReached ..)
  | .refund .., h => .of_next_book h (linkBook_refund ..)
  | .querySale .., h => .of_next_book h (linkBook_querySale ..)
  | .journalRead _, h => .of_next_book h (linkBook_replySite ..)
  | .journalRelease .., h => .of_next_book h (linkBook_journalRelease ..)
  | .loadTariff .., h => .of_next_book h (linkBook_loadTariff ..)
  | .loadSnacks .., h => .of_next_book h (linkBook_loadSnacks ..)
  | .setAllowance .., h => .of_next_book h (linkBook_setAllowance ..)
  | .querySnacks .., h => .of_next_book h (linkBook_querySnacks ..)
  | .loadSeed .., h => .of_next_book h (linkBook_loadSeed ..)
  | .redeem .., h => .of_next_book h (linkBook_stationRequest _ _ _ (linkBook_redeem ..))
  | .unlockVoucher .., h => .of_next_book h (linkBook_unlockVoucher ..)
  | .queryVoucher .., h => .of_next_book h (linkBook_stationRequest _ _ _ (linkBook_queryVoucher ..))
  | .reprint .., h => .of_next_book h (linkBook_reprint ..)
  | .collect .., h => .of_next_book h (linkBook_stationRequest _ _ _ (linkBook_collect ..))
  | .resumePrint .., h => .of_next_book h (linkBook_resumePrint ..)
  | .accept .., h => .of_next_book h (linkBook_acceptRecord ..)
  | .level .., h => .of_next_book h (linkBook_levelRecord ..)
  | .cutDone _, h => .of_next_book h (linkBook_cutDoneRecord ..)
  | .fault .., h => .of_next_book h (linkBook_faultRecord ..)
  | .clear _, h => .of_next_book h (linkBook_clearRecord ..)
  | .burstDeadline, h => .of_next_book h (linkBook_burstDeadlineReached ..)
  | .cutDeadline _, h => .of_next_book h (linkBook_cutDeadlineReached ..)
  | .settlingDeadline _, h => .of_next_book h (linkBook_settlingReached ..)
  | .configStation .., h => .of_next h (keepsLinks_configStation ..)
  | .setLimits .., h => .of_next h (keepsLinks_changeLimits ..)
  | .siteStatus _, h => .of_next_book h (linkBook_replySite ..)
  | .status .., h => .of_next_book h (linkBook_stationRequest _ _ _ (linkBook_replyStation ..))
  | .reject .., h => .of_next_book h (linkBook_emit ..)
  | .lineLost _, h => .of_next h (keepsLinks_lineLost ..)
  | .lineRegained _, h => .of_next h (keepsLinks_lineRegained ..)
  | .frameError .., h => .of_next h (keepsLinks_frameError ..)
  | .frameTimeout _, h => .of_next h (keepsLinks_modifyLine fun _ => .inr rfl)
  | .trainTimeout _, h => .of_next h (keepsLinks_trainTimeout ..)
  | .trainInterrupted .., h => .of_next h (keepsLinks_trainInterrupted ..)
  | .recordSent _, h => .of_next h (keepsLinks_recordSent ..)
  | .breakBegins _, h => .of_next h (keepsLinks_breakBegins ..)
  | .breakEnds _, h => .of_next h (keepsLinks_breakEnds ..)

/-- A step keeps the link unit's invariants, whether a command is taken or the step is idle. -/
theorem keepsLinks_step {s t : State} (h : step s = .next t) : KeepsLinks s t := by
  unfold step at h
  split at h
  · next c rest _ => exact (keepsLinks_exec h).after (.of_book rfl)
  · exact .of_next h (keepsLinks_idle s)

/-- Settles O8: a PAY in progress and a SELECTING payment begin in one step and end in one step, and nothing else touches either. -/
theorem requestStaysSelection : Obligations.RequestStaysSelection := fun _ _ hs h => (keepsLinks_step h).selection hs

/-- Settles O10: SET-LIMITS clamps, and an error is counted up to 65535. -/
theorem linkRangesKept : Obligations.LinkRangesKept := fun _ _ hs h => (keepsLinks_step h).ranges hs

end Sys2Proof.Machine
end

section
/-! Power-on and RESET: the machine after each of them (R190, R191), the invariants at reset, and records that wait or are dropped
(R184): O11, O12, O15 and O16. -/

namespace Sys2Proof.Machine

/-! ### The machine after power-on -/

theorem payment_reset (st : Station) : State.reset.payment st = none := by simp [State.payment, State.pay, State.reset]

theorem basket_reset (st : Station) : State.reset.basket st = Basket.vacant := by simp [State.basket, State.reset]

theorem request_reset (st : Station) : State.reset.request st = none := by simp [State.request, State.reset]

theorem lane_reset (st : Station) : State.reset.lane st = Lane.fresh := by simp [State.lane, State.reset]

theorem line_reset (l : Line) : State.reset.line l = LineRec.initial := by simp [State.line, State.reset]

/-! ### The invariants at reset -/

theorem paymentsFreezeHolds_reset : PaymentsFreezeHolds State.reset := fun st h => by simp [State.payIdle, payment_reset] at h

theorem requestIsSelection_reset : RequestIsSelection State.reset := by
  rw [requestIsSelection_iff]
  intro st
  simp [request_reset, State.selecting, payment_reset]

theorem linkRanges_reset : LinkRanges State.reset :=
  ⟨by decide, by decide, by decide, fun l => by rw [line_reset]; decide⟩

theorem lanesFit_reset : LanesFit State.reset :=
  (lanesFit_iff State.reset).mpr ⟨paymentsFreezeHolds_reset,
    stationFits_of_restart rfl rfl fun st => by rw [lane_reset]; exact ⟨rfl, rfl⟩⟩

theorem seatOwnersAgree_reset : SeatOwnersAgree State.reset :=
  have unpaid : PaymentsPriced State.reset := fun st p h => by rw [payment_reset] at h; cases h
  (seatOwnersAgree_iff State.reset).mpr ⟨⟨rfl, rfl, rfl, rfl⟩, reservationsFit_reset, paymentsFreezeHolds_reset,
    ⟨Nat.le_refl 1, by decide⟩, unpaid, ownersAgree_reset rfl⟩

/-- Settles O11: after power-on the tables are empty, no payment is in flight and no request in progress, and the limits are those
of R186. -/
theorem invariantsAtReset : Obligations.InvariantsAtReset :=
  ⟨⟨rfl, rfl, rfl, rfl⟩, reservationsFit_reset, ⟨rfl, by decide⟩, nofun, requestIsSelection_reset, paymentsFreezeHolds_reset,
    linkRanges_reset, nofun, stockFits_reset, lanesFit_reset, seatOwnersAgree_reset⟩

/-! ### Records produced -/

/-- Settles O12: a record is dropped on a LOST line, and waits behind the others on a line that is UP. -/
theorem recordsWaitOrDrop : Obligations.RecordsWaitOrDrop := fun _ r _ => ⟨fun h => emit_of_lost h r, fun h => emit_of_up h r⟩

/-! ### Power-on -/

/-- Settles O15: power-on leaves the machine of `State.reset`, beside the queue, the bytes to come and the count of free values. -/
theorem powerOnValues : Obligations.PowerOnValues := by
  intro s
  have sent (l : Line) : (powerOn s).sentOn l = [] := by simp [State.sentOn, powerOn, State.reset]
  have configured (st : Station) : (powerOn s).station st = StationConfig.initial := by simp [State.station, powerOn, State.reset]
  have context (st : Station) : (powerOn s).pay st = { count := 0, current := none } := by simp [State.pay, powerOn, State.reset]
  have item (code : Nat) (hlow : 1 ≤ code) (hhigh : code ≤ 24) : (powerOn s).item code = some Item.unnamed := by
    simp [State.item, powerOn, State.reset, hlow, hhigh]
  have basket (st : Station) : (powerOn s).basket st = Basket.vacant := basket_reset st
  have idle (st : Station) : (powerOn s).payment st = none := payment_reset st
  have empty (st : Station) : (powerOn s).basketState st = .empty := by
    simp [State.basketState, State.payState, idle, basket, Basket.vacant, Basket.hollow]
  refine ⟨powerOn s, rfl, rfl, rfl, rfl, fun l => ⟨line_reset l, sent l, rfl⟩, fun st => ⟨request_reset st, ?_, ?_, ?_, idle st,
    congrArg PayContext.count (context st), empty st, basket st, lane_reset st⟩,
    rfl, rfl, rfl, rfl, rfl, rfl, rfl, rfl, rfl, rfl, rfl, rfl, rfl, rfl, rfl, item⟩
  all_goals rw [configured]; rfl

/-! ### RESET -/

section

variable (tag : Tag) (s : State)

/-- A RESET leaves the blocks at their values after RESET; the answers reach the lines alone. -/
theorem siteReset_frame : siteReset tag s = { resetBlocks s with lines := (siteReset tag s).lines } := by
  have up (s t u : State) (h1 : { s with lines := t.lines } = t) (h2 : { t with lines := u.lines } = u) :
      { s with lines := u.lines } = u := by rw [← h2, ← h1]
  have answered (u : State) (st : Station) : { u with lines := (answerReset s u st).lines } = answerReset s u st := by
    unfold answerReset
    split
    · exact (emit_frame ..).symm
    · rfl
  have aborted (u : State) (st : Station) : { u with lines := (abortReset s u st).lines } = abortReset s u st := by
    unfold abortReset
    split
    · rfl
    · exact (emit_frame ..).symm
  exact (up _ _ _ (emit_frame .site (.reply tag .ok []) (resetBlocks s)).symm
    (up _ _ _ (foldl_frame _ _ answered (fun _ => rfl) up (List.finRange 8) _)
      (foldl_frame _ _ aborted (fun _ => rfl) up (List.finRange 8) _))).symm

/-- What a RESET leaves of a line beside the records that wait (R190). -/
theorem gear_line_siteReset (l : Line) : ((siteReset tag s).line l).gear = { s.line l with errors := 0, out := [] } := by
  have h := congrFun (congrArg LinkBook.gear (linkBook_siteReset tag s)) l
  exact h.trans (congrArg LineRec.gear (line_resetBlocks l s))

end

theorem lane_of_resetBlocks {s t : State} (h : t.lanes = (resetBlocks s).lanes) (st : Station) : t.lane st = resetLane s st := by
  simp [State.lane, h, resetBlocks]

/-- A fold over the stations in which one station alone reaches a line. -/
theorem line_foldl_stations {op : State → Station → State} {l : Line} {st : Station} {rs : List OutRec}
    (hne : ∀ m, m ≠ st → ∀ s, (op s m).line l = s.line l) (h : ∀ s, (op s st).line l = s.lineWith l rs) (s : State) :
    ((List.finRange 8).foldl op s).line l = s.lineWith l rs := by
  have hnodup := List.nodup_finRange 8
  obtain ⟨before, behind, hl⟩ := List.append_of_mem (List.mem_finRange st)
  rw [hl, List.nodup_append, List.nodup_cons] at hnodup
  obtain ⟨-, ⟨hbehind, -⟩, hbefore⟩ := hnodup
  have hfirst : (before.foldl op s).line l = s.line l := foldl_keeps_of_mem (·.line l) _ before s
    fun a ha => hne a fun e => hbefore a ha st List.mem_cons_self e
  have hlast (u : State) : (behind.foldl op u).line l = u.line l := foldl_keeps_of_mem (·.line l) _ behind u
    fun a ha => hne a fun e => hbehind (e ▸ ha)
  rw [hl, List.foldl_append, List.foldl_cons, hlast, h, lineWith_congr hfirst]

/-- A fold over the stations none of which reaches a line. -/
theorem line_foldl_stations_ne {op : State → Station → State} {l : Line} (hne : ∀ m s, (op s m).line l = s.line l) (s : State) :
    ((List.finRange 8).foldl op s).line l = s.line l := foldl_keeps (·.line l) _ (fun u m => hne m u) _ s

section

variable (before s : State)

/-- The answer RESET that a station's PAY in progress gets (R190). -/
def State.resetAnswer (st : Station) : List OutRec :=
  match before.request st with
  | some r => [.reply r.tag .reset [.saleRef ⟨st, (before.pay st).count⟩]]
  | none => []

theorem line_answerReset_ne {l : Line} {m : Station} (h : l ≠ .station m) : (answerReset before s m).line l = s.line l := by
  unfold answerReset
  split
  · exact line_emit_ne h _ _
  · rfl

theorem line_answerReset (st : Station) :
    (answerReset before s st).line (.station st) = s.lineWith (.station st) (before.resetAnswer st) := by
  unfold answerReset State.resetAnswer
  cases before.request st with
  | some r => exact line_emit ..
  | none => exact (lineWith_nil ..).symm

theorem line_abortReset_ne {l : Line} {m : Station} (h : l ≠ .terminal m) : (abortReset before s m).line l = s.line l := by
  unfold abortReset
  split
  · rfl
  · exact line_emit_ne h _ _

theorem line_abortReset (st : Station) : (abortReset before s st).line (.terminal st) =
    s.lineWith (.terminal st) (if before.payIdle st then [] else [.abort]) := by
  unfold abortReset
  split
  · exact (lineWith_nil ..).symm
  · exact line_emit ..

end

section

variable (tag : Tag) (s : State)

/-- Only a terminal line is reached by the records ABORT of a RESET, and only a station link by the answers to PAYs. -/
theorem line_aborted {l : Line} (h : ∀ st, l ≠ .terminal st) (u : State) :
    ((List.finRange 8).foldl (abortReset s) u).line l = u.line l :=
  line_foldl_stations_ne (fun m u => line_abortReset_ne s u (h m)) u

theorem line_answered {l : Line} (h : ∀ st, l ≠ .station st) (u : State) :
    ((List.finRange 8).foldl (answerReset s) u).line l = u.line l :=
  line_foldl_stations_ne (fun m u => line_answerReset_ne s u (h m)) u

theorem line_siteReset_site : (siteReset tag s).line .site = (resetBlocks s).lineWith .site [.reply tag .ok []] :=
  (line_aborted s (by simp) _).trans ((line_answered s (by simp) _).trans (line_emit ..))

theorem line_siteReset_station (st : Station) :
    (siteReset tag s).line (.station st) = (resetBlocks s).lineWith (.station st) (s.resetAnswer st) := by
  have others (m : Station) (hm : m ≠ st) (u : State) : (answerReset s u m).line (.station st) = u.line (.station st) :=
    line_answerReset_ne s u fun e => hm (Line.station.inj e).symm
  exact (line_aborted s (by simp) _).trans ((line_foldl_stations others (fun u => line_answerReset s u st) _).trans
    (lineWith_congr (line_emit_ne (by simp) _ (resetBlocks s)) _))

theorem line_siteReset_terminal (st : Station) : (siteReset tag s).line (.terminal st) =
    (resetBlocks s).lineWith (.terminal st) (if s.payIdle st then [] else [.abort]) := by
  have others (m : Station) (hm : m ≠ st) (u : State) : (abortReset s u m).line (.terminal st) = u.line (.terminal st) :=
    line_abortReset_ne s u fun e => hm (Line.terminal.inj e).symm
  exact (line_foldl_stations others (fun u => line_abortReset s u st) _).trans
    (lineWith_congr ((line_answered s (by simp) _).trans (line_emit_ne (by simp) _ (resetBlocks s))) _)

theorem line_siteReset_printer (st : Station) : (siteReset tag s).line (.printer st) = (resetBlocks s).line (.printer st) :=
  (line_aborted s (by simp) _).trans ((line_answered s (by simp) _).trans (line_emit_ne (by simp) ..))

/-- After RESET nothing waits on a line but the records of the RESET itself. -/
theorem out_lineWith_resetBlocks (l : Line) (rs : List OutRec) :
    ((resetBlocks s).lineWith l rs).out = if s.isLost l then [] else rs := by
  have hlost : (resetBlocks s).isLost l = s.isLost l := by unfold State.isLost; rw [line_resetBlocks]
  unfold State.lineWith
  rw [hlost, line_resetBlocks]
  split <;> rfl

end

/-- Settles O16: the blocks stand at their values after RESET, and each line holds what the RESET put out on it. -/
theorem resetValues : Obligations.ResetValues := by
  intro tag s
  have hframe := siteReset_frame tag s
  have hgear := gear_line_siteReset tag s
  have hsite : ((siteReset tag s).line .site).out = if s.isLost .site then [] else [.reply tag .ok []] := by
    rw [line_siteReset_site, out_lineWith_resetBlocks]
  have hstation (st : Station) : ((siteReset tag s).line (.station st)).out =
      if s.isLost (.station st) then [] else s.resetAnswer st := by
    rw [line_siteReset_station, out_lineWith_resetBlocks]
  have hterminal (st : Station) : ((siteReset tag s).line (.terminal st)).out =
      if s.isLost (.terminal st) then [] else if s.payIdle st then [] else [.abort] := by
    rw [line_siteReset_terminal, out_lineWith_resetBlocks]
  have hprinter (st : Station) : ((siteReset tag s).line (.printer st)).out = [] := by
    rw [line_siteReset_printer, line_resetBlocks]
  generalize ht : siteReset tag s = t at hframe hgear hsite hstation hterminal hprinter
  have line (l : Line) := LineRec.mk.inj (hgear l)
  refine ⟨t, congrArg Host.Outcome.next ht, by rw [hframe]; rfl, by rw [hframe]; rfl, by rw [hframe]; rfl, by rw [hframe]; rfl,
    fun l => ?_, hsite, fun st => ⟨?_, ?_, hprinter st, ?_, ?_, ?_, ?_, ?_⟩, ?_⟩
  · obtain ⟨hstate, hwatch, herrors, hreceiver, htrain, -⟩ := line l
    exact ⟨hstate, hwatch, herrors, hreceiver, htrain, by rw [hframe]; rfl, by rw [hframe]; rfl⟩
  · rw [hstation]
    unfold State.resetAnswer
    cases s.request st <;> simp
  · rw [hterminal]
    cases s.payIdle st <;> cases s.isLost (.terminal st) <;> rfl
  · rw [hframe]; exact request_reset st
  · rw [hframe]; exact payment_reset st
  · rw [hframe]; simp [State.pay, resetBlocks, State.reset]
  · rw [hframe]; exact basket_reset st
  · have hlanes := congrArg State.lanes hframe
    dsimp only at hlanes
    rw [lane_of_resetBlocks hlanes]
    rfl
  · rw [hframe]
    exact ⟨rfl, rfl, rfl, rfl, rfl, rfl, rfl, rfl, rfl, rfl, rfl, rfl, rfl, rfl, rfl, rfl⟩

end Sys2Proof.Machine
end

section
/-! The link unit's checks, station configuration, limits and status (R182, R185 to R188): O13, O17 and O18. -/

namespace Sys2Proof.Machine

/-! ### Checks 3 and 4 of R182 -/

section

variable {st : Station} {k : ReqKind} {s : State} (tag : Tag) (act : State → State)

theorem stationRequest_of_busy {r : Request} (hr : s.request st = some r) (hstatus : k ≠ .status) (hcancel : k ≠ .cancelPay) :
    stationRequest st tag k act s = emit (.station st) (.reply tag .busy [.inProgress r.kind]) s := by
  simp [stationRequest, hr, hstatus, hcancel, replyStation]

theorem stationRequest_of_role (hfree : s.request st = none ∨ k = .status ∨ k = .cancelPay)
    (hrole : roleAccepts (s.station st).role k = false) : stationRequest st tag k act s =
      emit (.station st) (.reply tag .notInRole [.role (s.station st).role]) s := by
  unfold stationRequest
  cases hr : s.request st with
  | none => simp [hrole, replyStation]
  | some r =>
    have hskip : k = .status ∨ k = .cancelPay := hfree.resolve_left (by simp [hr])
    simp [hskip, hrole, replyStation]

end

/-- The commands of a station's requests, each refused by checks 3 and 4 or acted on by its block. -/
theorem exec_stationRequest {st : Station} {tag : Tag} {slot first last hold cat item qty serial code : Nat} {seat : SeatRef}
    {booking : Chars 8} : ∀ e ∈ ([(.queryMap, .queryMap st tag slot first last), (.holdSeat, .holdSeat st tag seat),
      (.holdClose, .holdClose st tag), (.dropHold, .dropHold st tag hold), (.setCategory, .setCategory st tag seat cat),
      (.addSnack, .addSnack st tag item qty), (.removeSnack, .removeSnack st tag item qty), (.price, .price st tag),
      (.pay, .pay st tag), (.cancelPay, .cancelPay st tag), (.abandon, .abandon st tag), (.collect, .collect st tag booking),
      (.resumePrint, .resumePrint (.station st) tag), (.redeem, .redeem st tag serial code),
      (.queryVoucher, .queryVoucher st tag serial), (.status, .status st tag)] : List (ReqKind × Instr)),
    ∃ act : State → State, ∀ s, exec e.2 s = .next (stationRequest st tag e.1 act s) := by
  simp only [List.forall_mem_cons, List.not_mem_nil, false_imp_iff, implies_true, and_true]
  exact ⟨⟨_, fun _ => rfl⟩, ⟨_, fun _ => rfl⟩, ⟨_, fun _ => rfl⟩, ⟨_, fun _ => rfl⟩, ⟨_, fun _ => rfl⟩, ⟨_, fun _ => rfl⟩,
    ⟨_, fun _ => rfl⟩, ⟨_, fun _ => rfl⟩, ⟨_, fun _ => rfl⟩, ⟨_, fun _ => rfl⟩, ⟨_, fun _ => rfl⟩, ⟨_, fun _ => rfl⟩,
    ⟨_, fun _ => rfl⟩, ⟨_, fun _ => rfl⟩, ⟨_, fun _ => rfl⟩, ⟨_, fun _ => rfl⟩⟩

/-- Table 10-4. -/
theorem roleAccepts_iff (k : ReqKind) : (roleAccepts .off k = true ↔ k = .status) ∧
    (roleAccepts .kiosk k = true ↔ k ≠ .redeem ∧ k ≠ .queryVoucher) ∧
    (roleAccepts .collect k = true ↔ k = .collect ∨ k = .resumePrint ∨ k = .status) ∧
    (roleAccepts .till k = true ↔ k = .redeem ∨ k = .queryVoucher ∨ k = .status) := by
  cases k <;> decide

/-- Settles O13: every station request passes through the checks of `stationRequest`, before its block. -/
theorem linkUnitChecks : Obligations.LinkUnitChecks := by
  refine ⟨fun st tag k act s => ⟨fun r hr hstatus hcancel => stationRequest_of_busy tag act hr hstatus hcancel,
    fun hfree hrole => stationRequest_of_role tag act hfree hrole, fun htakes => stationRequest_of_takes htakes tag act⟩,
    fun st tag slot first last hold cat item qty serial code seat booking s e he => ?_, roleAccepts_iff, fun _ _ _ _ _ => rfl⟩
  obtain ⟨act, hact⟩ := exec_stationRequest e he
  rw [hact]
  exact ⟨fun r hr hstatus hcancel => congrArg Host.Outcome.next (stationRequest_of_busy tag act hr hstatus hcancel),
    fun hfree hrole => congrArg Host.Outcome.next (stationRequest_of_role tag act hfree hrole)⟩

/-! ### CONFIG-STATION (R185) -/

theorem usesPrinter_iff (r : Role) : usesPrinter r = true ↔ r = .kiosk ∨ r = .collect := by cases r <;> decide

theorem printable_of {addr : Chars 4} (h : ∀ b ∈ addr.toList, 0x20 ≤ b.toNat ∧ b.toNat ≤ 0x7E) : printable addr = true := by
  unfold printable
  rw [List.all_eq_true]
  exact fun b hb => decide_eq_true (h b hb)

/-- A CONFIG-STATION whose fields are in range (R185, check 1). -/
theorem configFault_of_fields {role : Role} {addr : Chars 4} {printer : Bool}
    (haddr : role = .kiosk → ∀ b ∈ addr.toList, 0x20 ≤ b.toNat ∧ b.toNat ≤ 0x7E)
    (hprinter : role = .kiosk ∨ role = .collect → printer = true) (st : Station) :
    configFault st.val (some role) addr printer = none := by
  have haddr' : (!decide (some role = some Role.kiosk) || printable addr) = true := by
    by_cases h : role = .kiosk
    · simp [printable_of (haddr h)]
    · simp [h]
  have hprinter' : (!((some role).map usesPrinter).getD false || printer) = true := by
    by_cases h : role = .kiosk ∨ role = .collect
    · simp [hprinter h]
    · simp [Bool.eq_false_iff.mpr fun e => h ((usesPrinter_iff role).mp e)]
  simp only [configFault, firstFault, haddr', hprinter', stationOf_val, Option.isSome_some, if_true]

/-- A station with an EMPTY basket, no gathering hold, no payment in flight and an empty queue is not busy (R185, check 2). -/
theorem configBusy_of_idle {st : Station} {s : State} (hbasket : s.basketState st = .empty) (hgather : s.gathering st = none)
    (hidle : s.payIdle st = true) (hqueue : (s.lane st).queue = []) : s.configBusy st = none := by
  simp [State.configBusy, hbasket, hgather, hidle, hqueue]

/-- The lane at a role change (R148). -/
theorem configLane_eq (lost : Bool) (role : Role) (l : Lane) : configLane lost role l =
    if (role = .kiosk ∨ role = .collect) ∧ lost = true then { l with suspended := some .lineLost, clearFlag := false }
    else { l with suspended := none, clearFlag := false, lastLevel := 0 } := by
  simp only [configLane, usesPrinter_iff]

/-- Settles O17: the checks of CONFIG-STATION pass, and it is taken. -/
theorem configStationTaken : Obligations.ConfigStationTaken := by
  intro tag st role addr printer s haddr hprinter hbasket hgather hidle hqueue
  have taken : configStation tag st.val (some role) addr printer s = takeConfig tag st role addr printer s := by
    simp only [configStation, configFault_of_fields haddr hprinter st, stationOf_val,
      configBusy_of_idle hbasket hgather hidle hqueue]
  refine congrArg Host.Outcome.next (taken.trans ?_)
  unfold takeConfig modifyLane
  rw [configLane_eq]
  rfl

/-! ### SET-LIMITS (R186) -/

theorem clampTo_eq {lo hi : Nat} (h : lo ≤ hi) (n : Nat) : clampTo lo hi n = min (max n lo) hi := by
  unfold clampTo
  split_ifs <;> omega

theorem min_max_ne_iff {lo hi : Nat} (h : lo ≤ hi) (n : Nat) : min (max n lo) hi ≠ n ↔ n < lo ∨ hi < n := by omega

/-! ### STATUS (R187) -/

theorem basketState_eq (s : State) (st : Station) : s.basketState st = match s.payment st with
    | none => if (s.basket st).holds = [] ∧ (s.basket st).snacks = [] then .empty else .opened
    | some p => if p.phase = .capturing then .empty else .paying := by
  unfold State.basketState State.payState
  cases s.payment st with
  | none => simp [Basket.hollow]
  | some p =>
    obtain ⟨phase⟩ := p
    cases phase <;> rfl

theorem summaryMark_eq (b : Basket) :
    b.summaryMark = if b.summary.isSome then .present else if b.stale then .stale else .absent := by
  unfold Basket.summaryMark
  cases b.summary <;> rfl

theorem laneState_eq (s : State) (st : Station) : s.laneState st =
    if (s.lane st).suspended.isSome then .suspended
    else if s.bursting st then .running
    else if (s.lane st).queue = [] then .idle else .waiting := by
  unfold State.laneState
  simp only [List.isEmpty_iff]

/-- STATUS passes the checks of every role and beside every request in progress (R187). -/
theorem takes_status (s : State) (st : Station) : s.takes st .status = true := by
  cases h : (s.station st).role <;> simp [State.takes, roleAccepts]

/-- The total of a STATUS report: of the summary present, else 0. -/
theorem summary_total (o : Option Summary) : (o.map (·.total)).getD 0 = match o with
    | some m => m.total
    | none => 0 := by
  cases o <;> rfl

theorem request_kind (o : Option Request) : o.map (·.kind) = match o with
    | some r => some r.kind
    | none => none := by
  cases o <;> rfl

/-- Settles O18: SET-LIMITS clamps each value, and the two reports read the fields that R187 and R188 name. -/
theorem limitsAndStatus : Obligations.LimitsAndStatus := by
  refine ⟨fun tag w h p s => ?_, fun st tag s => ?_, fun tag s => rfl⟩
  · refine congrArg Host.Outcome.next ?_
    simp only [changeLimits, clampedLimits, clampTo_eq (show 100 ≤ 3000 by decide), clampTo_eq (show 60 ≤ 900 by decide),
      clampTo_eq (show 30 ≤ 300 by decide), min_max_ne_iff (show 100 ≤ 3000 by decide), min_max_ne_iff (show 60 ≤ 900 by decide),
      min_max_ne_iff (show 30 ≤ 300 by decide)]
    rfl
  · refine congrArg Host.Outcome.next ((stationRequest_of_takes (takes_status s st) tag _).trans ?_)
    unfold stationStatus replyStation State.statusReport
    dsimp only
    rw [basketState_eq, summaryMark_eq, laneState_eq, summary_total, request_kind]
    rfl

end Sys2Proof.Machine
end

section
/-! Regained lines and breaks (R179, R180): O21. -/

namespace Sys2Proof.Machine

/-! ### The rules of one line -/

/-- The check-error count saturates (R180). -/
theorem countError_eq {r : LineRec} (h : r.errors ≤ 65535) : r.countError = { r with errors := min (r.errors + 1) 65535 } := by
  have hmin : (if r.errors < 65535 then r.errors + 1 else r.errors) = min (r.errors + 1) 65535 := by
    split_ifs <;> omega
  rw [← hmin]
  rfl

theorem dropFrame_eq {r : LineRec} (h : r.errors ≤ 65535) :
    r.dropFrame = { r with errors := min (r.errors + 1) 65535, receiver := .hunting, train := none } := by
  rw [LineRec.dropFrame, countError_eq h]

theorem goBreak_of_hunting {r : LineRec} (h : r.receiver = .hunting) : r.goBreak = { r with watch := some 0 } := by
  simp [LineRec.goBreak, h, Receiver.busy]

theorem goBreak_of_receiving {r : LineRec} {bytes : List Byte} {n : Nat} (h : r.receiver = .receiving bytes n)
    (hr : r.errors ≤ 65535) : r.goBreak =
      { r with watch := some 0, errors := min (r.errors + 1) 65535, receiver := .hunting, train := none } := by
  simp [LineRec.goBreak, h, Receiver.busy, dropFrame_eq hr]

/-! ### LINE-STATE -/

/-- LINE-STATE reaches the site link alone. -/
theorem noticeLine_frame (l : Line) (x : LineState) (s : State) :
    noticeLine l x s = { s with lines := (noticeLine l x s).lines } := by
  unfold noticeLine
  split
  · exact emit_frame ..
  · rfl

theorem line_noticeLine_site (l : Line) (x : LineState) (s : State) : (noticeLine l x s).line .site =
    s.lineWith .site (if s.reported l x then [.lineState l x (s.line l).errors] else []) := by
  unfold noticeLine
  split
  · exact line_emit ..
  · exact (lineWith_nil ..).symm

theorem line_noticeLine_ne {l m : Line} (h : m ≠ .site) (x : LineState) (s : State) :
    (noticeLine l x s).line m = s.line m := by
  unfold noticeLine
  split
  · exact line_emit_ne h ..
  · rfl

theorem lane_noticeLine (l : Line) (x : LineState) (st : Station) (s : State) : (noticeLine l x s).lane st = s.lane st := by
  rw [noticeLine_frame]; rfl

@[simp] theorem state_line_noticeLine (l m : Line) (x : LineState) (s : State) :
    ((noticeLine l x s).line m).state = (s.line m).state := by
  unfold noticeLine
  split
  · exact state_line_emit ..
  · rfl

/-! ### The regain of a line -/

/-- A line's regain reaches the lanes alone (R143). -/
theorem reportRegain_frame (l : Line) (s : State) : reportRegain l s = { s with lanes := (reportRegain l s).lanes } := by
  unfold reportRegain printerRegained
  repeat' split
  all_goals rfl

/-- The regain of a printer line lets a lane suspended under LINE_LOST be resumed (R143). -/
theorem lane_reportRegain (l : Line) (st : Station) (s : State) : (reportRegain l s).lane st =
    if l = .printer st ∧ (s.lane st).suspended = some .lineLost then { s.lane st with clearFlag := true } else s.lane st := by
  cases l with
  | site | station _ | terminal _ => simp [reportRegain]
  | printer m =>
    change (printerRegained m s).lane st = _
    by_cases hm : m = st
    · subst hm
      unfold printerRegained modifyLane
      split_ifs <;> simp_all
    · rw [if_neg fun e => hm (Line.printer.inj e.1)]
      unfold printerRegained
      split
      · exact lane_setLane_ne (Ne.symm hm) ..
      · rfl

/-- The state in which a regained line is UP, before the change is reported. -/
def State.regained (s : State) (l : Line) : State := modifyLine l (fun r => { r with state := .up, watch := none }) s

theorem lineRegained_of_lost {l : Line} {s : State} (h : s.isLost l = true) :
    lineRegained l s = noticeLine l .up (reportRegain l (s.regained l)) := if_pos h

theorem line_reportRegain (l m : Line) (s : State) : (reportRegain l s).line m = s.line m := by
  rw [reportRegain_frame]; rfl

theorem line_regained (l : Line) (s : State) : (s.regained l).line l = { s.line l with state := .up, watch := none } :=
  line_setLine ..

theorem line_regained_ne {l m : Line} (h : m ≠ l) (s : State) : (s.regained l).line m = s.line m := line_setLine_ne h ..

/-- The LINE-STATE of a regained line, where R179 names the line. -/
theorem out_site_lineRegained {l : Line} {s : State} (h : s.isLost l = true) (hsite : s.isLost .site = false ∨ l = .site) :
    ((lineRegained l s).line .site).out = (s.line .site).out ++
      if s.reported l .up then [.lineState l .up (s.line l).errors] else [] := by
  have hlines : ∀ m, (reportRegain l (s.regained l)).line m = (s.regained l).line m := fun m => line_reportRegain ..
  have hreported : (reportRegain l (s.regained l)).reported l .up = s.reported l .up := by
    rw [reportRegain_frame]; rfl
  have herrors : ((reportRegain l (s.regained l)).line l).errors = (s.line l).errors := by rw [hlines, line_regained]
  have hsite' : ((reportRegain l (s.regained l)).line .site).out = (s.line .site).out ∧
      (reportRegain l (s.regained l)).isLost .site = false := by
    unfold State.isLost at hsite ⊢
    rw [hlines]
    by_cases e : l = .site
    · subst e; simp [line_regained]
    · rw [line_regained_ne (Ne.symm e)]
      exact ⟨rfl, hsite.resolve_right e⟩
  rw [lineRegained_of_lost h, line_noticeLine_site, lineWith_of_up hsite'.2, hreported, herrors]
  exact congrArg (· ++ _) hsite'.1

/-- Settles O21: the regained line is UP before its change is reported, and a break cuts off the frame being received. -/
theorem regainsAndBreaks : Obligations.RegainsAndBreaks := by
  refine ⟨fun l s hl => ⟨lineRegained l s, rfl, ?_, fun m hm => ?_, fun st => ?_, ?_, fun hsite => ?_⟩, fun l s hl => ?_⟩
  · rw [lineRegained_of_lost hl, state_line_noticeLine, line_reportRegain, line_regained]
  · rw [lineRegained_of_lost hl, state_line_noticeLine, line_reportRegain, line_regained_ne hm]
  · rw [lineRegained_of_lost hl, lane_noticeLine, lane_reportRegain]
    rfl
  · rw [lineRegained_of_lost hl, noticeLine_frame, reportRegain_frame]
    rfl
  · rw [out_site_lineRegained hl hsite]
    cases l <;> rfl
  · have begins : exec (.breakBegins l) s = .next (setLine l (s.line l).goBreak s) :=
      congrArg Host.Outcome.next (if_neg (Bool.not_eq_true _ ▸ hl))
    refine ⟨fun hr => ?_, fun bytes n hr he => ?_, congrArg Host.Outcome.next (if_neg (Bool.not_eq_true _ ▸ hl))⟩
    · rw [begins, goBreak_of_hunting hr]
    · rw [begins, goBreak_of_receiving hr he]

end Sys2Proof.Machine
end

section
/-! Records that leave (R184, R181, R134): O22. -/

namespace Sys2Proof.Machine

/-! ### The end of a burst -/

theorem endsBurst_iff (r : OutRec) : r.endsBurst = true ↔ ∃ n i dots, r = .lines n i dots ∧ i + dots.length = n := by
  cases r
  case lines n i dots => simp [OutRec.endsBurst, eq_comm]
  all_goals simp [OutRec.endsBurst]

theorem isLines_iff (r : OutRec) : r.isLines = true ↔ ∃ n i dots, r = .lines n i dots := by
  cases r <;> simp [OutRec.isLines]

theorem any_isLines_eq_false (rest : List OutRec) :
    rest.any OutRec.isLines = false ↔ ∀ m j more, .lines m j more ∉ rest := by
  simp only [List.any_eq_false, isLines_iff]
  exact ⟨fun h m j more hmem => h _ hmem ⟨m, j, more, rfl⟩, fun h r hr ⟨m, j, more, e⟩ => h m j more (e ▸ hr)⟩

/-- Is a record the last LINES frame of the burst, on its lane's printer line, with no LINES frame behind it (R134, R184)? -/
def LastOfBurst (l : Line) (r : OutRec) (rest : List OutRec) (b : Burst) : Prop :=
  ∃ n i dots, l = .printer b.lane ∧ r = .lines n i dots ∧ i + dots.length = n ∧ ∀ m j more, .lines m j more ∉ rest

theorem lastOfBurst_iff {l : Line} {r : OutRec} {rest : List OutRec} {b : Burst} : LastOfBurst l r rest b ↔
    l = .printer b.lane ∧ r.endsBurst = true ∧ rest.any OutRec.isLines = false := by
  simp only [LastOfBurst, endsBurst_iff, any_isLines_eq_false]
  exact ⟨fun ⟨n, i, dots, hl, hr, hn, h⟩ => ⟨hl, ⟨n, i, dots, hr, hn⟩, h⟩,
    fun ⟨hl, ⟨n, i, dots, hr, hn⟩, h⟩ => ⟨n, i, dots, hl, hr, hn, h⟩⟩

theorem burstLeft_of_last {b : Burst} {s : State} (hb : s.mover.burst = some b) {rest : List OutRec}
    (h : rest.any OutRec.isLines = false) : burstLeft (.printer b.lane) rest s =
      { s with mover := { s.mover with burst := some { b with deadline := some ⟨s.timeBase, 500⟩ } } } := by
  simp only [burstLeft, hb, h, Bool.not_false, and_self, if_true]
  rfl

theorem burstLeft_of_other {l : Line} {rest : List OutRec} {s : State}
    (h : ∀ b, s.mover.burst = some b → ¬ (l = .printer b.lane ∧ rest.any OutRec.isLines = false)) : burstLeft l rest s = s := by
  unfold burstLeft
  split
  · next st b hb =>
    refine if_neg fun ⟨hlane, hrest⟩ => h b hb ⟨congrArg _ hlane.symm, by simpa using hrest⟩
  · rfl

/-- The state after the first record that waits on a line has left in its frames, beside the burst deadline. -/
def State.sentOff (s : State) (l : Line) (r : OutRec) (rest : List OutRec) : State :=
  setSent l (framesOf l r) (setLine l { s.line l with out := rest } s)

theorem recordSent_cons {l : Line} {r : OutRec} {rest : List OutRec} {s : State} (h : (s.line l).out = r :: rest) :
    recordSent l s = if r.endsBurst then burstLeft l rest (s.sentOff l r rest) else s.sentOff l r rest := by
  unfold recordSent
  rw [h]
  rfl

theorem recordSent_of_other {l : Line} {r : OutRec} {rest : List OutRec} {s : State} (h : (s.line l).out = r :: rest)
    (hother : ∀ b, s.mover.burst = some b → ¬ LastOfBurst l r rest b) : recordSent l s = s.sentOff l r rest := by
  rw [recordSent_cons h]
  split
  · next hends => exact burstLeft_of_other fun b hb ⟨hl, hrest⟩ => hother b hb (lastOfBurst_iff.mpr ⟨hl, hends, hrest⟩)
  · rfl

theorem recordSent_of_last {l : Line} {r : OutRec} {rest : List OutRec} {s : State} (h : (s.line l).out = r :: rest)
    {b : Burst} (hb : s.mover.burst = some b) (hlast : LastOfBurst l r rest b) : recordSent l s =
      { s.sentOff l r rest with mover := { s.mover with burst := some { b with deadline := some ⟨s.timeBase, 500⟩ } } } := by
  obtain ⟨hl, hends, hrest⟩ := lastOfBurst_iff.mp hlast
  subst hl
  rw [recordSent_cons h, if_pos hends]
  exact burstLeft_of_last (s := s.sentOff (.printer b.lane) r rest) hb hrest

/-! ### Tags -/

theorem tag_eq_zero {r : OutRec} (hreply : ∀ tag code vals, r ≠ .reply tag code vals)
    (hreject : ∀ tag reason kind, r ≠ .reject tag reason kind) : r.tag = 0 := by
  cases r
  case reply tag code vals => exact absurd rfl (hreply tag code vals)
  case reject tag reason kind => exact absurd rfl (hreject tag reason kind)
  all_goals rfl

/-! ### Bodies -/

/-- Cut after `k` full bodies, the pieces are the first `n * k` elements in order. -/
theorem flatten_pieces {α : Type} (n : Nat) (x : List α) (k : Nat) :
    ((List.range k).map (fun i => (x.drop (n * i)).take n)).flatten = x.take (n * k) := by
  induction k with
  | zero => simp
  | succ k ih =>
    rw [List.range_succ, List.map_append, List.flatten_append, ih, Nat.mul_succ, List.take_add]
    simp

/-- A body cut is its full pieces and a shorter last one (R181). -/
theorem cutBody_eq (body : List Byte) : cutBody body =
    (List.range (body.length / 250)).map (fun i => (body.drop (250 * i)).take 250) ++
      [(body.drop (250 * (body.length / 250))).take 250] := by
  unfold cutBody
  rw [List.range_succ, List.map_append]
  rfl

theorem flatten_cutBody (body : List Byte) : (cutBody body).flatten = body := by
  have hlen : body.length ≤ 250 * (body.length / 250 + 1) := by omega
  exact (flatten_pieces 250 body (body.length / 250 + 1)).trans (List.take_of_length_le hlen)

/-- Every piece before the last is full. -/
theorem length_full_piece {body : List Byte} {b : List Byte}
    (h : b ∈ (List.range (body.length / 250)).map (fun i => (body.drop (250 * i)).take 250)) : b.length = 250 := by
  obtain ⟨i, hi, rfl⟩ := List.mem_map.mp h
  have hlt : i < body.length / 250 := List.mem_range.mp hi
  simp only [List.length_take, List.length_drop]
  omega

theorem length_last_piece (body : List Byte) : ((body.drop (250 * (body.length / 250))).take 250).length < 250 := by
  simp only [List.length_take, List.length_drop]
  omega

/-- The frames of a record: full bodies and a last one on a link, one body elsewhere. -/
theorem framesOf_bodies (l : Line) (r : OutRec) : ∃ bodies last : List (List Byte),
    framesOf l r = (bodies ++ last).map (fun b => (⟨Config.recordKind r, r.tag, b⟩ : Frame).bytes) ∧ last.length = 1 ∧
    (l.isLink = true → (bodies ++ last).flatten = sentBody r ∧ (∀ b ∈ bodies, b.length = 250) ∧ ∀ b ∈ last, b.length < 250) ∧
    (l.isLink = false → bodies = [] ∧ last = [(sentBody r).take 250]) := by
  cases hl : l.isLink with
  | true =>
    refine ⟨(List.range ((sentBody r).length / 250)).map (fun i => ((sentBody r).drop (250 * i)).take 250),
      [((sentBody r).drop (250 * ((sentBody r).length / 250))).take 250], ?_, rfl, fun _ => ⟨?_, fun b hb => ?_, fun b hb => ?_⟩,
      fun h => absurd h (by decide)⟩
    · rw [framesOf, bodiesOn, if_pos hl, cutBody_eq]
    · rw [← cutBody_eq, flatten_cutBody]
    · exact length_full_piece hb
    · rw [List.mem_singleton.mp hb]
      exact length_last_piece _
  | false =>
    refine ⟨[], [(sentBody r).take 250], ?_, rfl, fun h => absurd h (by decide), fun _ => ⟨rfl, rfl⟩⟩
    rw [framesOf, bodiesOn, if_neg (Bool.not_eq_true _ ▸ hl)]
    rfl

/-- Settles O22: the last frame of the burst alone sets the deadline, and a record is cut into full bodies and a last one. -/
theorem recordLeaves : Obligations.RecordLeaves := by
  refine ⟨fun l r rest s h => ⟨fun hother => congrArg Host.Outcome.next (recordSent_of_other h hother),
      fun b hb hlast => congrArg Host.Outcome.next (recordSent_of_last h hb hlast)⟩,
    fun r => ⟨fun tag code vals e => e ▸ rfl, fun tag reason kind e => e ▸ rfl, tag_eq_zero⟩,
    framesOf_bodies, rfl, rfl, fun _ => rfl, fun _ => ⟨rfl, rfl⟩⟩

end Sys2Proof.Machine
end

section
/-! What an idle step does, and the events that are due (R189, R179 to R181): O2. -/

namespace Sys2Proof.Machine

/-! ### Deadlines and silences -/

/-- A deadline runs and is reached (R189). -/
def State.Reached (s : State) (d : Option Deadline) : Prop := ∃ x, d = some x ∧ (s.timeBase - x.setAt).toNat = x.dur

theorem any_reached_iff (s : State) (d : Option Deadline) : d.any (Deadline.reached s) = true ↔ s.Reached d := by
  simp only [Option.any_eq_true, Deadline.reached, decide_eq_true_eq]
  rfl

theorem silent_iff (r : Receiver) : r.silent = true ↔ ∃ bytes n, r = .receiving bytes n ∧ 10 ≤ n := by
  cases r with
  | hunting => simp [Receiver.silent]
  | receiving bytes n => exact decide_eq_true_iff.trans ⟨fun h => ⟨bytes, n, rfl, h⟩, fun ⟨_, _, e, h⟩ => by cases e; exact h⟩

/-! ### The events of each kind -/

@[simp] theorem mem_dueHold {s : State} {e : Nat × Hold} {c : Instr} : c ∈ s.dueHold e ↔
    (s.Reached e.2.window ∧ c = .gatheringWindowExpiry e.1) ∨ (s.Reached e.2.own ∧ c = .ownDeadlineExpiry e.1) := by
  simp only [State.dueHold, List.mem_append, List.mem_ite_nil_right, any_reached_iff, List.mem_singleton]

@[simp] theorem mem_stepEvent {st : Station} {ph : PayPhase} {c : Instr} : c ∈ stepEvent st ph ↔
    (ph = .selecting ∧ c = .selectStepDeadline st) ∨ (ph = .aborting ∧ c = .abortStepDeadline st) ∨
      (ph = .capturing ∧ c = .captureStepDeadline st) ∨ (ph = .reversing ∧ c = .reverseStepDeadline st) := by
  cases ph <;> simp [stepEvent]

@[simp] theorem mem_duePay {s : State} {st : Station} {c : Instr} : c ∈ s.duePay st ↔ ∃ p, s.payment st = some p ∧
    ((s.Reached p.limit ∧ c = .timeLimit st) ∨ (s.Reached p.step ∧ c ∈ stepEvent st p.phase)) := by
  unfold State.duePay
  cases s.payment st with
  | none => simp
  | some p => simp only [List.mem_append, List.mem_ite_nil_right, any_reached_iff, List.mem_singleton, Option.some.injEq,
      exists_eq_left']

@[simp] theorem mem_dueStation {s : State} {st : Station} {c : Instr} : c ∈ s.dueStation st ↔
    (s.Reached (s.basket st).lapse ∧ c = .lapseDeadlineReached st) ∨ c ∈ s.duePay st ∨
      (s.Reached (s.lane st).cut ∧ c = .cutDeadline st) ∨ (s.Reached (s.lane st).settling ∧ c = .settlingDeadline st) := by
  simp only [State.dueStation, List.mem_append, List.mem_ite_nil_right, any_reached_iff, List.mem_singleton, or_assoc]

@[simp] theorem mem_dueMover {s : State} {c : Instr} :
    c ∈ s.dueMover ↔ ∃ b, s.mover.burst = some b ∧ s.Reached b.deadline ∧ c = .burstDeadline := by
  unfold State.dueMover
  cases s.mover.burst with
  | none => simp
  | some b => simp only [List.mem_ite_nil_right, any_reached_iff, List.mem_singleton, Option.some.injEq, exists_eq_left']

@[simp] theorem mem_dueLine {s : State} {l : Line} {c : Instr} : c ∈ s.dueLine l ↔
    ((∃ n, (s.line l).watch = some n ∧ 100 ≤ n) ∧ c = .lineLost l) ∨
    ((∃ bytes n, (s.line l).receiver = .receiving bytes n ∧ 10 ≤ n) ∧ c = .frameTimeout l) ∨
    ((l.isLink = true ∧ (s.line l).receiver = .hunting ∧ ∃ x, (s.line l).train = some x ∧ 10 ≤ x.quiet) ∧
      c = .trainTimeout l) := by
  simp only [State.dueLine, List.mem_append, List.mem_ite_nil_right, List.mem_singleton, silent_iff, Option.any_eq_true,
    decide_eq_true_eq, Bool.and_eq_true, or_assoc, and_assoc]
  rfl

theorem mem_line_all (l : Line) : l ∈ Line.all := by
  cases l <;> simp [Line.all]

@[simp] theorem mem_due {s : State} {c : Instr} : c ∈ s.due ↔ (∃ e ∈ s.holds, c ∈ s.dueHold e) ∨ (∃ st, c ∈ s.dueStation st) ∨
    c ∈ s.dueMover ∨ ∃ l, c ∈ s.dueLine l := by
  simp only [State.due, List.mem_append, List.mem_flatMap, List.mem_finRange, true_and, mem_line_all, or_assoc]

/-- In a canonical hold table the records listed are those found by their numbers. -/
theorem exists_mem_holds_iff {s : State} (hw : s.holds.wf = true) (n : Nat) (P : Hold → Prop) :
    (∃ e ∈ s.holds, P e.2 ∧ n = e.1) ↔ ∃ h, s.hold n = some h ∧ P h :=
  ⟨fun ⟨e, he, hP, hn⟩ => ⟨e.2, find_of_mem hw (hn ▸ he), hP⟩, fun ⟨h, hh, hP⟩ => ⟨(n, h), Tbl.find_mem hh, hP, rfl⟩⟩

section

variable {s : State} {st : Station}

theorem windowExpiry_mem_due (hw : s.holds.wf = true) (n : Nat) :
    Instr.gatheringWindowExpiry n ∈ s.due ↔ ∃ h, s.hold n = some h ∧ s.Reached h.window := by
  rw [← exists_mem_holds_iff hw n fun h => s.Reached h.window]
  simp

theorem ownExpiry_mem_due (hw : s.holds.wf = true) (n : Nat) :
    Instr.ownDeadlineExpiry n ∈ s.due ↔ ∃ h, s.hold n = some h ∧ s.Reached h.own := by
  rw [← exists_mem_holds_iff hw n fun h => s.Reached h.own]
  simp

/-- The events of a station's step deadline, by the state of its payment. -/
theorem stepEvent_mem_due {c : Instr} {ph : PayPhase} (h : c ∈ stepEvent st ph) :
    c ∈ s.due ↔ ∃ p, s.payment st = some p ∧ p.phase = ph ∧ s.Reached p.step := by
  rcases mem_stepEvent.mp h with ⟨rfl, rfl⟩ | ⟨rfl, rfl⟩ | ⟨rfl, rfl⟩ | ⟨rfl, rfl⟩
  all_goals simp [and_comm]

/-- The events of a station. -/
theorem station_mem_due : (Instr.lapseDeadlineReached st ∈ s.due ↔ s.Reached (s.basket st).lapse) ∧
    (Instr.cutDeadline st ∈ s.due ↔ s.Reached (s.lane st).cut) ∧
    (Instr.settlingDeadline st ∈ s.due ↔ s.Reached (s.lane st).settling) ∧
    (Instr.timeLimit st ∈ s.due ↔ ∃ p, s.payment st = some p ∧ s.Reached p.limit) := by
  simp

theorem burst_mem_due : Instr.burstDeadline ∈ s.due ↔ ∃ b, s.mover.burst = some b ∧ s.Reached b.deadline := by simp

/-- The events of a line (R179 to R181). -/
theorem line_mem_due (l : Line) : (Instr.lineLost l ∈ s.due ↔ ∃ n, (s.line l).watch = some n ∧ 100 ≤ n) ∧
    (Instr.frameTimeout l ∈ s.due ↔ ∃ bytes n, (s.line l).receiver = .receiving bytes n ∧ 10 ≤ n) ∧
    (Instr.trainTimeout l ∈ s.due ↔
      l.isLink = true ∧ (s.line l).receiver = .hunting ∧ ∃ x, (s.line l).train = some x ∧ 10 ≤ x.quiet) := by
  simp

end

/-! ### The idle step -/

theorem exists_firstDue {α : Type} (rank : α → Nat) {l : List α} (h : l ≠ []) : ∃ c, firstDue rank l = some c :=
  Option.ne_none_iff_exists'.mp fun e => h (firstDue_none rank e)

theorem step_of_idle {s : State} (h : s.pending = []) : step s = .next (idle s) := by simp [step, h]

theorem idle_of_due {s : State} (h : s.due ≠ []) : ∃ c ∈ s.due, idle s = { s with draws := s.draws + 1, pending := [c] } := by
  obtain ⟨c, hc⟩ := exists_firstDue (Config.dueRank s.draws) h
  exact ⟨c, firstDue_mem _ hc, by simp [idle, hc]⟩

theorem idle_of_arrived {s : State} (hdue : s.due = []) (h : ∃ l, s.byteArrived l = true) :
    ∃ l, s.byteArrived l = true ∧ idle s = receiveByte l s := by
  obtain ⟨m, hm⟩ := h
  have harrived : Line.all.filter s.byteArrived ≠ [] := List.ne_nil_of_mem (List.mem_filter.mpr ⟨mem_line_all m, hm⟩)
  obtain ⟨l, hl⟩ := exists_firstDue (Config.wireRank s.draws) harrived
  exact ⟨l, (List.mem_filter.mp (firstDue_mem _ hl)).2, by simp [idle, hdue, firstDue, hl]⟩

theorem idle_of_quiet {s : State} (hdue : s.due = []) (h : ∀ l, s.byteArrived l = false) : idle s = advance s := by
  have hnone : Line.all.filter s.byteArrived = [] := List.filter_eq_nil_iff.mpr fun l _ => by simp [h l]
  simp [idle, hdue, firstDue, hnone]

/-- Settles O2: the idle step by what is due, and the events due kind by kind. -/
theorem idleStepAndDeadlines : Obligations.IdleStepAndDeadlines := by
  refine ⟨fun s hidle => ?_, fun s => ⟨fun hw n => ⟨windowExpiry_mem_due hw n, ownExpiry_mem_due hw n⟩, fun st => ?_,
    burst_mem_due, line_mem_due⟩⟩
  · rw [step_of_idle hidle]
    refine ⟨fun hdue => ?_, fun hdue harrived => ?_, fun hdue hquiet => ?_⟩
    · obtain ⟨c, hc, h⟩ := idle_of_due hdue
      exact ⟨c, hc, congrArg Host.Outcome.next h⟩
    · obtain ⟨l, hl, h⟩ := idle_of_arrived hdue harrived
      exact ⟨l, hl, congrArg Host.Outcome.next h⟩
    · exact congrArg Host.Outcome.next (idle_of_quiet hdue hquiet)
  · obtain ⟨hlapse, hcut, hsettling, hlimit⟩ := station_mem_due (s := s) (st := st)
    exact ⟨hlapse, hcut, hsettling, hlimit, stepEvent_mem_due (ph := .selecting) (List.mem_singleton_self _),
      stepEvent_mem_due (ph := .aborting) (List.mem_singleton_self _),
      stepEvent_mem_due (ph := .reversing) (List.mem_singleton_self _),
      stepEvent_mem_due (ph := .capturing) (List.mem_singleton_self _)⟩

end Sys2Proof.Machine
end

section
/-! Frames, trains and the records they hand on (R180 to R182): O14. -/

namespace Sys2Proof.Machine

/-! ### Frames and trains in error -/

section

variable {l : Line} {s : State}

theorem frameError_eq (h : (s.line l).errors ≤ 65535) {cause : FrameFault} (hc : frameInError cause = true) :
    frameError l cause s = setLine l { s.line l with
      errors := min ((s.line l).errors + 1) 65535, receiver := .hunting, train := none } s := by
  rw [frameError, if_pos hc, modifyLine, dropFrame_eq h]

theorem frameTimeout_eq (h : (s.line l).errors ≤ 65535) : frameTimeout l s = setLine l { s.line l with
      errors := min ((s.line l).errors + 1) 65535, receiver := .hunting, train := none } s := by
  rw [frameTimeout, modifyLine, dropFrame_eq h]

theorem trainTimeout_eq (h : (s.line l).errors ≤ 65535) (hl : l.isLink = true) : trainTimeout l s =
    setLine l { s.line l with errors := min ((s.line l).errors + 1) 65535, train := none } s := by
  rw [trainTimeout, if_pos hl, modifyLine, countError_eq h]

theorem trainInterrupted_eq (h : (s.line l).errors ≤ 65535) (hl : l.isLink = true) (kind : Byte) (tag : Tag) (body : List Byte) :
    trainInterrupted l kind tag body s = setLine l { s.line l with
      errors := min ((s.line l).errors + 1) 65535, train := if body.length = 250 then some ⟨kind, tag, body, 0⟩ else none } s := by
  rw [trainInterrupted, if_pos hl, modifyLine, countError_eq h]
  rfl

end

/-- The check over the nine characters 1 to 9 (R180). -/
theorem crc16_digits : crc16 [0x31, 0x32, 0x33, 0x34, 0x35, 0x36, 0x37, 0x38, 0x39] = 0x29B1 := by
  decide +kernel

/-! ### The receiver -/

theorem take_hunting_of_ne {b : Byte} (h : b ≠ 0xA5#8) : Receiver.hunting.take b = .hunting := if_neg h

/-- With fewer than two bytes behind the counted ones, no check has arrived. -/
theorem judgeRest_of_short {len : Byte} {rest : List Byte} (h : rest.length < len.toNat + 2) :
    judgeRest len rest = .incomplete := by
  have hdrop : (rest.drop len.toNat).length < 2 := by rw [List.length_drop]; omega
  unfold judgeRest
  split
  · next hd =>
    rw [hd] at hdrop
    simp only [List.length_cons] at hdrop
    omega
  · rfl

/-- The bytes of a frame before its check, then two bytes: a good frame exactly when they are the check (R180). -/
theorem judgeFrame_covered {f : Frame} (h : f.body.length ≤ 250) (high low : Byte) : judgeFrame (f.covered ++ [high, low]) =
    if crc16 f.covered = high ++ low then .good f else .bad (.badCheck f.covered (high ++ low)) := by
  have hlen := toNat_length h
  have hrange : ¬ (f.body.length + 2 < Config.minLength ∨ Config.maxLength < f.body.length + 2) := by
    unfold Config.minLength Config.maxLength; omega
  have hdrop : (f.kind :: f.tag :: (f.body ++ [high, low])).drop (f.body.length + 2) = [high, low] := by simp
  have htake : (f.kind :: f.tag :: (f.body ++ [high, low])).take (f.body.length + 2) = f.kind :: f.tag :: f.body := by simp
  have hbody : (f.body ++ [high, low]).take (f.body.length + 2 - 2) = f.body := by simp
  simp only [Frame.covered, List.cons_append, judgeFrame, judgeRest, hlen, hrange, if_false, hdrop, htake, hbody]
  rfl

/-- No verdict falls before a frame's last byte. -/
theorem verdict_before_end {f : Frame} (h : f.body.length ≤ 250) : ∀ n < f.bytes.length,
    (Receiver.hunting.takeAll (f.bytes.take n)).verdict = .incomplete := by
  intro n hn
  rw [length_bytes] at hn
  match n with
  | 0 => rfl
  | 1 => exact congrArg Receiver.verdict (takeAll_marker [])
  | n + 2 =>
    have hlen := toNat_length h
    have hrange : ¬ (f.body.length + 2 < Config.minLength ∨ Config.maxLength < f.body.length + 2) := by
      unfold Config.minLength Config.maxLength; omega
    simp only [Frame.bytes, Frame.covered, List.cons_append, List.take_succ_cons, takeAll_marker, Receiver.verdict, judgeFrame, hlen,
      hrange, if_false]
    refine judgeRest_of_short (lt_of_le_of_lt (List.length_take_le _ _) ?_)
    omega

theorem verdict_of_checked {f : Frame} (h : f.body.length ≤ 250) (high low : Byte) :
    (Receiver.hunting.takeAll (Config.marker :: f.covered ++ [high, low])).verdict =
      if crc16 f.covered = high ++ low then .good f else .bad (.badCheck f.covered (high ++ low)) := by
  rw [List.cons_append, takeAll_marker]
  exact judgeFrame_covered h high low

theorem verdict_of_badLength {len : Byte} (h : len.toNat < 2 ∨ 252 < len.toNat) :
    (Receiver.hunting.takeAll [0xA5#8, len]).verdict = .bad (.badLength len) :=
  (congrArg Receiver.verdict (takeAll_marker [len])).trans (if_pos h)

/-! ### Trains (R181) -/

section

variable {l : Line} {f : Frame} {r : LineRec} (before : List Byte)

theorem join_of_full (hl : l.isLink = true) (hf : f.body.length = 250) :
    r.join l f before = ({ r with train := some ⟨f.kind, f.tag, before ++ f.body, 0⟩ }, []) := if_pos ⟨hl, hf⟩

theorem join_of_last (h : l.isLink = false ∨ f.body.length ≠ 250) :
    r.join l f before = ({ r with train := none }, (recordTaken l f.kind f.tag (before ++ f.body)).toList) :=
  if_neg fun ⟨hl, hf⟩ => h.elim (fun e => by simp [hl] at e) fun e => e hf

end

/-- The bodies of a line's train so far. -/
def LineRec.before (r : LineRec) : List Byte :=
  match r.train with
  | some x => x.body
  | none => []

/-- A frame that starts a record or goes on with the train in progress is joined to it. -/
theorem takeFrame_of_fits {l : Line} {f : Frame} {r : LineRec} (h : ∀ x, r.train = some x → x.kind = f.kind ∧ x.tag = f.tag) :
    r.takeFrame l f = r.join l f r.before := by
  unfold LineRec.takeFrame LineRec.before
  cases ht : r.train with
  | none => rfl
  | some x => exact if_pos (h x ht)

theorem takeFrame_of_interrupts {l : Line} {f : Frame} {r : LineRec}
    (h : ¬ ∀ x, r.train = some x → x.kind = f.kind ∧ x.tag = f.tag) : r.takeFrame l f =
      (r, .trainInterrupted l f.kind f.tag f.body ::
        (if f.body.length = 250 then [] else (recordTaken l f.kind f.tag f.body).toList)) := by
  unfold LineRec.takeFrame
  cases ht : r.train with
  | none => exact absurd (fun x hx => by simp [ht] at hx) h
  | some x =>
    refine if_neg fun hx => h fun y hy => ?_
    rw [ht] at hy
    exact Option.some.inj hy ▸ hx

/-! ### Records handed on (R182) -/

/-- The kinds of record that a link brings: its own requests (Table 10-3). -/
theorem comesOn_link_iff (link : Link) (k : RecKind) : k.comesOn link.line = true ↔ match link with
    | .site => ∃ x, k = .site x
    | .station _ => ∃ x, k = .station x := by
  cases link <;> cases k <;> simp [RecKind.comesOn, Link.line]

theorem comesOn_terminal_iff (st : Station) (k : RecKind) : k.comesOn (.terminal st) = true ↔ ∃ x, k = .terminal x := by
  cases k <;> simp [RecKind.comesOn]

theorem comesOn_printer_iff (st : Station) (k : RecKind) : k.comesOn (.printer st) = true ↔ ∃ x, k = .printer x := by
  cases k <;> simp [RecKind.comesOn]

theorem refuseRecord_link (link : Link) (tag : Tag) (reason : RejectReason) (kind : Byte) :
    refuseRecord link.line tag reason kind = some (.reject link tag reason kind) := by
  cases link <;> rfl

theorem siteCommand_ne_reject (k : SiteKind) (tag : Tag) (f : Fields) (link : Link) (tag' : Tag) (reason : RejectReason)
    (kind : Byte) : siteCommand k tag f ≠ .reject link tag' reason kind := by
  cases k <;> simp [siteCommand]

theorem stationCommand_ne_reject (st : Station) (k : ReqKind) (tag : Tag) (f : Fields) (link : Link) (tag' : Tag)
    (reason : RejectReason) (kind : Byte) : stationCommand st k tag f ≠ .reject link tag' reason kind := by
  cases k <;> simp [stationCommand]

/-- A record of a link's own kind is a request of that link with its tag. -/
theorem commandOf_link {link : Link} {k : RecKind} (hk : k.comesOn link.line = true) (kind : Byte) (tag : Tag) (f : Fields) :
    ∃ c, commandOf link.line k tag f = some c ∧ Instr.onLink link kind tag c = true ∧
      ∀ reason, c ≠ .reject link tag reason kind := by
  cases link with
  | site =>
    obtain ⟨x, rfl⟩ := (comesOn_link_iff .site k).mp hk
    exact ⟨_, rfl, onLink_siteCommand .., (siteCommand_ne_reject x tag f .site tag · kind)⟩
  | station st =>
    obtain ⟨x, rfl⟩ := (comesOn_link_iff (.station st) k).mp hk
    exact ⟨_, rfl, onLink_stationCommand .., (stationCommand_ne_reject st x tag f (.station st) tag · kind)⟩

/-- The kinds without fields (log 29). -/
theorem fieldless_iff (k : RecKind) : k.fieldless = true ↔ k ∈ ([.site .journalRead, .site .siteStatus, .site .reset,
    .station .holdClose, .station .abandon, .station .price, .station .pay, .station .cancelPay, .station .resumePrint,
    .station .status, .terminal .captured, .terminal .reversed, .printer .cutDone, .printer .clear] : List RecKind) := by
  cases k with
  | site x => cases x <;> decide
  | station x => cases x <;> decide
  | terminal x => cases x <;> decide
  | printer x => cases x <;> decide

/-- Only a kind without fields requires an empty body. -/
theorem requiredLength_eq_zero (k : RecKind) (body : List Byte) : requiredLength k body = 0 ↔ k.fieldless = true := by
  unfold requiredLength
  split_ifs <;> simp_all

theorem requiredLength_collect (body : List Byte) : requiredLength (.station .collect) body = 8 := rfl

theorem charsOf_toList {n : Nat} (x : Chars n) : charsOf x.toList n = x :=
  Vector.toList_inj.mp (toList_charsOf x.length_toList)

/-- A record on a terminal or printer line: discarded, or a record of that line, whatever its tag (R82). -/
theorem judgeRecord_silent {l : Line} {kind : Byte} {tag : Tag} {length : Nat} {named : Option RecKind} {required : RecKind → Nat}
    {fields : RecKind → Fields} (hl : l.isLink = false)
    (h : ∀ k, named = some k → k.comesOn l = true → length ≠ required k) :
    judgeRecord l kind tag length named required fields = none := by
  have refused (reason : RejectReason) : refuseRecord l tag reason kind = none := by
    cases l <;> simp_all [refuseRecord, Line.isLink]
  cases named with
  | none => exact refused _
  | some k =>
    cases hk : k.comesOn l with
    | false => exact (judgeRecord_unknown fun _ e => Option.some.inj e ▸ hk).trans (refused _)
    | true => exact (judgeRecord_badLength hk (h k rfl hk)).trans (refused _)

/-- A record handed on from a terminal or printer line is of one of the line's kinds. -/
theorem judgeRecord_eq_some {l : Line} {kind : Byte} {tag : Tag} {length : Nat} {named : Option RecKind} {required : RecKind → Nat}
    {fields : RecKind → Fields} {c : Instr} (hl : l.isLink = false)
    (h : judgeRecord l kind tag length named required fields = some c) :
    ∃ k, k.comesOn l = true ∧ commandOf l k tag (fields k) = some c := by
  by_contra hno
  have hnone : judgeRecord l kind tag length named required fields = none := judgeRecord_silent hl fun k hn hk hlen => by
    subst hn
    exact hno ⟨k, hk, (judgeRecord_taken hk hlen).symm.trans h⟩
  rw [hnone] at h
  cases h

section

variable (st : Station) (kind : Byte) (tag tag' : Tag) (length : Nat) (named : Option RecKind) (required : RecKind → Nat)
  (fields : RecKind → Fields)

/-- The tag of a terminal record is not looked at (R82). -/
theorem judgeRecord_terminal_tag : judgeRecord (.terminal st) kind tag length named required fields =
    judgeRecord (.terminal st) kind tag' length named required fields := by
  cases named with
  | none => rfl
  | some k => cases k <;> rfl

theorem judgeRecord_printer_tag : judgeRecord (.printer st) kind tag length named required fields =
    judgeRecord (.printer st) kind tag' length named required fields := by
  cases named with
  | none => rfl
  | some k => cases k <;> rfl

end

/-- The bytes of a frame (Table 10-2) and the verdicts on the bytes of a line (R180). -/
theorem frame_verdicts {f : Frame} (h : f.body.length ≤ 250) :
    f.bytes = 0xA5#8 :: BitVec.ofNat 8 (f.body.length + 2) :: f.kind :: f.tag :: f.body ++
      [(crc16 f.covered).extractLsb' 8 8, (crc16 f.covered).extractLsb' 0 8] ∧
    (∀ n < f.bytes.length, (Receiver.hunting.takeAll (f.bytes.take n)).verdict = .incomplete) ∧
    (Receiver.hunting.takeAll f.bytes).verdict = .good f ∧
    ∀ high low : Byte, high ++ low ≠ crc16 f.covered →
      (Receiver.hunting.takeAll (0xA5#8 :: f.covered ++ [high, low])).verdict = .bad (.badCheck f.covered (high ++ low)) :=
  ⟨rfl, verdict_before_end h, (verdict_of_checked h _ _).trans (if_pos (halves_append _).symm),
    fun high low hne => (verdict_of_checked h high low).trans (if_neg (Ne.symm hne))⟩

/-- A record without fields on a line that takes it. -/
theorem read_fieldless {l : Line} {k : RecKind} (hl : k.comesOn l = true) (hf : k.fieldless = true) {kind : Byte} {tag : Tag}
    {body : List Byte} {c r : Option Instr} (hc : commandOf l k tag (fieldsRead k body) = c)
    (hr : refuseRecord l tag .badLength kind = r) :
    judgeRecord l kind tag body.length (some k) (fun k => requiredLength k body) (fun k => fieldsRead k body) =
      if body = [] then c else r := by
  rw [← hc, ← hr]
  exact judgeRecord_fieldless hl hf

theorem read_collect (st : Station) (kind : Byte) (tag : Tag) (ref : Chars 8) :
    judgeRecord (.station st) kind tag ref.toList.length (some (.station .collect)) (fun k => requiredLength k ref.toList)
      (fun k => fieldsRead k ref.toList) = some (.collect st tag ref) := by
  rw [judgeRecord_taken rfl ref.length_toList]
  show some (Instr.collect st tag (charsOf ref.toList 8)) = _
  rw [charsOf_toList]

section

variable {l : Line} {b : Byte} {r : LineRec} {f : Frame} (hf : (r.receiver.take b).verdict = .good f)

include hf

theorem takeByte_of_full (hfits : ∀ x, r.train = some x → x.kind = f.kind ∧ x.tag = f.tag) (hl : l.isLink = true)
    (hfull : f.body.length = 250) : r.takeByte l b =
      ({ r with receiver := .hunting, train := some ⟨f.kind, f.tag, r.before ++ f.body, 0⟩ }, []) := by
  rw [takeByte_of_good hf, takeFrame_of_fits (r := { r with receiver := .hunting }) hfits]
  exact join_of_full _ hl hfull

theorem takeByte_of_last (hfits : ∀ x, r.train = some x → x.kind = f.kind ∧ x.tag = f.tag)
    (hlast : l.isLink = false ∨ f.body.length ≠ 250) : r.takeByte l b =
      ({ r with receiver := .hunting, train := none }, (recordTaken l f.kind f.tag (r.before ++ f.body)).toList) := by
  rw [takeByte_of_good hf, takeFrame_of_fits (r := { r with receiver := .hunting }) hfits]
  exact join_of_last _ hlast

theorem takeByte_of_interrupts (hno : ¬ ∀ x, r.train = some x → x.kind = f.kind ∧ x.tag = f.tag) : r.takeByte l b =
      ({ r with receiver := .hunting }, .trainInterrupted l f.kind f.tag f.body ::
        (if f.body.length = 250 then [] else (recordTaken l f.kind f.tag f.body).toList)) := by
  rw [takeByte_of_good hf]
  exact takeFrame_of_interrupts hno

end

section

variable {kind : Byte} {tag : Tag} {length : Nat} {named : Option RecKind} {required : RecKind → Nat} {fields : RecKind → Fields}

/-- A record of a kind that is none of a link's is answered REJECT UNKNOWN_KIND (R182, check 1). -/
theorem judgeRecord_link_unknown {link : Link} (h : ∀ k, named = some k → k.comesOn link.line = false) :
    judgeRecord link.line kind tag length named required fields = some (.reject link tag .unknownKind kind) :=
  (judgeRecord_unknown h).trans (refuseRecord_link ..)

/-- A record of a link's own kind with another length than required is answered REJECT BAD_LENGTH (R182, check 2). -/
theorem judgeRecord_link_badLength {link : Link} {k : RecKind} (hk : k.comesOn link.line = true) (hlen : length ≠ required k) :
    judgeRecord link.line kind tag length (some k) required fields = some (.reject link tag .badLength kind) :=
  (judgeRecord_badLength hk hlen).trans (refuseRecord_link ..)

theorem judgeRecord_link_taken {link : Link} {k : RecKind} (hk : k.comesOn link.line = true) (hlen : length = required k) :
    ∃ c, judgeRecord link.line kind tag length (some k) required fields = some c ∧ Instr.onLink link kind tag c = true ∧
      ∀ reason, c ≠ .reject link tag reason kind := by
  rw [judgeRecord_taken hk hlen]
  exact commandOf_link hk kind tag (fields k)

theorem judgeRecord_terminal_none {st : Station} (h : ∀ x, named = some (.terminal x) → length ≠ required (.terminal x)) :
    judgeRecord (.terminal st) kind tag length named required fields = none :=
  judgeRecord_silent rfl fun k hn hk => by
    obtain ⟨x, rfl⟩ := (comesOn_terminal_iff st k).mp hk
    exact h x hn

theorem judgeRecord_terminal_some {st : Station} {c : Instr}
    (h : judgeRecord (.terminal st) kind tag length named required fields = some c) : Instr.fromTerminal st c = true := by
  obtain ⟨k, hk, hc⟩ := judgeRecord_eq_some rfl h
  obtain ⟨x, rfl⟩ := (comesOn_terminal_iff st k).mp hk
  exact fromTerminal_terminalCommand hc

theorem judgeRecord_printer_none {st : Station} (h : ∀ x, named = some (.printer x) → length ≠ required (.printer x)) :
    judgeRecord (.printer st) kind tag length named required fields = none :=
  judgeRecord_silent rfl fun k hn hk => by
    obtain ⟨x, rfl⟩ := (comesOn_printer_iff st k).mp hk
    exact h x hn

theorem judgeRecord_printer_some {st : Station} {c : Instr}
    (h : judgeRecord (.printer st) kind tag length named required fields = some c) : Instr.fromPrinter st c = true := by
  obtain ⟨k, hk, hc⟩ := judgeRecord_eq_some rfl h
  obtain ⟨x, rfl⟩ := (comesOn_printer_iff st k).mp hk
  exact fromPrinter_printerCommand hc

end

/-- A request without fields on a link, which is answered whatever its body. -/
theorem read_request {l : Line} {k : RecKind} (hl : k.comesOn l = true) (hf : k.fieldless = true) {kind : Byte} {tag : Tag}
    {body : List Byte} {c r : Instr} (hc : commandOf l k tag (fieldsRead k body) = some c)
    (hr : refuseRecord l tag .badLength kind = some r) :
    judgeRecord l kind tag body.length (some k) (fun k => requiredLength k body) (fun k => fieldsRead k body) =
      some (if body = [] then c else r) := by
  rw [read_fieldless hl hf hc hr, apply_ite some]

/-- Settles O14: a byte by its verdict, a good frame by its train, and a record by checks 1 and 2. -/
theorem framesChecked : Obligations.FramesChecked := by
  refine ⟨crc16_digits, fun l s h => ⟨fun cause hc => congrArg Host.Outcome.next (frameError_eq h hc),
      congrArg Host.Outcome.next (frameTimeout_eq h), fun hl => congrArg Host.Outcome.next (trainTimeout_eq h hl),
      fun kind tag body hl => congrArg Host.Outcome.next (trainInterrupted_eq h hl kind tag body)⟩,
    fun b hb => take_hunting_of_ne hb, fun f hf => frame_verdicts hf, fun len hlen => verdict_of_badLength hlen,
    fun l b r => ⟨takeByte_of_incomplete, fun cause => takeByte_of_bad, fun f hf =>
      ⟨takeByte_of_full hf, takeByte_of_last hf, takeByte_of_interrupts hf⟩⟩,
    fun l kind tag body => rfl,
    fun k body => ⟨(requiredLength_eq_zero k body).trans (fieldless_iff k), fun hk => hk ▸ requiredLength_collect body⟩,
    fun st kind tag body => ⟨read_request rfl rfl rfl rfl, read_request rfl rfl rfl rfl, read_request rfl rfl rfl rfl,
      read_fieldless rfl rfl rfl rfl, fun hlen => judgeRecord_badLength rfl hlen, fun ref href => href ▸ read_collect st kind tag ref⟩,
    fun link kind tag length required fields => ⟨judgeRecord_link_unknown nofun, fun k => ⟨fun hown => ?_,
      fun hown hlen => judgeRecord_link_badLength ((comesOn_link_iff link k).mpr hown) hlen,
      fun hown hlen => judgeRecord_link_taken ((comesOn_link_iff link k).mpr hown) hlen⟩⟩,
    fun st kind tag length named required fields => ⟨judgeRecord_terminal_none, fun _ => judgeRecord_terminal_some,
      judgeRecord_printer_none, fun _ => judgeRecord_printer_some,
      fun tag' => ⟨judgeRecord_terminal_tag .., judgeRecord_printer_tag ..⟩⟩⟩
  have hforeign : k.comesOn link.line = false := Bool.eq_false_iff.mpr fun e => hown ((comesOn_link_iff link k).mp e)
  exact judgeRecord_link_unknown fun _ e => Option.some.inj e ▸ hforeign

end Sys2Proof.Machine
end

section
/-! The records that the blocks put out when a line is lost: on which lines, and none of them LINE-STATE (R179). -/

namespace Sys2Proof.Machine

/-- Is a record a LINE-STATE? -/
def OutRec.isLineState : OutRec → Bool
  | .lineState _ _ _ => true
  | _ => false

theorem not_mem_of_isLineState {rs : List OutRec} (h : ∀ r ∈ rs, r.isLineState = false) (m : Line) (x : LineState) (n : Nat) :
    .lineState m x n ∉ rs := fun hmem => Bool.noConfusion (h _ hmem)

/-- From `s` to `t` records are put out on the lines of `on` alone, and none of them is a LINE-STATE; the lines do not change
besides. -/
structure PutsOut (on : Line → Prop) (s t : State) : Prop where
  lines : ∀ m, ∃ rs, (rs ≠ [] → on m) ∧ (∀ r ∈ rs, r.isLineState = false) ∧ t.line m = s.lineWith m rs

section

variable {on : Line → Prop} {s t u : State}

theorem PutsOut.of_lines (h : t.lines = s.lines) : PutsOut on s t := ⟨fun m =>
  ⟨[], (absurd rfl ·), fun r hr => absurd hr List.not_mem_nil, by
    have hm : t.line m = s.line m := by unfold State.line; rw [h]
    rw [hm, lineWith_nil]⟩⟩

theorem PutsOut.refl (s : State) : PutsOut on s s := .of_lines rfl

theorem PutsOut.trans (h1 : PutsOut on s t) (h2 : PutsOut on t u) : PutsOut on s u := ⟨fun m => by
  obtain ⟨a, hona, ha, hline⟩ := h1.lines m
  obtain ⟨b, honb, hb, hline'⟩ := h2.lines m
  refine ⟨a ++ b, fun hne => ?_, fun r hr => (List.mem_append.mp hr).elim (ha r) (hb r),
    hline'.trans (lineWith_lineWith hline b)⟩
  by_cases hnil : a = []
  · exact honb fun e => hne (by rw [hnil, e]; rfl)
  · exact hona hnil⟩

theorem PutsOut.after (h : PutsOut on t u) (hlines : t.lines = s.lines) : PutsOut on s u := PutsOut.trans (.of_lines hlines) h

theorem PutsOut.mono {wider : Line → Prop} (h : PutsOut on s t) (hon : ∀ m, on m → wider m) : PutsOut wider s t :=
  ⟨fun m => by
    obtain ⟨rs, hrs, h⟩ := h.lines m
    exact ⟨rs, fun hne => hon m (hrs hne), h⟩⟩

theorem putsOut_emit {l : Line} (hl : on l) {r : OutRec} (hr : r.isLineState = false) (s : State) : PutsOut on s (emit l r s) :=
  ⟨fun m => by
    by_cases e : m = l
    · subst e
      exact ⟨[r], fun _ => hl, fun x hx => List.mem_singleton.mp hx ▸ hr, line_emit ..⟩
    · exact ⟨[], (absurd rfl ·), fun x hx => absurd hx List.not_mem_nil, by rw [line_emit_ne e, lineWith_nil]⟩⟩

theorem putsOut_foldl {α : Type} {f : State → α → State} : ∀ (l : List α) (s : State), (∀ t, ∀ a ∈ l, PutsOut on t (f t a)) →
    PutsOut on s (l.foldl f s)
  | [], s, _ => .refl s
  | a :: l, s, h => (h s a List.mem_cons_self).trans (putsOut_foldl l _ fun t b hb => h t b (List.mem_cons_of_mem _ hb))

/-- A line on which nothing is put out stays as it is. -/
theorem PutsOut.line_of_not (h : PutsOut on s t) {m : Line} (hm : ¬ on m) : t.line m = s.line m := by
  obtain ⟨rs, hrs, -, hline⟩ := h.lines m
  have hnil : rs = [] := by_contra fun hne => hm (hrs hne)
  rw [hline, hnil, lineWith_nil]

/-- A lost line stays as it is. -/
theorem PutsOut.line_of_lost (h : PutsOut on s t) {m : Line} (hm : s.isLost m = true) : t.line m = s.line m := by
  obtain ⟨rs, -, -, hline⟩ := h.lines m
  exact hline.trans (lineWith_of_lost hm rs)

theorem PutsOut.state (h : PutsOut on s t) (m : Line) : (t.line m).state = (s.line m).state := by
  obtain ⟨rs, -, -, hline⟩ := h.lines m
  rw [hline, State.lineWith]
  split <;> rfl

theorem PutsOut.isLost (h : PutsOut on s t) (m : Line) : t.isLost m = s.isLost m := by
  unfold State.isLost; rw [h.state]

theorem PutsOut.out (h : PutsOut on s t) {m : Line} (hm : s.isLost m = false) :
    ∃ rs, (∀ r ∈ rs, r.isLineState = false) ∧ (t.line m).out = (s.line m).out ++ rs := by
  obtain ⟨rs, -, hrs, hline⟩ := h.lines m
  exact ⟨rs, hrs, by rw [hline, lineWith_of_up hm]⟩

/-! ### Notices of items and journal -/

theorem putsOut_judgeLow (code : Nat) (s : State) : PutsOut (· = .site) s (judgeLow code s) := by
  have set (x : Item) : PutsOut (· = .site) s (setItem code x s) := .of_lines (by rw [setItem_frame])
  unfold judgeLow
  split
  · exact .refl s
  · split
    · split
      · exact (set _).trans (putsOut_emit (on := (· = .site)) rfl rfl _)
      · exact .refl s
    · exact set _

theorem putsOut_judgeJournal (s : State) : PutsOut (· = .site) s (judgeJournal s) := by
  unfold judgeJournal
  split
  · split
    · exact (putsOut_emit (on := (· = .site)) rfl rfl _).after rfl
    · exact .refl s
  · exact .of_lines rfl

/-! ### Baskets -/

theorem putsOut_releaseHold (n : Nat) (s : State) : PutsOut on s (releaseHold n s) := .of_lines (by rw [releaseHold_frame])

theorem putsOut_emptyBasket (st : Station) (s : State) : PutsOut (· = .site) s (emptyBasket st s) := by
  have released := putsOut_foldl (on := (· = .site)) (s.holdsToRelease st) s fun t n _ => putsOut_releaseHold n t
  have returned (t : State) := putsOut_foldl (s.basket st).snacks t fun t x _ =>
    PutsOut.trans (.of_lines (modifyItem_lines x.item (fun i => { i with reserved := i.reserved - x.qty }) t))
      (putsOut_judgeLow x.item _)
  exact (released.trans (returned _)).trans (.of_lines rfl)

/-- The lines on which the end of a payment at a station puts records out. -/
def EndsOn (st : Station) (m : Line) : Prop := m = .site ∨ m = .station st

theorem putsOut_emit_station {st : Station} {r : OutRec} (hr : r.isLineState = false) (s : State) :
    PutsOut (EndsOn st) s (emit (.station st) r s) := putsOut_emit (.inr rfl) hr s

theorem PutsOut.onSite {st : Station} (h : PutsOut (· = .site) s t) : PutsOut (EndsOn st) s t := h.mono fun _ => .inl

theorem putsOut_settleBasket (st : Station) (s : State) : PutsOut (EndsOn st) s (settleBasket st s) := by
  have emptied : PutsOut (EndsOn st) s (emptyBasket st s) := (putsOut_emptyBasket st s).onSite
  unfold settleBasket
  dsimp only
  split
  · exact emptied.trans (putsOut_emit_station rfl _)
  · split
    · exact emptied
    · split
      · exact (putsOut_emit_station rfl _).after rfl
      · exact .refl s

/-! ### The end of a payment -/

section

variable (st : Station) (p : Payment) (o : Option PayOutcome) (s : State)

theorem putsOut_releaseReservations : PutsOut (· = .site) s (releaseReservations st p s) := by
  unfold releaseReservations
  dsimp only
  have freed : PutsOut (· = .site) s (if p.resSale then { s with salesReserved := s.salesReserved - 1 } else s) := by
    split
    · exact .of_lines rfl
    · exact .refl s
  split
  · exact freed.trans ((putsOut_judgeJournal _).after rfl)
  · exact freed.trans (.of_lines rfl)

theorem putsOut_tellOutcome : PutsOut (EndsOn st) s (tellOutcome st p o s) := by
  unfold tellOutcome
  repeat' split
  · exact .refl s
  · exact putsOut_emit_station rfl s
  · exact .refl s

theorem putsOut_endWithoutSale : PutsOut (EndsOn st) s (endWithoutSale st p o s) := by
  have counted (t : State) : PutsOut (EndsOn st) t
      (if p.asked then modifyBasket st (fun b => { b with attempts := b.attempts + 1 }) t else t) := by
    split
    · exact .of_lines rfl
    · exact .refl t
  have standing (t : State) : PutsOut (EndsOn st) t (setHoldPhases st .standing t) := .of_lines (by rw [setHoldPhases_frame])
  have before := ((putsOut_releaseReservations st p s).onSite.trans (counted _)).trans (standing _)
  exact ((before.trans (putsOut_settleBasket st _)).trans (putsOut_tellOutcome st p o _)).trans (.of_lines rfl)

theorem putsOut_reverseAndEnd (confirmed : Bool) (reason : ReversalReason) :
    PutsOut (EndsOn st) s (reverseAndEnd st p confirmed reason o s) :=
  (putsOut_endWithoutSale ..).after rfl

theorem putsOut_answerPay (c : Code) (vs : List Val) : PutsOut (EndsOn st) s (answerPay st c vs s) := by
  unfold answerPay
  split
  · exact (putsOut_emit_station rfl s).trans (.of_lines rfl)
  · exact .refl s

theorem putsOut_endCapture (c : CaptureState) : PutsOut (EndsOn st) s (endCapture st p c s) := by
  unfold endCapture
  split
  · exact (putsOut_releaseReservations st p s).onSite.trans (.of_lines rfl)
  · exact .of_lines rfl

end

/-! ### Printing -/

/-- Printing puts records out on every line. -/
abbrev PutsAnywhere (s t : State) : Prop := PutsOut (fun _ => True) s t

theorem putsOut_ordersEnded (st : Station) (n k : Nat) (s : State) : PutsAnywhere s (ordersEnded st n k s) := by
  unfold ordersEnded
  split
  · exact .refl s
  · dsimp only
    split
    · exact PutsOut.after (putsOut_emit trivial rfl _) rfl
    · exact .of_lines rfl

theorem putsOut_dropAtStart (st : Station) (o : Order) (reason : Option LimitReason) (s : State) :
    PutsAnywhere s (dropAtStart st o reason s) := by
  cases reason with
  | none => exact (putsOut_ordersEnded ..).after rfl
  | some r =>
    have told : PutsAnywhere s (emit .site (.printLimit o.sale st r [o.item])
        (modifyLane st (fun l => { l with queue := removeFirst Order.isQueued l.queue }) s)) :=
      PutsOut.after (putsOut_emit trivial rfl _) rfl
    exact told.trans (putsOut_ordersEnded ..)

theorem raiseGeneration_lines (o : Order) (s : State) : (raiseGeneration o s).lines = s.lines := by rw [raiseGeneration_frame]

theorem putsOut_startNext (st : Station) : ∀ (fuel : Nat) (s : State), PutsAnywhere s (startNext st fuel s).1
  | 0, s => .refl s
  | fuel + 1, s => by
    unfold startNext
    split
    · exact .refl s
    · split
      · exact (putsOut_dropAtStart ..).trans (putsOut_startNext st fuel _)
      · exact .of_lines (raiseGeneration_lines ..)

theorem isLineState_burstFrames {l : Lane} {size : Nat} {r : OutRec} (h : r ∈ burstFrames l size) : r.isLineState = false := by
  obtain ⟨i, -, rfl⟩ := List.mem_map.mp h
  rfl

theorem putsOut_sendBurst (st : Station) (s : State) : PutsAnywhere s (sendBurst st s) :=
  (putsOut_foldl _ s fun t _ hr => putsOut_emit trivial (isLineState_burstFrames hr) t).trans (.of_lines rfl)

theorem putsOut_grant (st : Station) (s : State) : PutsAnywhere s (grant st s).1 := by
  unfold grant
  dsimp only
  split
  · exact putsOut_sendBurst ..
  · split
    · exact (putsOut_startNext ..).trans (putsOut_sendBurst ..)
    · exact putsOut_startNext ..

theorem putsOut_arbitrate (out : Option Station) : ∀ (fuel : Nat) (s : State), PutsAnywhere s (arbitrate out fuel s)
  | 0, s => .refl s
  | fuel + 1, s => by
    unfold arbitrate
    dsimp only
    split
    · exact .refl s
    · split
      · exact putsOut_grant ..
      · exact (putsOut_grant ..).trans (putsOut_arbitrate out fuel _)

theorem putsOut_laneFault (st : Station) (k : FaultKind) (s : State) : PutsAnywhere s (laneFault st k s) := by
  cases hs : (s.lane st).suspended with
  | some held =>
    rw [laneFault_of_suspended hs]
    exact PutsOut.after (putsOut_emit trivial rfl _) rfl
  | none =>
    have told : PutsAnywhere s (faultTold st k s) :=
      (putsOut_emit trivial rfl _).after (by rw [laneStopped_frame])
    rw [laneFault_of_unsuspended hs, suspendLane_eq]
    split
    · exact told.trans ((putsOut_arbitrate ..).after rfl)
    · exact told

/-! ### What a loss tells the blocks (R179) -/

theorem putsOut_stationLost (st : Station) (s : State) : PutsOut (· = .site) s (stationLost st s) := by
  have emptied (t : State) : PutsOut (· = .site) t (if t.payIdle st then emptyBasket st t else t) := by
    split
    · exact putsOut_emptyBasket st t
    · exact .refl t
  unfold stationLost
  split
  · exact (putsOut_releaseHold ..).trans (emptied _)
  · exact emptied s

theorem putsOut_terminalLost (st : Station) (s : State) : PutsOut (EndsOn st) s (terminalLost st s) := by
  unfold terminalLost
  split
  · exact .refl s
  · split
    · exact (putsOut_answerPay ..).trans (putsOut_endWithoutSale ..)
    · exact putsOut_reverseAndEnd ..
    · split
      · exact putsOut_reverseAndEnd ..
      · exact putsOut_endWithoutSale ..
    · exact putsOut_reverseAndEnd ..
    · exact putsOut_endCapture ..

theorem putsOut_reportLoss (l : Line) (s : State) : PutsAnywhere s (reportLoss l s) := by
  have printer (st : Station) : PutsAnywhere s (printerLost st s) := by
    unfold printerLost
    split
    · exact putsOut_laneFault ..
    · exact .refl s
  cases l with
  | site => exact .refl s
  | station st => exact (putsOut_stationLost st s).mono fun _ _ => trivial
  | terminal st => exact (putsOut_terminalLost st s).mono fun _ _ => trivial
  | printer st => exact printer st

end

end Sys2Proof.Machine
end

section
/-! The loss of a line of each kind (R179, R106, R143): O19. -/

namespace Sys2Proof.Machine

/-! ### The end of a payment without a sale, from a state that differs beside the stores (R94) -/

/-- What the end of a payment without a sale leaves: the basket settled, the station answered and told, the sales as they were and
the reservations released (R94). -/
structure Ended (st : Station) (p : Payment) (answered told : List OutRec) (s t : State) : Prop where
  settled : BasketSettled st p.asked s t
  tells : EndTold st answered told s t
  out : s.isLost (.station st) = false → ∃ mid,
    (t.line (.station st)).out = (s.line (.station st)).out ++ answered ++ mid ++ told
  sales : t.sales = s.sales
  salesReserved : t.salesReserved = if p.resSale then s.salesReserved - 1 else s.salesReserved
  lanes : t.lanes = s.lanes.set st { s.lane st with reservedRoom := (s.lane st).reservedRoom - p.resLane }

/-- The station's line at the end of a payment: something of the settling, then the outcome told. -/
theorem line_endWithoutSale (st : Station) (p : Payment) (o : Option PayOutcome) (s : State) :
    ∃ mid, (endWithoutSale st p o s).line (.station st) = s.lineWith (.station st) (mid ++ toldOutcome st p o s) := by
  obtain ⟨w, hw, hpays, he⟩ := endWithoutSale_eq st p o s
  obtain ⟨mid, -, -, hmid⟩ := (putsOut_settleBasket st w).lines (.station st)
  have hpay : (settleBasket st w).pay st = s.pay st := by rw [settleBasket_frame]; unfold State.pay; rw [← hpays]
  have htold : toldOutcome st p o (settleBasket st w) = toldOutcome st p o s := by unfold toldOutcome; rw [hpay]
  refine ⟨mid, ?_⟩
  rw [he, ← htold]
  exact (line_tellOutcome ..).trans (lineWith_lineWith (hmid.trans (lineWith_congr hw.line mid)) _)

/-- A state before the end of a payment that differs from `s` in the answer given and in what the end does not read. -/
structure EndsFrom (st : Station) (answered : List OutRec) (s u : State) : Prop where
  stores : SameStores st s u
  line : u.line (.station st) = s.lineWith (.station st) answered
  sales : u.sales = s.sales
  salesReserved : u.salesReserved = s.salesReserved
  lanes : u.lanes = s.lanes
  pays : u.pays = s.pays

theorem ended_endWithoutSale {st : Station} {answered : List OutRec} {s u : State} (h : EndsFrom st answered s u) (p : Payment)
    (o : Option PayOutcome) : Ended st p answered (toldOutcome st p o s) s (endWithoutSale st p o u) := by
  have hlane : u.lane st = s.lane st := by unfold State.lane; rw [h.lanes]
  have htold : toldOutcome st p o u = toldOutcome st p o s := by unfold toldOutcome State.pay; rw [h.pays]
  have told := endTold_endWithoutSale st p o u
  obtain ⟨mid, hmid⟩ := line_endWithoutSale st p o u
  rw [htold] at told hmid
  refine ⟨.of_before h.stores (basketSettled_endWithoutSale st p o u), .of_before h.stores h.line told, fun hup => ⟨mid, ?_⟩,
    ?_, ?_, ?_⟩
  · rw [hmid, lineWith_lineWith h.line, lineWith_of_up hup, List.append_assoc, List.append_assoc]
  · rw [endWithoutSale_frame, h.sales]
  · rw [endWithoutSale_frame, h.salesReserved]
  · rw [endWithoutSale_frame, h.lanes, hlane]

/-- A REVERSAL record written before the end changes none of it. -/
theorem ended_reverseAndEnd (st : Station) (p : Payment) (confirmed : Bool) (reason : ReversalReason) (o : Option PayOutcome)
    (s : State) : Ended st p [] (toldOutcome st p o s) s (reverseAndEnd st p confirmed reason o s) := by
  have before : EndsFrom st [] s (writeReserved none p.amount (.reversal st (s.saleRef st) confirmed reason p.auth) s) :=
    ⟨⟨rfl, rfl, rfl, rfl, rfl⟩, (lineWith_nil s (.station st)).symm, rfl, rfl, rfl, rfl⟩
  obtain ⟨settled, told, out, sales, salesReserved, lanes⟩ := ended_endWithoutSale before { p with resJournal := false } o
  exact ⟨settled, told, out, sales, salesReserved, lanes⟩

/-! ### The loss of a terminal line, by the state of the payment (R106) -/

/-- Does the loss of the terminal line leave a REVERSAL record? -/
def Payment.reverses (p : Payment) : Bool :=
  decide (p.phase = .authorising) || (decide (p.phase = .aborting) && p.asked) || decide (p.phase = .reversing)

/-- The outcome of Table 5-12 for a payment whose terminal line is lost. -/
def Payment.lossOutcome (p : Payment) : Option PayOutcome :=
  match p.phase with
  | .authorising | .aborting => some .lineLost
  | .reversing => abortOutcomeOf p.cause
  | .selecting | .capturing => none

/-- The answer to the PAY in progress of a selection whose terminal line is lost (R85). -/
def State.lossAnswer (s : State) (st : Station) (p : Payment) : List OutRec :=
  match p.phase, s.request st with
  | .selecting, some r => [.reply r.tag .lineDown [.saleRef ⟨st, (s.pay st).count⟩]]
  | _, _ => []

section

variable {st : Station} {p : Payment} {s : State}

theorem terminalLost_of_none (hp : s.payment st = none) : terminalLost st s = s := by rw [terminalLost, hp]

theorem terminalLost_of_selecting (hp : s.payment st = some p) (hph : p.phase = .selecting) :
    terminalLost st s = selectionFails st p .lineDown [] s := by simp [terminalLost, hp, hph]

theorem terminalLost_of_capturing (hp : s.payment st = some p) (hph : p.phase = .capturing) :
    terminalLost st s = endCapture st p .unconfirmed s := by simp [terminalLost, hp, hph]

theorem terminalLost_of_unasked (hp : s.payment st = some p) (hph : p.phase = .aborting) (hasked : p.asked = false) :
    terminalLost st s = endWithoutSale st p p.lossOutcome s := by
  simp [terminalLost, hp, hph, hasked, Payment.lossOutcome]

theorem terminalLost_of_reverses (hp : s.payment st = some p) (h : p.reverses = true) :
    terminalLost st s = reverseAndEnd st p false .lineLost p.lossOutcome s := by
  cases hph : p.phase with
  | selecting => simp [Payment.reverses, hph] at h
  | authorising => simp [terminalLost, hp, hph, Payment.lossOutcome]
  | aborting =>
    have hasked : p.asked = true := by simpa [Payment.reverses, hph] using h
    simp [terminalLost, hp, hph, hasked, Payment.lossOutcome]
  | capturing => simp [Payment.reverses, hph] at h
  | reversing => simp [terminalLost, hp, hph, Payment.lossOutcome]

/-- The three ways in which a loss ends a payment without a sale. -/
theorem loss_cases (hph : p.phase ≠ .capturing) :
    p.reverses = true ∨ (p.phase = .aborting ∧ p.asked = false) ∨ p.phase = .selecting := by
  unfold Payment.reverses
  cases h : p.phase <;> simp_all

theorem lossAnswer_of_other (hph : p.phase ≠ .selecting) : s.lossAnswer st p = [] := by
  unfold State.lossAnswer
  split
  · next h _ => exact absurd h hph
  · rfl

theorem not_selecting_of_reverses (h : p.reverses = true) : p.phase ≠ .selecting := fun hph => by
  simp [Payment.reverses, hph] at h

/-- The answer to the PAY of a selection. -/
theorem endsFrom_answerPay (hph : p.phase = .selecting) :
    EndsFrom st (s.lossAnswer st p) s (answerPay st .lineDown [.saleRef (s.saleRef st)] s) := by
  have hframe := answerPay_frame st .lineDown [.saleRef (s.saleRef st)] s
  have hline : (answerPay st .lineDown [.saleRef (s.saleRef st)] s).line (.station st) =
      s.lineWith (.station st) (s.lossAnswer st p) := by
    unfold State.lossAnswer
    rw [hph]
    cases hr : s.request st with
    | none => rw [answerPay, hr, lineWith_nil]
    | some r => rw [answerPay_of_request hr]; exact line_emit ..
  have hlost := (putsOut_answerPay st s .lineDown [.saleRef (s.saleRef st)]).isLost (.station st)
  generalize answerPay st .lineDown [.saleRef (s.saleRef st)] s = a at hframe hline hlost
  exact ⟨⟨by rw [hframe], by rw [hframe], by rw [hframe], by rw [hframe], hlost⟩, hline, by rw [hframe], by rw [hframe],
    by rw [hframe], by rw [hframe]⟩

theorem endsFrom_refl (st : Station) (s : State) : EndsFrom st [] s s :=
  ⟨⟨rfl, rfl, rfl, rfl, rfl⟩, (lineWith_nil ..).symm, rfl, rfl, rfl, rfl⟩

/-- The payment that a lost terminal line ends without a sale. -/
theorem ended_terminalLost (hp : s.payment st = some p) (hph : p.phase ≠ .capturing) :
    Ended st p (s.lossAnswer st p) (toldOutcome st p p.lossOutcome s) s (terminalLost st s) := by
  rcases loss_cases hph with h | ⟨habort, hasked⟩ | hselect
  · rw [terminalLost_of_reverses hp h, lossAnswer_of_other (not_selecting_of_reverses h)]
    exact ended_reverseAndEnd ..
  · rw [terminalLost_of_unasked hp habort hasked, lossAnswer_of_other (by simp [habort])]
    exact ended_endWithoutSale (endsFrom_refl st s) p _
  · have hnone : p.lossOutcome = none := by simp [Payment.lossOutcome, hselect]
    rw [terminalLost_of_selecting hp hselect, hnone]
    exact ended_endWithoutSale (endsFrom_answerPay hselect) p none

/-! ### The fields a lost terminal line reaches -/

theorem selectionFails_frame (c : Code) (vs : List Val) : selectionFails st p c vs s = { s with
    screenings := (selectionFails st p c vs s).screenings, holds := (selectionFails st p c vs s).holds,
    items := (selectionFails st p c vs s).items, baskets := s.baskets.set st ((selectionFails st p c vs s).basket st),
    salesReserved := if p.resSale then s.salesReserved - 1 else s.salesReserved,
    lanes := s.lanes.set st { s.lane st with reservedRoom := (s.lane st).reservedRoom - p.resLane },
    journalReserved := if p.resJournal then s.journalReserved - 1 else s.journalReserved,
    journalArmed := (selectionFails st p c vs s).journalArmed, requests := s.requests.set st none,
    pays := s.pays.set st { s.pay st with current := none }, lines := (selectionFails st p c vs s).lines } := by
  have hframe := answerPay_frame st c (.saleRef (s.saleRef st) :: vs) s
  unfold selectionFails
  generalize answerPay st c (.saleRef (s.saleRef st) :: vs) s = a at hframe
  have hend := endWithoutSale_frame st p none a
  generalize endWithoutSale st p none a = t at hend ⊢
  generalize a.lines = ls at hframe
  subst hframe
  exact hend

theorem endCapture_frame (c : CaptureState) : endCapture st p c s = { s with
    sales := (endCapture st p c s).sales, salesReserved := (endCapture st p c s).salesReserved,
    lanes := (endCapture st p c s).lanes, journal := (endCapture st p c s).journal, nextSeq := (endCapture st p c s).nextSeq,
    journalReserved := (endCapture st p c s).journalReserved, journalArmed := (endCapture st p c s).journalArmed,
    pays := s.pays.set st { s.pay st with current := none }, lines := (endCapture st p c s).lines } := by
  have released := releaseReservations_frame st p s
  unfold endCapture
  split
  · generalize releaseReservations st p s = u at released ⊢
    rw [released]
    rfl
  · rfl

theorem terminalLost_frame (hp : s.payment st = some p) : terminalLost st s = { s with
    screenings := (terminalLost st s).screenings, holds := (terminalLost st s).holds, items := (terminalLost st s).items,
    baskets := s.baskets.set st ((terminalLost st s).basket st), sales := (terminalLost st s).sales,
    salesReserved := (terminalLost st s).salesReserved, journal := (terminalLost st s).journal,
    nextSeq := (terminalLost st s).nextSeq, journalReserved := (terminalLost st s).journalReserved,
    journalArmed := (terminalLost st s).journalArmed, lanes := (terminalLost st s).lanes,
    requests := (terminalLost st s).requests, pays := s.pays.set st { s.pay st with current := none },
    lines := (terminalLost st s).lines } := by
  by_cases hph : p.phase = .capturing
  · rw [terminalLost_of_capturing hp hph]
    have h := endCapture_frame (st := st) (p := p) (s := s) .unconfirmed
    have hbasket : s.baskets.set st ((endCapture st p .unconfirmed s).basket st) = s.baskets := by
      rw [h]; exact set_self s.baskets st
    rw [hbasket]
    generalize endCapture st p .unconfirmed s = t at h ⊢
    rw [h]
  · rcases loss_cases hph with h | ⟨habort, hasked⟩ | hselect
    · rw [terminalLost_of_reverses hp h]
      have h := reverseAndEnd_frame st p false .lineLost p.lossOutcome s
      generalize reverseAndEnd st p false .lineLost p.lossOutcome s = t at h ⊢
      generalize t.basket st = b at h ⊢
      rw [h]
    · rw [terminalLost_of_unasked hp habort hasked]
      have h := endWithoutSale_frame st p p.lossOutcome s
      generalize endWithoutSale st p p.lossOutcome s = t at h ⊢
      generalize t.basket st = b at h ⊢
      rw [h]
    · rw [terminalLost_of_selecting hp hselect]
      have h := selectionFails_frame (st := st) (p := p) (s := s) .lineDown []
      generalize selectionFails st p .lineDown [] s = t at h ⊢
      generalize t.basket st = b at h ⊢
      rw [h]

theorem requests_terminalLost (hp : s.payment st = some p) : (terminalLost st s).requests =
    if p.phase = .selecting then s.requests.set st none else s.requests := by
  by_cases hph : p.phase = .capturing
  · rw [terminalLost_of_capturing hp hph, endCapture_frame, if_neg (show p.phase ≠ .selecting by simp [hph])]
  · rcases loss_cases hph with h | ⟨habort, hasked⟩ | hselect
    · rw [terminalLost_of_reverses hp h, reverseAndEnd_frame, if_neg (not_selecting_of_reverses h)]
    · rw [terminalLost_of_unasked hp habort hasked, endWithoutSale_frame, if_neg (show p.phase ≠ .selecting by simp [habort])]
    · rw [terminalLost_of_selecting hp hselect, selectionFails_frame, if_pos hselect]

/-- With no reserved entry left the end of a payment judges no journal notice. -/
theorem journalArmed_endWithoutSale (h : p.resJournal = false) (o : Option PayOutcome) :
    (endWithoutSale st p o s).journalArmed = s.journalArmed := by
  have released : (releaseReservations st p s).journalArmed = s.journalArmed := by
    unfold releaseReservations
    simp only [h]
    cases p.resSale <;> rfl
  unfold endWithoutSale
  show (tellOutcome st p o (settleBasket st (setHoldPhases st .standing _))).journalArmed = _
  rw [tellOutcome_frame, settleBasket_frame, setHoldPhases_frame]
  split
  · exact released
  · exact released

theorem journal_terminalLost_of_reverses (hp : s.payment st = some p) (h : p.reverses = true) :
    (terminalLost st s).journal = s.journal ++ [{
      seq := s.nextSeq, time := s.timeBase, sale := none, amount := p.amount,
      body := .reversal st ⟨st, (s.pay st).count⟩ false .lineLost p.auth }] ∧
    (terminalLost st s).journalReserved = s.journalReserved - 1 ∧
    (terminalLost st s).nextSeq = (if s.nextSeq < 4294967295 then s.nextSeq + 1 else 1) ∧
    (terminalLost st s).journalArmed = s.journalArmed := by
  rw [terminalLost_of_reverses hp h]
  refine ⟨?_, ?_, ?_, journalArmed_endWithoutSale rfl _⟩
  · rw [reverseAndEnd_frame]; rfl
  · rw [reverseAndEnd_frame]
  · rw [reverseAndEnd_frame]; rfl

theorem journal_terminalLost_of_kept (hp : s.payment st = some p)
    (h : p.phase = .selecting ∨ (p.phase = .aborting ∧ p.asked = false)) :
    (terminalLost st s).journal = s.journal ∧ (terminalLost st s).nextSeq = s.nextSeq ∧
    (terminalLost st s).journalReserved = if p.resJournal then s.journalReserved - 1 else s.journalReserved := by
  rcases h with hselect | ⟨habort, hasked⟩
  · rw [terminalLost_of_selecting hp hselect, selectionFails_frame]
    exact ⟨rfl, rfl, rfl⟩
  · rw [terminalLost_of_unasked hp habort hasked, endWithoutSale_frame]
    exact ⟨rfl, rfl, rfl⟩

end

end Sys2Proof.Machine
end

section
/-! The loss of a line of each kind, with what is told of it (R179, R106, R143): O19. -/

namespace Sys2Proof.Machine

/-! ### The line lost, and the loss told -/

/-- A line that is LOST: its watch has ended, and nothing waits on it (R179). -/
def State.without (s : State) (l : Line) : State :=
  setLine l { s.line l with state := .lost, watch := none, out := [] } s

/-- LINE-STATE for the loss of a line of `s`, where R179 names the line, behind what the block told has sent. -/
def State.noticing (s : State) (l : Line) (w : State) : State :=
  if s.reported l .lost then emit .site (.lineState l .lost (s.line l).errors) w else w

section

variable {l : Line} {s : State}

theorem line_without (l : Line) (s : State) :
    (s.without l).line l = { s.line l with state := .lost, watch := none, out := [] } := line_setLine ..

theorem line_without_ne {m : Line} (h : m ≠ l) (s : State) : (s.without l).line m = s.line m := line_setLine_ne h ..

theorem isLost_without (l : Line) (s : State) : (s.without l).isLost l = true := by
  unfold State.isLost; rw [line_without]; rfl

theorem isLost_without_ne {m : Line} (h : m ≠ l) (s : State) : (s.without l).isLost m = s.isLost m := by
  unfold State.isLost; rw [line_without_ne h]

theorem noticing_frame (s : State) (l : Line) (w : State) : s.noticing l w = { w with lines := (s.noticing l w).lines } := by
  unfold State.noticing
  split
  · exact emit_frame ..
  · rfl

theorem line_noticing_ne {m : Line} (h : m ≠ .site) (s : State) (l : Line) (w : State) :
    (s.noticing l w).line m = w.line m := by
  unfold State.noticing
  split
  · exact line_emit_ne h ..
  · rfl

theorem line_noticing_site (s : State) (l : Line) (w : State) : (s.noticing l w).line .site =
    w.lineWith .site (if s.reported l .lost then [.lineState l .lost (s.line l).errors] else []) := by
  unfold State.noticing
  split
  · exact line_emit ..
  · exact (lineWith_nil ..).symm

theorem state_line_noticing (s : State) (l : Line) (w : State) (m : Line) :
    ((s.noticing l w).line m).state = (w.line m).state := by
  unfold State.noticing
  split
  · exact state_line_emit ..
  · rfl

/-- A block told of a loss leaves the configuration, the limits and the time base. -/
theorem reportLoss_keeps (l : Line) (s : State) : (reportLoss l s).stations = s.stations ∧
    (reportLoss l s).limits = s.limits ∧ (reportLoss l s).timeBase = s.timeBase := by
  have of_book {t : State} (h : t.linkBook = s.linkBook) :
      t.stations = s.stations ∧ t.limits = s.limits ∧ t.timeBase = s.timeBase :=
    ⟨congrArg LinkBook.stations h, congrArg LinkBook.limits h, congrArg LinkBook.timeBase h⟩
  cases l with
  | site => exact ⟨rfl, rfl, rfl⟩
  | station st => exact of_book (linkBook_stationLost st s)
  | printer st => exact of_book (linkBook_printerLost st s)
  | terminal st =>
    change (terminalLost st s).stations = _ ∧ (terminalLost st s).limits = _ ∧ (terminalLost st s).timeBase = _
    cases hp : s.payment st with
    | none => rw [terminalLost_of_none hp]; exact ⟨rfl, rfl, rfl⟩
    | some p => rw [terminalLost_frame hp]; exact ⟨rfl, rfl, rfl⟩

/-- The loss of a line reaches the line, then its block, and is told last (R179). -/
theorem lineLost_eq (hup : s.isLost l = false) : lineLost l s = s.noticing l (reportLoss l (s.without l)) := by
  have hstations : (reportLoss l (s.without l)).stations = s.stations := (reportLoss_keeps l (s.without l)).1
  have hreported : (reportLoss l (s.without l)).reported l .lost = s.reported l .lost := by
    unfold State.reported State.station
    rw [hstations]
  have herrors : ((reportLoss l (s.without l)).line l).errors = (s.line l).errors := by
    rw [(putsOut_reportLoss l (s.without l)).line_of_lost (isLost_without l s), line_without]
  have hlose : modifyLine l LineRec.lose s = s.without l := rfl
  simp only [lineLost, hup, Bool.false_eq_true, if_false, hlose, noticeLine, hreported, herrors, State.noticing]

theorem lineLost_site (hup : s.isLost .site = false) : lineLost .site s = s.without .site := lineLost_eq hup

/-- The lost line itself. -/
theorem line_lineLost (hup : s.isLost l = false) :
    (lineLost l s).line l = { s.line l with state := .lost, watch := none, out := [] } := by
  by_cases hl : l = .site
  · subst hl
    rw [lineLost_site hup, line_without]
  · rw [lineLost_eq hup, line_noticing_ne hl, (putsOut_reportLoss l _).line_of_lost (isLost_without l s), line_without]

theorem state_line_lineLost (hup : s.isLost l = false) (m : Line) :
    ((lineLost l s).line m).state = if m = l then .lost else (s.line m).state := by
  rw [lineLost_eq hup, state_line_noticing, (putsOut_reportLoss l _).state]
  split
  · next h => subst h; rw [line_without]
  · next h => rw [line_without_ne h]

theorem lineLost_keeps (hup : s.isLost l = false) : (lineLost l s).stations = s.stations ∧
    (lineLost l s).limits = s.limits ∧ (lineLost l s).timeBase = s.timeBase := by
  rw [lineLost_eq hup, noticing_frame]
  exact reportLoss_keeps l (s.without l)

/-- LINE-STATE stands behind what the block told has sent to the site server (log 11). -/
theorem out_site_lineLost (hup : s.isLost l = false) (hl : l ≠ .site) (hsite : s.isLost .site = false) :
    ∃ mid, (∀ m x n, .lineState m x n ∉ mid) ∧ ((lineLost l s).line .site).out =
      (s.line .site).out ++ mid ++ if s.reported l .lost then [.lineState l .lost (s.line l).errors] else [] := by
  have told := putsOut_reportLoss l (s.without l)
  have hsite' : (s.without l).isLost .site = false := (isLost_without_ne (Ne.symm hl) s).trans hsite
  obtain ⟨mid, hmid, hout⟩ := told.out hsite'
  refine ⟨mid, not_mem_of_isLineState hmid, ?_⟩
  rw [lineLost_eq hup, line_noticing_site, lineWith_of_up ((told.isLost .site).trans hsite'), hout,
    line_without_ne (Ne.symm hl)]

end

/-! ### The loss of a terminal line (R106) -/

section

variable {st : Station} {s : State}

theorem noticing_terminal (st : Station) (s w : State) : s.noticing (.terminal st) w =
    if (s.station st).role = .kiosk then emit .site (.lineState (.terminal st) .lost (s.line (.terminal st)).errors) w else w := by
  simp [State.noticing, State.reported]

theorem lineLost_terminal (hup : s.isLost (.terminal st) = false) :
    lineLost (.terminal st) s = s.noticing (.terminal st) (terminalLost st (s.without (.terminal st))) := lineLost_eq hup

/-- A lost terminal line changes nothing that the end of a payment reads. -/
theorem sameStores_without (st : Station) (s : State) : SameStores st s (s.without (.terminal st)) :=
  ⟨rfl, rfl, rfl, rfl, isLost_without_ne (by simp) s⟩

theorem line_lineLost_terminal (hup : s.isLost (.terminal st) = false) {l : Line} (hsite : l ≠ .site)
    (hstation : l ≠ .station st) : (lineLost (.terminal st) s).line l = (s.without (.terminal st)).line l := by
  rw [lineLost_terminal hup, line_noticing_ne hsite]
  exact (putsOut_terminalLost st _).line_of_not fun h => h.elim hsite hstation

/-- What a station whose PAY or payment ends under a lost terminal line is told (Table 5-12). -/
theorem toldOutcome_loss (st : Station) (p : Payment) (s : State) : toldOutcome st p p.lossOutcome s =
    if p.reported then [] else match p.phase with
      | .authorising | .aborting => [.payOutcome ⟨st, (s.pay st).count⟩ .lineLost]
      | .reversing => if p.cause = some .cancel then [.payOutcome ⟨st, (s.pay st).count⟩ .cancelled] else []
      | .selecting | .capturing => [] := by
  cases hreported : p.reported with
  | true => simp [toldOutcome, hreported]
  | false =>
    cases hph : p.phase with
    | selecting | capturing => simp [Payment.lossOutcome, hph, toldOutcome_none]
    | authorising | aborting => simp [Payment.lossOutcome, hph, toldOutcome_some hreported]
    | reversing =>
      have h := toldOutcome_abort st p s
      simp only [hreported, and_true] at h
      simpa [Payment.lossOutcome, hph] using h

/-- The end without a sale that a lost terminal line brings, as the state before the loss sees it. -/
theorem ended_lineLost {p : Payment} (hup : s.isLost (.terminal st) = false) (hp : s.payment st = some p)
    (hph : p.phase ≠ .capturing) :
    Ended st p (s.lossAnswer st p) (toldOutcome st p p.lossOutcome s) s (lineLost (.terminal st) s) := by
  have same := sameStores_without st s
  have hline : (s.without (.terminal st)).line (.station st) = s.line (.station st) := line_without_ne (by simp) s
  obtain ⟨settled, ⟨hlost, htold⟩, hout, hsales, hreserved, hlanes⟩ :=
    ended_terminalLost (s := s.without (.terminal st)) hp hph
  have hstation : (lineLost (.terminal st) s).line (.station st) =
      (terminalLost st (s.without (.terminal st))).line (.station st) := by
    rw [lineLost_terminal hup, line_noticing_ne station_ne_site]
  rw [hline] at hlost htold hout
  refine ⟨?_, ⟨fun h => ?_, fun h hg => ?_⟩, fun h => ?_, ?_, ?_, ?_⟩
  · rw [lineLost_terminal hup, noticing_frame]
    exact .of_before same settled
  · rw [hstation]; exact hlost (same.lost.trans h)
  · rw [hstation]; exact htold (same.lost.trans h) (same.gathering.trans hg)
  · rw [hstation]; exact hout (same.lost.trans h)
  · rw [lineLost_terminal hup, noticing_frame]; exact hsales
  · rw [lineLost_terminal hup, noticing_frame]; exact hreserved
  · rw [lineLost_terminal hup, noticing_frame]; exact hlanes

theorem lineLost_terminal_frame {p : Payment} {t : State} (hup : s.isLost (.terminal st) = false) (hp : s.payment st = some p)
    (ht : lineLost (.terminal st) s = t) : t = { s with
      screenings := t.screenings, holds := t.holds, items := t.items, baskets := s.baskets.set st (t.basket st),
      sales := t.sales, salesReserved := t.salesReserved, journal := t.journal, nextSeq := t.nextSeq,
      journalReserved := t.journalReserved, journalArmed := t.journalArmed, lanes := t.lanes, requests := t.requests,
      pays := s.pays.set st { s.pay st with current := none }, lines := t.lines } := by
  have hframe := terminalLost_frame (s := s.without (.terminal st)) hp
  have hnoticed := noticing_frame s (.terminal st) (terminalLost st (s.without (.terminal st)))
  rw [← lineLost_terminal hup, ht] at hnoticed
  clear ht
  generalize terminalLost st (s.without (.terminal st)) = w at hframe hnoticed
  generalize t.lines = ls at hnoticed
  subst hnoticed
  change { w with lines := ls } = { s with
    screenings := w.screenings, holds := w.holds, items := w.items, baskets := s.baskets.set st (w.basket st), sales := w.sales,
    salesReserved := w.salesReserved, journal := w.journal, nextSeq := w.nextSeq, journalReserved := w.journalReserved,
    journalArmed := w.journalArmed, lanes := w.lanes, requests := w.requests,
    pays := s.pays.set st { s.pay st with current := none }, lines := ls }
  generalize w.basket st = b at hframe ⊢
  rw [hframe]
  rfl

theorem journal_lineLost_of_reverses {p : Payment} (hup : s.isLost (.terminal st) = false) (hp : s.payment st = some p)
    (h : p.reverses = true) : (lineLost (.terminal st) s).journal = s.journal ++ [{
      seq := s.nextSeq, time := s.timeBase, sale := none, amount := p.amount,
      body := .reversal st ⟨st, (s.pay st).count⟩ false .lineLost p.auth }] ∧
    (lineLost (.terminal st) s).journalReserved = s.journalReserved - 1 ∧
    (lineLost (.terminal st) s).nextSeq = (if s.nextSeq < 4294967295 then s.nextSeq + 1 else 1) ∧
    (lineLost (.terminal st) s).journalArmed = s.journalArmed := by
  rw [lineLost_terminal hup, noticing_frame]
  exact journal_terminalLost_of_reverses (s := s.without (.terminal st)) hp h

theorem journal_lineLost_of_kept {p : Payment} (hup : s.isLost (.terminal st) = false) (hp : s.payment st = some p)
    (h : p.phase = .selecting ∨ (p.phase = .aborting ∧ p.asked = false)) :
    (lineLost (.terminal st) s).journal = s.journal ∧ (lineLost (.terminal st) s).nextSeq = s.nextSeq ∧
    (lineLost (.terminal st) s).journalReserved = if p.resJournal then s.journalReserved - 1 else s.journalReserved := by
  rw [lineLost_terminal hup, noticing_frame]
  exact journal_terminalLost_of_kept (s := s.without (.terminal st)) hp h

theorem requests_lineLost {p : Payment} (hup : s.isLost (.terminal st) = false) (hp : s.payment st = some p) :
    (lineLost (.terminal st) s).requests = if p.phase = .selecting then s.requests.set st none else s.requests := by
  rw [lineLost_terminal hup, noticing_frame]
  exact requests_terminalLost (s := s.without (.terminal st)) hp

/-- A capture becomes UNCONFIRMED with its SALE record (R106). -/
theorem lineLost_of_capturing {p : Payment} (hup : s.isLost (.terminal st) = false) (hp : s.payment st = some p)
    (hph : p.phase = .capturing) {n : Nat} {x : Sale} (hn : p.sale = some n) (hx : s.sale n = some x) :
    lineLost (.terminal st) s = s.noticing (.terminal st) { s.without (.terminal st) with
      sales := s.sales.put n { x with capture := .unconfirmed },
      journal := s.journal ++ [{
        seq := s.nextSeq, time := s.timeBase, sale := some n, amount := x.total,
        body := saleEntry { x with capture := .unconfirmed } }],
      nextSeq := if s.nextSeq < 4294967295 then s.nextSeq + 1 else 1, journalReserved := s.journalReserved - 1,
      pays := s.pays.set st { s.pay st with current := none } } := by
  rw [lineLost_terminal hup, terminalLost_of_capturing (s := s.without (.terminal st)) hp hph,
    endCapture_of_sale (s := s.without (.terminal st)) hn hx]
  rfl

/-! ### The loss of a printer line (R143) -/

theorem noticing_printer (st : Station) (s w : State) : s.noticing (.printer st) w =
    if (s.station st).printer then emit .site (.lineState (.printer st) .lost (s.line (.printer st)).errors) w else w := rfl

theorem lineLost_printer (hup : s.isLost (.printer st) = false) :
    lineLost (.printer st) s = s.noticing (.printer st) (printerLost st (s.without (.printer st))) := lineLost_eq hup

/-- A printer line that the station's role does not use reaches no lane. -/
theorem lineLost_printer_of_unused (hup : s.isLost (.printer st) = false)
    (hrole : (s.station st).role = .off ∨ (s.station st).role = .till) :
    lineLost (.printer st) s = s.noticing (.printer st) (s.without (.printer st)) := by
  have hlistens : (s.without (.printer st)).listens st = false := not_listens_of_role (s := s.without (.printer st)) hrole
  rw [lineLost_printer hup, printerLost, hlistens]
  rfl

theorem lineLost_printer_of_used (hup : s.isLost (.printer st) = false)
    (hrole : (s.station st).role = .kiosk ∨ (s.station st).role = .collect) : lineLost (.printer st) s =
      s.noticing (.printer st) (laneFault st .lineLost (s.without (.printer st))) := by
  have hlistens : (s.without (.printer st)).listens st = true := listens_of_role (s := s.without (.printer st)) hrole
  rw [lineLost_printer hup, printerLost, if_pos hlistens]

/-- A lane already SUSPENDED takes LINE_LOST as its kind, whatever it was (R142, R143). -/
theorem refault_lineLost (st : Station) (held : FaultKind) (s : State) : refault st held .lineLost s =
    emit (.station st) (.printFault .lineLost
        ((s.lane st).queue.countP (fun o => o.status = .uncertain)) ((s.lane st).queue.countP (fun o => o.status = .queued)))
      (setLane st { s.lane st with suspended := some .lineLost, clearFlag := false } s) := by
  rw [refault_eq, if_neg fun h => h.2.elim nofun nofun]
  rfl

end

/-- The loss of a line of any kind: the line, what the blocks keep, and LINE-STATE behind what they send. -/
theorem lineLost_values {l : Line} {s : State} (hup : s.isLost l = false) :
    (lineLost l s).line l = { s.line l with state := .lost, watch := none, out := [] } ∧
    (∀ m, ((lineLost l s).line m).state = if m = l then .lost else (s.line m).state) ∧
    (lineLost l s).stations = s.stations ∧ (lineLost l s).limits = s.limits ∧ (lineLost l s).timeBase = s.timeBase ∧
    (l = .site → lineLost l s = s.without .site) ∧
    (l ≠ .site → s.isLost .site = false → ∃ mid, (∀ m x n, .lineState m x n ∉ mid) ∧ ((lineLost l s).line .site).out =
      (s.line .site).out ++ mid ++ if s.reported l .lost then [.lineState l .lost (s.line l).errors] else []) := by
  obtain ⟨hstations, hlimits, htime⟩ := lineLost_keeps hup
  refine ⟨line_lineLost hup, state_line_lineLost hup, hstations, hlimits, htime, ?_, out_site_lineLost hup⟩
  rintro rfl
  exact lineLost_site hup

/-- Settles O19: the line itself, the end of the payment of a lost terminal line, and the fault of the lane of a lost printer
line. -/
theorem lineLostValues : Obligations.LineLostValues := by
  refine ⟨fun l s hup => ?line, fun st s hup => ⟨_, rfl, fun l => line_lineLost_terminal hup, fun hp => ?idle, fun p hp =>
      ⟨lineLost_terminal_frame hup hp rfl, journal_lineLost_of_reverses hup hp, journal_lineLost_of_kept hup hp,
        fun hph => ?ended, fun hph => ?capturing⟩⟩,
    fun st s hup => ⟨fun hrole => ?unused, fun hrole => ⟨fun held hheld => ?suspended, fun hnone => ?running⟩⟩⟩
  case line =>
    obtain ⟨hline, hstates, hstations, hlimits, htime, hsite, hout⟩ := lineLost_values hup
    refine ⟨_, rfl, hline, hstates, hstations, hlimits, htime, hsite, fun hl hs => ?_⟩
    obtain ⟨mid, hmid, hout⟩ := hout hl hs
    refine ⟨mid, hmid, hout.trans ?_⟩
    cases l <;> rfl
  case idle =>
    rw [lineLost_terminal hup, terminalLost_of_none (s := s.without (.terminal st)) hp, noticing_terminal]
    rfl
  case ended =>
    obtain ⟨settled, tells, out, sales, salesReserved, lanes⟩ := ended_lineLost hup hp hph
    rw [toldOutcome_loss] at tells out
    exact ⟨settled, tells, sales, salesReserved, lanes, requests_lineLost hup hp, out⟩
  case capturing =>
    refine ⟨(requests_lineLost hup hp).trans (if_neg (by simp [hph])), fun n x hn hx => ?_⟩
    rw [lineLost_of_capturing hup hp hph hn hx, noticing_terminal]
    rfl
  case unused =>
    refine congrArg Host.Outcome.next ((lineLost_printer_of_unused hup hrole).trans ?_)
    rw [noticing_printer]
    rfl
  case suspended =>
    have hlane : ((s.without (.printer st)).lane st).suspended = some held := hheld
    refine congrArg Host.Outcome.next ((lineLost_printer_of_used hup hrole).trans ?_)
    rw [laneFault_of_suspended hlane, refault_lineLost, noticing_printer]
    rfl
  case running =>
    have hlane : ((s.without (.printer st)).lane st).suspended = none := hnone
    refine ⟨laneFault st .lineLost (s.without (.printer st)), ?_, ?_⟩
    · exact congrArg Host.Outcome.next ((lineLost_printer_of_used hup hrole).trans (noticing_printer ..))
    · rw [laneFault_of_unsuspended hlane]
      exact faultTaken_suspendLane .lineLost

end Sys2Proof.Machine
end

section
/-! What no operation of the blocks touches: the queue of commands, which is the model's own (log 9).  The operations that several
commands share. -/

namespace Sys2Proof.Machine

/-- The print channel's operations leave the queue. -/
theorem SameBesidePrinting.pending {s t : State} (h : SameBesidePrinting s t) : t.pending = s.pending := by
  unfold SameBesidePrinting at h
  rw [h]

/-! ### State, stock, seats and journal -/

@[simp] theorem replySite_pending (tag : Tag) (c : Code) (vs : List Val) (s : State) :
    (replySite tag c vs s).pending = s.pending := emit_pending ..

@[simp] theorem replyStation_pending (st : Station) (tag : Tag) (c : Code) (vs : List Val) (s : State) :
    (replyStation st tag c vs s).pending = s.pending := emit_pending ..

@[simp] theorem modifyBasket_pending (st : Station) (f : Basket → Basket) (s : State) :
    (modifyBasket st f s).pending = s.pending := rfl

@[simp] theorem modifyLane_pending (st : Station) (f : Lane → Lane) (s : State) : (modifyLane st f s).pending = s.pending := rfl

@[simp] theorem modifyLine_pending (l : Line) (f : LineRec → LineRec) (s : State) : (modifyLine l f s).pending = s.pending := rfl

@[simp] theorem modifyPayment_pending (st : Station) (f : Payment → Payment) (s : State) :
    (modifyPayment st f s).pending = s.pending := rfl

@[simp] theorem modifySale_pending (n : Nat) (f : Sale → Sale) (s : State) : (modifySale n f s).pending = s.pending := by
  rw [modifySale_frame]

@[simp] theorem modifyItem_pending (code : Nat) (f : Item → Item) (s : State) : (modifyItem code f s).pending = s.pending := by
  rw [modifyItem_frame]

@[simp] theorem mapSeats_pending (slot : Nat) (ps : List SeatPos) (f : Seat → Seat) (s : State) :
    (mapSeats slot ps f s).pending = s.pending := by rw [mapSeats_frame]

@[simp] theorem judgeLow_pending (code : Nat) (s : State) : (judgeLow code s).pending = s.pending := by
  rw [judgeLow_frame]

@[simp] theorem judgeJournal_pending (s : State) : (judgeJournal s).pending = s.pending := by
  rw [judgeJournal_frame]

@[simp] theorem reserveUnits_pending (code qty : Nat) (s : State) : (reserveUnits code qty s).pending = s.pending := by
  rw [reserveUnits_frame]

@[simp] theorem returnUnits_pending (code qty : Nat) (s : State) : (returnUnits code qty s).pending = s.pending := by
  rw [returnUnits_frame]

@[simp] theorem writeFree_pending (sale : Option Nat) (amount : Nat) (body : JournalBody) (s : State) :
    (writeFree sale amount body s).pending = s.pending := by rw [writeFree_frame]

/-! ### Holds and baskets -/

@[simp] theorem releaseHold_pending (n : Nat) (s : State) : (releaseHold n s).pending = s.pending := by
  rw [releaseHold_frame]

@[simp] theorem closeHold_pending (st : Station) (n : Nat) (h : Hold) (s : State) : (closeHold st n h s).pending = s.pending := by
  rw [closeHold_frame]

@[simp] theorem basketGains_pending (st : Station) (f : Basket → Basket) (s : State) :
    (basketGains st f s).pending = s.pending := by rw [basketGains_frame]

@[simp] theorem basketLoses_pending (st : Station) (s : State) : (basketLoses st s).pending = s.pending := by
  rw [basketLoses_frame]

@[simp] theorem basketChange_pending (st : Station) (s : State) : (basketChange st s).pending = s.pending := rfl

@[simp] theorem emptyBasket_pending (st : Station) (s : State) : (emptyBasket st s).pending = s.pending := by
  rw [emptyBasket_frame]

@[simp] theorem treatBaskets_pending (k : LoadKind) (s : State) : (treatBaskets k s).pending = s.pending := by
  rw [treatBaskets_frame]

/-! ### Payments and sales -/

@[simp] theorem answerPay_pending (st : Station) (c : Code) (vs : List Val) (s : State) :
    (answerPay st c vs s).pending = s.pending := by rw [answerPay_frame]

@[simp] theorem setHoldPhases_pending (st : Station) (ph : HoldPhase) (s : State) :
    (setHoldPhases st ph s).pending = s.pending := by rw [setHoldPhases_frame]

@[simp] theorem sendAbort_pending (st : Station) (cause : AbortCause) (s : State) : (sendAbort st cause s).pending = s.pending := by
  rw [sendAbort_frame]

@[simp] theorem endWithoutSale_pending (st : Station) (p : Payment) (o : Option PayOutcome) (s : State) :
    (endWithoutSale st p o s).pending = s.pending := by rw [endWithoutSale_frame]

@[simp] theorem reverseAndEnd_pending (st : Station) (p : Payment) (confirmed : Bool) (reason : ReversalReason)
    (o : Option PayOutcome) (s : State) : (reverseAndEnd st p confirmed reason o s).pending = s.pending :=
  endWithoutSale_pending ..

@[simp] theorem selectionFails_pending (st : Station) (p : Payment) (c : Code) (vs : List Val) (s : State) :
    (selectionFails st p c vs s).pending = s.pending := (endWithoutSale_pending ..).trans (answerPay_pending ..)

@[simp] theorem endCapture_pending (st : Station) (p : Payment) (c : CaptureState) (s : State) :
    (endCapture st p c s).pending = s.pending := by
  unfold endCapture
  split
  · rw [releaseReservations_frame]
    rfl
  · rfl

@[simp] theorem enterSale_pending (n : Nat) (x : Sale) (m : Summary) (holds : List Nat) (fromReserved : Bool) (s : State) :
    (enterSale n x m holds fromReserved s).pending = s.pending := by
  obtain ⟨_, -, h⟩ := enterSale_frame n x m holds fromReserved s
  rw [h]

@[simp] theorem commit_pending (st : Station) (auth : Auth) (room : Nat) (s : State) : (commit st auth room s).pending = s.pending := by
  obtain ⟨_, -, h⟩ := commit_frame st auth room s
  rw [h]

@[simp] theorem voidVoucher_pending (serial : Nat) (s : State) : (voidVoucher serial s).pending = s.pending := by
  rw [voidVoucher_frame]

@[simp] theorem removeOrders_pending (n : Nat) (s : State) : (removeOrders n s).pending = s.pending := by
  rw [removeOrders_frame]

/-! ### Print channel -/

@[simp] theorem ordersEnded_pending (st : Station) (n k : Nat) (s : State) : (ordersEnded st n k s).pending = s.pending :=
  (sameBesidePrinting_ordersEnded st n k s).pending

@[simp] theorem completeSource_pending (o : Order) (s : State) : (completeSource o s).pending = s.pending :=
  (sameBesidePrinting_completeSource o s).pending

@[simp] theorem endBurst_pending (out : Option Station) (s : State) : (endBurst out s).pending = s.pending :=
  (sameBesidePrinting_endBurst out s).pending

@[simp] theorem laneComes_pending (st : Station) (s : State) : (laneComes st s).pending = s.pending :=
  (sameBesidePrinting_laneComes st s).pending

@[simp] theorem laneFault_pending (st : Station) (k : FaultKind) (s : State) : (laneFault st k s).pending = s.pending :=
  (sameBesidePrinting_laneFault st k s).pending

@[simp] theorem resumeLane_pending (st : Station) (k : FaultKind) (s : State) : (resumeLane st k s).pending = s.pending :=
  (sameBesidePrinting_resumeLane st k s).pending

end Sys2Proof.Machine
end

section
/-! The requests of the site server and the stations leave the queue. -/

namespace Sys2Proof.Machine

/-- A request of a station link is refused, or its block acts (R182). -/
theorem stationRequest_pending {act : State → State} (st : Station) (tag : Tag) (k : ReqKind) {s : State}
    (h : (act s).pending = s.pending) : (stationRequest st tag k act s).pending = s.pending := by
  unfold stationRequest
  repeat' split
  all_goals simp [h]

/-! ### Seat store -/

theorem beginScreening_pending (tag : Tag) (f : BeginFields) (s : State) : (beginScreening tag f s).pending = s.pending := by
  unfold beginScreening
  repeat' split
  all_goals simp

theorem seatRow_pending (tag : Tag) (slot row : Nat) (runs : List RunSpec) (s : State) :
    (seatRow tag slot row runs s).pending = s.pending := by
  unfold seatRow
  repeat' split
  all_goals simp [takeSeatRow]

theorem endLoad_pending (tag : Tag) (slot : Nat) (s : State) : (endLoad tag slot s).pending = s.pending := by
  unfold endLoad
  repeat' split
  all_goals simp

theorem stopSales_pending (tag : Tag) (slot : Nat) (s : State) : (stopSales tag slot s).pending = s.pending := by
  unfold stopSales
  repeat' split
  all_goals simp

theorem retireScreening_pending (tag : Tag) (slot : Nat) (s : State) : (retireScreening tag slot s).pending = s.pending := by
  unfold retireScreening
  repeat' split
  all_goals simp [takeRetire]

theorem treatSeats_pending (act : Seat → Seat × SeatResult) (slot : Nat) : ∀ (ps : List SeatPos) (s : State),
    (treatSeats act slot ps s).1.pending = s.pending
  | [], _ => rfl
  | p :: ps, s => by
    unfold treatSeats
    split
    · exact treatSeats_pending act slot ps s
    · exact (treatSeats_pending act slot ps _).trans (mapSeats_pending ..)

theorem treatSlot_pending (act : Seat → Seat × SeatResult) (tag : Tag) (slot : Nat) (ps : List SeatPos) (s : State) :
    (treatSlot act tag slot ps s).pending = s.pending := by
  unfold treatSlot
  repeat' split
  all_goals simp [treatSeats_pending]

theorem querySeats_pending (tag : Tag) (slot row first last : Nat) (s : State) :
    (querySeats tag slot row first last s).pending = s.pending := by
  unfold querySeats
  repeat' split
  all_goals simp

theorem queryMap_pending (st : Station) (tag : Tag) (slot first last : Nat) (s : State) :
    (queryMap st tag slot first last s).pending = s.pending := by
  unfold queryMap
  repeat' split
  all_goals simp

/-! ### Hold table -/

theorem holdSeat_pending (st : Station) (tag : Tag) (r : SeatRef) (s : State) : (holdSeat st tag r s).pending = s.pending := by
  unfold holdSeat
  repeat' split
  all_goals simp [claimSeat]

theorem holdClose_pending (st : Station) (tag : Tag) (s : State) : (holdClose st tag s).pending = s.pending := by
  unfold holdClose
  split <;> simp

theorem windowReached_pending (n : Nat) (s : State) : (windowReached n s).pending = s.pending := by
  unfold windowReached
  repeat' split
  all_goals simp

theorem dropHold_pending (st : Station) (tag : Tag) (n : Nat) (s : State) : (dropHold st tag n s).pending = s.pending := by
  unfold dropHold
  dsimp only
  repeat' split
  all_goals simp [leaveBasket]

theorem siteHold_pending (tag : Tag) (slot : Nat) (ps : List SeatPos) (seconds : Nat) (ref : Chars 8) (s : State) :
    (siteHold tag slot ps seconds ref s).pending = s.pending := by
  unfold siteHold
  repeat' split
  all_goals simp [takeSiteHold]

theorem ownReached_pending (n : Nat) (s : State) : (ownReached n s).pending = s.pending := by
  unfold ownReached
  repeat' split
  all_goals simp

theorem siteRelease_pending (tag : Tag) (n : Nat) (ref : Chars 8) (s : State) : (siteRelease tag n ref s).pending = s.pending := by
  unfold siteRelease
  repeat' split
  all_goals simp

/-! ### Basket unit and loads -/

theorem setCategory_pending (st : Station) (tag : Tag) (ref : SeatRef) (cat : Nat) (s : State) :
    (setCategory st tag ref cat s).pending = s.pending := by
  unfold setCategory
  repeat' split
  all_goals simp

theorem addSnack_pending (st : Station) (tag : Tag) (item qty : Nat) (s : State) :
    (addSnack st tag item qty s).pending = s.pending := by
  unfold addSnack
  dsimp only
  repeat' split
  all_goals simp

theorem removeSnack_pending (st : Station) (tag : Tag) (item qty : Nat) (s : State) :
    (removeSnack st tag item qty s).pending = s.pending := by
  unfold removeSnack
  dsimp only
  repeat' split
  all_goals simp

theorem price_pending (st : Station) (tag : Tag) (s : State) : (price st tag s).pending = s.pending := by
  unfold price
  dsimp only
  repeat' split
  all_goals simp

theorem abandon_pending (st : Station) (tag : Tag) (s : State) : (abandon st tag s).pending = s.pending := by
  unfold abandon
  split <;> simp

theorem lapseReached_pending (st : Station) (s : State) : (lapseReached st s).pending = s.pending := by
  unfold lapseReached
  dsimp only
  repeat' split
  all_goals simp

theorem loadTariff_pending (tag : Tag) (f : Tariff) (s : State) : (loadTariff tag f s).pending = s.pending := by
  unfold loadTariff
  split <;> simp

theorem loadSnacks_pending (tag : Tag) (entries : List SnackEntry) (s : State) :
    (loadSnacks tag entries s).pending = s.pending := by
  have taken : (takeSnacks entries s).pending = s.pending := by rw [takeSnacks_frame]
  unfold loadSnacks
  repeat' split
  all_goals simp [taken]

/-! ### Voucher table -/

theorem setAllowance_pending (tag : Tag) (code allowance lowMark : Nat) (restart : Bool) (s : State) :
    (setAllowance tag code allowance lowMark restart s).pending = s.pending := by
  unfold setAllowance
  dsimp only
  repeat' split
  all_goals simp

theorem querySnacks_pending (tag : Tag) (first last : Nat) (s : State) : (querySnacks tag first last s).pending = s.pending := by
  unfold querySnacks
  split <;> simp

theorem loadSeed_pending (tag : Tag) (seed : Nat) (s : State) : (loadSeed tag seed s).pending = s.pending := by
  unfold loadSeed
  repeat' split
  all_goals simp

theorem unlockVoucher_pending (tag : Tag) (serial : Nat) (s : State) : (unlockVoucher tag serial s).pending = s.pending := by
  unfold unlockVoucher
  repeat' split
  all_goals simp

theorem queryVoucher_pending (st : Station) (tag : Tag) (serial : Nat) (s : State) :
    (queryVoucher st tag serial s).pending = s.pending := by
  unfold queryVoucher
  repeat' split
  all_goals simp

theorem redeem_pending (st : Station) (tag : Tag) (serial code : Nat) (s : State) :
    (redeem st tag serial code s).pending = s.pending := by
  have wrong (v : Voucher) : (wrongCode st tag serial v s).pending = s.pending := by
    unfold wrongCode
    dsimp only
    split <;> simp
  unfold redeem
  repeat' split
  all_goals simp [wrong, takeRedeem]

/-! ### Sale table and journal -/

theorem siteSell_pending (tag : Tag) (hold : Nat) (ref : Chars 8) (cats : List Nat) (snacks : List SnackLine) (s : State) :
    (siteSell tag hold ref cats snacks s).pending = s.pending := by
  have taken (h : Hold) (m : Summary) : (takeSiteSell tag hold h ref m s).pending = s.pending := by
    unfold takeSiteSell
    dsimp only
    split <;> simp
  unfold siteSell siteSellHold
  repeat' split
  all_goals simp [taken]

theorem takeRefund_pending (tag : Tag) (n : Nat) (x : Sale) (s : State) : (takeRefund tag n x s).pending = s.pending := by
  have seats := foldl_keeps State.pending (fun s (l : SaleSeat) => mapSeats l.ref.slot [refPos l.ref] Seat.refund s)
    (fun s l => mapSeats_pending ..)
  have vouchers := foldl_keeps State.pending (fun s v => voidVoucher v s) (fun s v => voidVoucher_pending v s)
  simp [takeRefund, seats, vouchers]

theorem refund_pending (tag : Tag) (n : Nat) (s : State) : (refund tag n s).pending = s.pending := by
  unfold refund
  repeat' split
  all_goals simp [takeRefund_pending]

theorem querySale_pending (tag : Tag) (n : Nat) (s : State) : (querySale tag n s).pending = s.pending := by
  unfold querySale
  repeat' split
  all_goals simp

theorem journalRelease_pending (tag : Tag) (seq : Nat) (s : State) : (journalRelease tag seq s).pending = s.pending := by
  unfold journalRelease
  split <;> simp

end Sys2Proof.Machine
end

section
/-! Printing, payments and the lines leave the queue, and with them every command (O3); a step takes the queue's front (O1). -/

namespace Sys2Proof.Machine

/-! ### Print channel -/

theorem acceptRecord_pending (st : Station) (k lvl : Nat) (s : State) : (acceptRecord st k lvl s).pending = s.pending := by
  unfold acceptRecord acceptBurst
  dsimp only
  repeat' split
  all_goals simp [orderDone]

theorem levelRecord_pending (st : Station) (lvl : Nat) (s : State) : (levelRecord st lvl s).pending = s.pending := by
  unfold levelRecord
  split <;> simp

theorem cutDoneRecord_pending (st : Station) (s : State) : (cutDoneRecord st s).pending = s.pending := by
  unfold cutDoneRecord
  repeat' split
  all_goals simp [cutReported]

theorem faultRecord_pending (st : Station) (kind : PrinterFault) (k : Nat) (s : State) :
    (faultRecord st kind k s).pending = s.pending := by
  unfold faultRecord
  split <;> simp

theorem clearRecord_pending (st : Station) (s : State) : (clearRecord st s).pending = s.pending := by
  unfold clearRecord
  split <;> simp

theorem burstDeadlineReached_pending (s : State) : (burstDeadlineReached s).pending = s.pending := by
  unfold burstDeadlineReached
  repeat' split
  all_goals simp

theorem cutDeadlineReached_pending (st : Station) (s : State) : (cutDeadlineReached st s).pending = s.pending := by
  unfold cutDeadlineReached
  split <;> simp

theorem settlingReached_pending (st : Station) (s : State) : (settlingReached st s).pending = s.pending := by
  unfold settlingReached
  split <;> simp

theorem resumeWith_pending {answer : Code → List Val → State → State} (h : ∀ c vs s, (answer c vs s).pending = s.pending)
    (st : Station) (s : State) : (resumeWith answer st s).pending = s.pending := by
  unfold resumeWith
  repeat' split
  all_goals simp [h]

theorem resumePrint_pending (sender : ResumeSender) (tag : Tag) (s : State) : (resumePrint sender tag s).pending = s.pending := by
  unfold resumePrint
  split
  · next st => exact stationRequest_pending _ _ _ (resumeWith_pending (replyStation_pending st tag) st s)
  · split
    · exact resumeWith_pending (replySite_pending tag) _ s
    · exact replySite_pending ..

theorem reprint_pending (tag : Tag) (n : Nat) (item : ReprintItem) (station : Nat) (s : State) :
    (reprint tag n item station s).pending = s.pending := by
  unfold reprint reprintOf
  dsimp only
  repeat' split
  all_goals simp [takeReprint, appendOrders]

theorem collect_pending (st : Station) (tag : Tag) (ref : Chars 8) (s : State) : (collect st tag ref s).pending = s.pending := by
  unfold collect
  repeat' split
  all_goals simp [takeCollect, appendOrders]

/-! ### Payments -/

theorem pay_pending (st : Station) (tag : Tag) (s : State) : (pay st tag s).pending = s.pending := by
  unfold pay
  split <;> simp [acceptPay]

theorem cancelPay_pending (st : Station) (tag : Tag) (s : State) : (cancelPay st tag s).pending = s.pending := by
  unfold cancelPay
  repeat' split
  all_goals simp

theorem selectedRecord_pending (st : Station) (echo : Chars 4) (status : SelectStatus) (s : State) :
    (selectedRecord st echo status s).pending = s.pending := by
  unfold selectedRecord
  repeat' split
  all_goals simp [sendAuthorise, abortSelection]

theorem selectStepReached_pending (st : Station) (s : State) : (selectStepReached st s).pending = s.pending := by
  unfold selectStepReached
  repeat' split
  all_goals simp

theorem progressRecord_pending (st : Station) (stage : PayStage) (s : State) : (progressRecord st stage s).pending = s.pending := by
  unfold progressRecord
  repeat' split
  all_goals simp

theorem outcomeRecord_pending (st : Station) (o : TermOutcome) (s : State) : (outcomeRecord st o s).pending = s.pending := by
  unfold outcomeRecord
  repeat' split
  all_goals simp [approve, reverseApproval]

theorem timeLimitReached_pending (st : Station) (s : State) : (timeLimitReached st s).pending = s.pending := by
  unfold timeLimitReached
  repeat' split
  all_goals simp

theorem abortStepReached_pending (st : Station) (s : State) : (abortStepReached st s).pending = s.pending := by
  unfold abortStepReached
  repeat' split
  all_goals simp

theorem reversedRecord_pending (st : Station) (s : State) : (reversedRecord st s).pending = s.pending := by
  unfold reversedRecord
  repeat' split
  all_goals simp

theorem reverseStepReached_pending (st : Station) (s : State) : (reverseStepReached st s).pending = s.pending := by
  unfold reverseStepReached
  repeat' split
  all_goals simp

theorem capturedRecord_pending (st : Station) (s : State) : (capturedRecord st s).pending = s.pending := by
  unfold capturedRecord
  repeat' split
  all_goals simp

theorem captureStepReached_pending (st : Station) (s : State) : (captureStepReached st s).pending = s.pending := by
  unfold captureStepReached
  repeat' split
  all_goals simp

/-! ### Links -/

/-- A RESET keeps the commands that wait (R190). -/
theorem siteReset_pending (tag : Tag) (s : State) : (siteReset tag s).pending = s.pending := by
  rw [siteReset_frame]
  rfl

theorem configStation_pending (tag : Tag) (station : Nat) (role : Option Role) (addr : Chars 4) (printer : Bool) (s : State) :
    (configStation tag station role addr printer s).pending = s.pending := by
  unfold configStation
  repeat' split
  all_goals simp [takeConfig]

theorem changeLimits_pending (tag : Tag) (window hold payment : Nat) (s : State) :
    (changeLimits tag window hold payment s).pending = s.pending := replySite_pending ..

/-- The block a loss is reported to leaves the queue (R179). -/
theorem reportLoss_pending (l : Line) (s : State) : (reportLoss l s).pending = s.pending := by
  cases l with
  | site => rfl
  | station st =>
    show (stationLost st s).pending = s.pending
    unfold stationLost
    dsimp only
    repeat' split
    all_goals simp
  | terminal st =>
    show (terminalLost st s).pending = s.pending
    unfold terminalLost
    repeat' split
    all_goals simp
  | printer st =>
    show (printerLost st s).pending = s.pending
    unfold printerLost
    split <;> simp

theorem lineLost_pending (l : Line) (s : State) : (lineLost l s).pending = s.pending := by
  unfold lineLost
  split
  · rfl
  · rw [noticeLine_frame]
    exact reportLoss_pending ..

theorem lineRegained_pending (l : Line) (s : State) : (lineRegained l s).pending = s.pending := by
  unfold lineRegained
  split
  · rw [noticeLine_frame, reportRegain_frame]
    rfl
  · rfl

theorem breakBegins_pending (l : Line) (s : State) : (breakBegins l s).pending = s.pending := by
  unfold breakBegins
  split <;> rfl

theorem breakEnds_pending (l : Line) (s : State) : (breakEnds l s).pending = s.pending := by
  unfold breakEnds
  split <;> rfl

theorem frameError_pending (l : Line) (cause : FrameFault) (s : State) : (frameError l cause s).pending = s.pending := by
  unfold frameError
  split <;> rfl

theorem trainTimeout_pending (l : Line) (s : State) : (trainTimeout l s).pending = s.pending := by
  unfold trainTimeout
  split <;> rfl

theorem trainInterrupted_pending (l : Line) (kind : Byte) (tag : Tag) (body : List Byte) (s : State) :
    (trainInterrupted l kind tag body s).pending = s.pending := by
  unfold trainInterrupted
  split <;> rfl

theorem recordSent_pending (l : Line) (s : State) : (recordSent l s).pending = s.pending := by
  have left (rest : List OutRec) (t : State) : (burstLeft l rest t).pending = t.pending := by
    unfold burstLeft
    repeat' split
    all_goals rfl
  unfold recordSent
  dsimp only
  repeat' split
  all_goals simp [left]

/-! ### Every command and every step -/

/-- A command answers a next state, and leaves the commands that wait (logs 9 and 20). -/
theorem exec_leaves_queue (c : Instr) (s : State) : ∃ t, exec c s = .next t ∧ t.pending = s.pending :=
  match c with
  | .powerOn => ⟨powerOn s, rfl, rfl⟩
  | .reset .. => ⟨_, rfl, siteReset_pending ..⟩
  | .beginScreening .. => ⟨_, rfl, beginScreening_pending ..⟩
  | .seatRow .. => ⟨_, rfl, seatRow_pending ..⟩
  | .endLoad .. => ⟨_, rfl, endLoad_pending ..⟩
  | .stopSales .. => ⟨_, rfl, stopSales_pending ..⟩
  | .retireScreening .. => ⟨_, rfl, retireScreening_pending ..⟩
  | .blockSeats .. => ⟨_, rfl, treatSlot_pending ..⟩
  | .unblockSeats .. => ⟨_, rfl, treatSlot_pending ..⟩
  | .querySeats .. => ⟨_, rfl, querySeats_pending ..⟩
  | .queryMap .. => ⟨_, rfl, stationRequest_pending _ _ _ (queryMap_pending ..)⟩
  | .holdSeat .. => ⟨_, rfl, stationRequest_pending _ _ _ (holdSeat_pending ..)⟩
  | .holdClose .. => ⟨_, rfl, stationRequest_pending _ _ _ (holdClose_pending ..)⟩
  | .gatheringWindowExpiry _ => ⟨_, rfl, windowReached_pending ..⟩
  | .dropHold .. => ⟨_, rfl, stationRequest_pending _ _ _ (dropHold_pending ..)⟩
  | .siteHold .. => ⟨_, rfl, siteHold_pending ..⟩
  | .ownDeadlineExpiry _ => ⟨_, rfl, ownReached_pending ..⟩
  | .siteRelease .. => ⟨_, rfl, siteRelease_pending ..⟩
  | .siteSell .. => ⟨_, rfl, siteSell_pending ..⟩
  | .setCategory .. => ⟨_, rfl, stationRequest_pending _ _ _ (setCategory_pending ..)⟩
  | .addSnack .. => ⟨_, rfl, stationRequest_pending _ _ _ (addSnack_pending ..)⟩
  | .removeSnack .. => ⟨_, rfl, stationRequest_pending _ _ _ (removeSnack_pending ..)⟩
  | .price .. => ⟨_, rfl, stationRequest_pending _ _ _ (price_pending ..)⟩
  | .abandon .. => ⟨_, rfl, stationRequest_pending _ _ _ (abandon_pending ..)⟩
  | .lapseDeadlineReached _ => ⟨_, rfl, lapseReached_pending ..⟩
  | .pay .. => ⟨_, rfl, stationRequest_pending _ _ _ (pay_pending ..)⟩
  | .cancelPay .. => ⟨_, rfl, stationRequest_pending _ _ _ (cancelPay_pending ..)⟩
  | .selected .. => ⟨_, rfl, selectedRecord_pending ..⟩
  | .selectStepDeadline _ => ⟨_, rfl, selectStepReached_pending ..⟩
  | .progress .. => ⟨_, rfl, progressRecord_pending ..⟩
  | .outcome .. => ⟨_, rfl, outcomeRecord_pending ..⟩
  | .timeLimit _ => ⟨_, rfl, timeLimitReached_pending ..⟩
  | .abortOutcome .. => ⟨_, rfl, outcomeRecord_pending ..⟩
  | .abortStepDeadline _ => ⟨_, rfl, abortStepReached_pending ..⟩
  | .reversed _ => ⟨_, rfl, reversedRecord_pending ..⟩
  | .reverseStepDeadline _ => ⟨_, rfl, reverseStepReached_pending ..⟩
  | .captured _ => ⟨_, rfl, capturedRecord_pending ..⟩
  | .captureStepDeadline _ => ⟨_, rfl, captureStepReached_pending ..⟩
  | .refund .. => ⟨_, rfl, refund_pending ..⟩
  | .querySale .. => ⟨_, rfl, querySale_pending ..⟩
  | .journalRead _ => ⟨_, rfl, replySite_pending ..⟩
  | .journalRelease .. => ⟨_, rfl, journalRelease_pending ..⟩
  | .loadTariff .. => ⟨_, rfl, loadTariff_pending ..⟩
  | .loadSnacks .. => ⟨_, rfl, loadSnacks_pending ..⟩
  | .setAllowance .. => ⟨_, rfl, setAllowance_pending ..⟩
  | .querySnacks .. => ⟨_, rfl, querySnacks_pending ..⟩
  | .loadSeed .. => ⟨_, rfl, loadSeed_pending ..⟩
  | .redeem .. => ⟨_, rfl, stationRequest_pending _ _ _ (redeem_pending ..)⟩
  | .unlockVoucher .. => ⟨_, rfl, unlockVoucher_pending ..⟩
  | .queryVoucher .. => ⟨_, rfl, stationRequest_pending _ _ _ (queryVoucher_pending ..)⟩
  | .reprint .. => ⟨_, rfl, reprint_pending ..⟩
  | .collect .. => ⟨_, rfl, stationRequest_pending _ _ _ (collect_pending ..)⟩
  | .resumePrint .. => ⟨_, rfl, resumePrint_pending ..⟩
  | .accept .. => ⟨_, rfl, acceptRecord_pending ..⟩
  | .level .. => ⟨_, rfl, levelRecord_pending ..⟩
  | .cutDone _ => ⟨_, rfl, cutDoneRecord_pending ..⟩
  | .fault .. => ⟨_, rfl, faultRecord_pending ..⟩
  | .clear _ => ⟨_, rfl, clearRecord_pending ..⟩
  | .burstDeadline => ⟨_, rfl, burstDeadlineReached_pending ..⟩
  | .cutDeadline _ => ⟨_, rfl, cutDeadlineReached_pending ..⟩
  | .settlingDeadline _ => ⟨_, rfl, settlingReached_pending ..⟩
  | .configStation .. => ⟨_, rfl, configStation_pending ..⟩
  | .setLimits .. => ⟨_, rfl, changeLimits_pending ..⟩
  | .siteStatus _ => ⟨_, rfl, replySite_pending ..⟩
  | .status .. => ⟨_, rfl, stationRequest_pending _ _ _ (replyStation_pending ..)⟩
  | .reject .. => ⟨_, rfl, emit_pending ..⟩
  | .lineLost _ => ⟨_, rfl, lineLost_pending ..⟩
  | .lineRegained _ => ⟨_, rfl, lineRegained_pending ..⟩
  | .frameError .. => ⟨_, rfl, frameError_pending ..⟩
  | .frameTimeout _ => ⟨_, rfl, modifyLine_pending ..⟩
  | .trainTimeout _ => ⟨_, rfl, trainTimeout_pending ..⟩
  | .trainInterrupted .. => ⟨_, rfl, trainInterrupted_pending ..⟩
  | .recordSent _ => ⟨_, rfl, recordSent_pending ..⟩
  | .breakBegins _ => ⟨_, rfl, breakBegins_pending ..⟩
  | .breakEnds _ => ⟨_, rfl, breakEnds_pending ..⟩

/-- Settles O3: each shared operation leaves the queue by its frame, and each command's meaning is a next state made of them. -/
theorem execAnswersAndLeavesQueue : Obligations.ExecAnswersAndLeavesQueue := exec_leaves_queue

/-- Settles O1, by the branch of the step on a queue that holds a command. -/
theorem stepTakesFront : Obligations.StepTakesFront := by
  intro c rest s hfront
  unfold step
  rw [hfront]

end Sys2Proof.Machine
end
